-- ==== Sys2Proof/Word.lean ====
section
/-! DEFINITION. Word: the word types of the machine and nothing more; helpers that a later reading could change stand
in Decode.lean or Machine/. -/

namespace Sys2Proof

/-- A 64-bit register or memory word. -/
abbrev Word := BitVec 64
/-- A 32-bit lane or tile element. -/
abbrev Lane := BitVec 32
/-- A vector register: 64 lanes of 32 bits, lane i at bits 32i+31 to 32i (R134). -/
abbrev Vec := BitVec 2048
/-- One byte. -/
abbrev Byte := BitVec 8

end Sys2Proof
end

