-- ==== Sys2Proof/Machine/Crypto.lean ====
section
/-! DEFINITION. Crypto: the functions that R3 names: SHA-512 (FIPS 180-4), ECDSA on P-521 (FIPS 186-5) and AES-256-GCM
(FIPS 197, SP 800-38D). The spec names these algorithms and gives no tables of theirs (PRESUMED, log entry 20). -/

namespace Sys2Proof.Machine

/-- Bytes as a number, the most significant first. -/
def beNat (bs : List Byte) : Nat := bs.foldl (fun n b => n * 256 + b.toNat) 0

/-- A number as `n` bytes, the most significant first. -/
def beBytes (n v : Nat) : List Byte := (List.range n).map fun i => BitVec.ofNat 8 (v / 256 ^ (n - 1 - i))

/-- Bytes `n` at a time; the last block may be short. -/
def byteBlocks (n : Nat) (bs : List Byte) : List (List Byte) :=
  (List.range ((bs.length + n - 1) / n)).map fun i => (bs.drop (n * i)).take n

/-- Exclusive or of two byte strings, as long as the shorter. -/
def xorBytes (a b : List Byte) : List Byte := List.zipWith (fun x y => x ^^^ y) a b

/-! ### SHA-512 -/

/-- The largest number below 2^n whose k-th power is at most `x`, found bit by bit; `r` is what the higher bits give. -/
def rootBits (k x : Nat) : Nat → Nat → Nat
  | 0, r => r
  | n + 1, r => rootBits k x n (if (r + 2 ^ n) ^ k ≤ x then r + 2 ^ n else r)

/-- The first 64 bits of the fraction of the k-th root of `p`. -/
def rootFraction (k p : Nat) : Word := BitVec.ofNat 64 (rootBits k (p * 2 ^ (64 * k)) 70 0)

/-- The primes below `n`, which is at most 441: those with no divisor from 2 to 20 but themselves. -/
def primesBelow (n : Nat) : List Nat :=
  (List.range n).filter fun p => decide (2 ≤ p) && (List.range 19).all fun d => decide (p ≤ d + 2) || decide (p % (d + 2) ≠ 0)

/-- A constant for each of the 80 rounds: the cube roots of the first 80 primes. -/
def roundWords : List Word := (primesBelow 410).map (rootFraction 3)

/-- The hash value before the first block, its eight words in order: the square roots of the first eight primes. -/
def firstHash : List Word := (primesBelow 20).map (rootFraction 2)

/-- Exclusive or of rotations of a word. -/
def rotations (x : Word) (by_ : List Nat) : Word := by_.foldl (fun z n => z ^^^ x.rotateRight n) 0

/-- The message schedule extended by `n` words, the newest first. -/
def extendSchedule : Nat → List Word → List Word
  | 0, ws => ws
  | n + 1, ws =>
    let late := ws.getD 1 0
    let early := ws.getD 14 0
    let next := (rotations late [19, 61] ^^^ late >>> 6) + (rotations early [1, 8] ^^^ early >>> 7) + ws.getD 6 0 + ws.getD 15 0
    extendSchedule n (next :: ws)

/-- The 80 schedule words of a block of 128 bytes. -/
def schedule (block : List Byte) : List Word :=
  (extendSchedule 64 ((byteBlocks 8 block).map fun b => BitVec.ofNat 64 (beNat b)).reverse).reverse

/-- One round on the eight words of a hash value: `kw` is the sum of the round's constant and schedule word. -/
def hashRound (h : List Word) (kw : Word) : List Word :=
  let w := fun i => h.getD i 0
  let fresh := w 7 + rotations (w 4) [14, 18, 41] + (w 6 ^^^ (w 4 &&& (w 5 ^^^ w 6))) + kw
  let mixed := rotations (w 0) [28, 34, 39] + ((w 0 &&& w 1) ||| (w 2 &&& (w 0 ||| w 1)))
  [fresh + mixed] ++ h.take 3 ++ [w 3 + fresh] ++ (h.drop 4).take 3

/-- The hash value after one more block. -/
def hashBlock (h : List Word) (block : List Byte) : List Word :=
  List.zipWith (fun x y => x + y) h ((List.zipWith (fun x y => x + y) roundWords (schedule block)).foldl hashRound h)

/-- SHA-512 of bytes, 64 bytes (R454, R455): the message is padded to whole blocks with a bit 1, zeros and its length in
bits. -/
def sha512 (bs : List Byte) : List Byte :=
  let padded := bs ++ 0x80 :: List.replicate ((239 - bs.length % 128) % 128) 0 ++ beBytes 16 (8 * bs.length)
  ((byteBlocks 128 padded).foldl hashBlock firstHash).flatMap fun w => beBytes 8 w.toNat

/-! ### ECDSA on P-521 -/

/-- The prime of P-521, 2^521 - 1. -/
def p521 : Nat :=
  0x1ffffffffffffffffffffffffffffffffffffffffffffffffffffffffffffffffffffffffffffffffffffffffffffffffffffffffffffffffffffffffffffffffff

/-- The coefficient b of P-521; a is -3. -/
def p521B : Nat :=
  0x051953eb9618e1c9a1f929a21a0b68540eea2da725b99b315f3b8b489918ef109e156193951ec7e937b1652c0bd3bb1bf073573df883d2c34f1ef451fd46b503f00

/-- The order of the group. -/
def p521N : Nat :=
  0x1fffffffffffffffffffffffffffffffffffffffffffffffffffffffffffffffffa51868783bf2f966b7fcc0148f709a5d03bb5c9b8899c47aebb6fb71e91386409

/-- A point in projective coordinates: Z = 0 at infinity. -/
structure EcPoint where
  x : Nat
  y : Nat
  z : Nat
deriving DecidableEq, Repr

/-- The generator. -/
def p521G : EcPoint :=
  ⟨0xc6858e06b70404e9cd9e3ecb662395b4429c648139053fb521f828af606b4d3dbaa14b5e77efe75928fe1dc127a2ffa8de3348b3c1856a429bf97e7e31c2e5bd66,
   0x11839296a789a3bc0045c8a5fb42c7d1bd998f54449579b446817afbd17273e662c97ee72995ef42640c550b9013fad0761353c7086a272c24088be94769fd16650,
   1⟩

/-- The sum of two points: the addition law without exceptions of a curve of odd order. -/
def ecAdd (u v : EcPoint) : EcPoint :=
  let p := p521
  let a := p - 3
  let b3 := 3 * p521B
  let m := (u.x * v.y + v.x * u.y) % p
  let k := (u.y * v.z + v.y * u.z) % p
  let w := (u.x * v.z + v.x * u.z) % p
  let xx := u.x * v.x % p
  let yy := u.y * v.y % p
  let zz := u.z * v.z % p
  let h := (a * w + b3 * zz) % p
  let e := (a * xx + b3 * w + (p - a * a % p) * zz) % p
  let g := (3 * xx + a * zz) % p
  ⟨(m * (yy + p - h) + (p - k) * e) % p, (g * e + (yy + h) * (yy + p - h)) % p, (k * (yy + h) + m * g) % p⟩

/-- A multiple of a point, from the bits of the factor below `n`, the highest first. -/
def ecMul (k : Nat) (u : EcPoint) : Nat → EcPoint → EcPoint
  | 0, r => r
  | n + 1, r =>
    let d := ecAdd r r
    ecMul k u n (if k.testBit n then ecAdd d u else d)

/-- A power modulo m, from the bits of the exponent below `n`, the highest first. -/
def powMod (m b e : Nat) : Nat → Nat → Nat
  | 0, r => r
  | n + 1, r =>
    let q := r * r % m
    powMod m b e n (if e.testBit n then q * b % m else q)

/-- The inverse modulo a prime below 2^521. -/
def invMod (m a : Nat) : Nat := powMod m a (m - 2) 521 1

/-- Is (x, y) a point of the curve? -/
def onCurve (x y : Nat) : Bool :=
  decide (x < p521) && decide (y < p521) && decide (y * y % p521 = (x * x * x + (p521 - 3) * x + p521B) % p521)

/-- Does a signature of a hash verify under a public key (R454)? The signature is r, then s, 66 B each, the most significant
byte first (DESIGN CHOICE, log entry 119). -/
def ecdsaVerify (key : Nat × Nat) (hash sig : List Byte) : Bool :=
  let r := beNat (sig.take 66)
  let s := beNat ((sig.drop 66).take 66)
  let w := invMod p521N s
  let o : EcPoint := ⟨0, 1, 0⟩
  let v := ecAdd (ecMul (beNat hash * w % p521N) p521G 521 o) (ecMul (r * w % p521N) ⟨key.1, key.2, 1⟩ 521 o)
  onCurve key.1 key.2 && decide (0 < r) && decide (r < p521N) && decide (0 < s) && decide (s < p521N) &&
  decide (v.z ≠ 0) && decide (v.x * invMod p521 v.z % p521 % p521N = r)

/-! ### AES-256 -/

/-- The substitution box, one byte an entry, entry 0 the least significant. -/
def sboxTable : Nat :=
  0x16bb54b00f2d99416842e6bf0d89a18cdf2855cee9871e9b948ed9691198f8e19e1dc186b95735610ef6034866b53e708a8bbd4b1f74dde8c6b4a61c2e2578ba08ae7a65eaf4566ca94ed58d6d37c8e779e4959162acd3c25c2406490a3a32e0db0b5ede14b8ee4688902a22dc4f816073195d643d7ea7c41744975fec130ccdd2f3ff1021dab6bcf5389d928f40a351a89f3c507f02f94585334d43fbaaefd0cf584c4a39becb6a5bb1fc20ed00d153842fe329b3d63b52a05a6e1b1a2c830975b227ebe28012079a059618c323c7041531d871f1e5a534ccf73f362693fdb7c072a49cafa2d4adf04759fa7dc982ca76abd7fe2b670130c56f6bf27b777c63

/-- The substitution of a byte. -/
def subByte (x : Byte) : Byte := BitVec.ofNat 8 (sboxTable >>> (8 * x.toNat))

/-- A byte times x in the field of AES. -/
def xtime (x : Byte) : Byte := (x <<< 1) ^^^ (if x.getLsbD 7 then 0x1B else 0)

/-- The next word of the key schedule, number `i`, from the words before it, the newest first. -/
def aesNext (i : Nat) (ws : List (List Byte)) : List Byte :=
  let t := ws.headD []
  let t := if i % 8 = 0 then xorBytes ((t.drop 1 ++ t.take 1).map subByte) [BitVec.ofNat 8 (2 ^ (i / 8 - 1)), 0, 0, 0]
    else if i % 8 = 4 then t.map subByte else t
  xorBytes (ws.getD 7 []) t

/-- The 15 round keys of a key of 32 bytes. -/
def aesKeys (key : List Byte) : List (List Byte) :=
  byteBlocks 16 (((List.range 52).foldl (fun ws i => aesNext (i + 8) ws :: ws) (byteBlocks 4 key).reverse).reverse.flatten)

/-- The rows of a state, byte r + 4c in row r and column c, are shifted. -/
def shiftRows (b : List Byte) : List Byte := (List.range 16).map fun i => b.getD ((i + 4 * (i % 4)) % 16) 0

/-- The columns of a state are mixed. -/
def mixColumns (b : List Byte) : List Byte :=
  (List.range 16).map fun i =>
    let a := fun j => b.getD (i / 4 * 4 + (i + j) % 4) 0
    xtime (a 0) ^^^ (xtime (a 1) ^^^ a 1) ^^^ a 2 ^^^ a 3

/-- One block enciphered under the round keys. -/
def aesBlock (keys : List (List Byte)) (b : List Byte) : List Byte :=
  let b := ((keys.drop 1).take 13).foldl (fun b k => xorBytes (mixColumns (shiftRows (b.map subByte))) k)
    (xorBytes b (keys.getD 0 []))
  xorBytes (shiftRows (b.map subByte)) (keys.getD 14 [])

/-! ### GCM -/

/-- A product in the field of GHASH, blocks as numbers whose highest bit is the coefficient of 1, from the lowest `n` bits of
x, the highest of them first: `v` is the multiple of y reached, `z` the sum. -/
def gfMul (x : Nat) : Nat → Nat → Nat → Nat
  | 0, _, z => z
  | n + 1, v, z => gfMul x n (v / 2 ^^^ (if v % 2 = 1 then 0xE1 * 2 ^ 120 else 0)) (if x.testBit n then z ^^^ v else z)

/-- GHASH of blocks. -/
def ghash (h : Nat) (blocks : List (List Byte)) : Nat :=
  blocks.foldl (fun y b => gfMul (y ^^^ beNat (b ++ List.replicate (16 - b.length) 0)) 128 h 0) 0

/-- AES-256-GCM with a nonce of 12 bytes: key, nonce, associated data, ciphertext, tag; the plaintext when the tag verifies
(R266). -/
def gcmOpen (key nonce aad ct tag : List Byte) : Option (List Byte) :=
  let keys := aesKeys key
  let ctr := fun n => aesBlock keys (nonce ++ beBytes 4 n)
  let h := beNat (aesBlock keys (List.replicate 16 0))
  let lens := beBytes 8 (8 * aad.length) ++ beBytes 8 (8 * ct.length)
  let blocks := byteBlocks 16 ct
  let y := ghash h (byteBlocks 16 aad ++ blocks ++ [lens])
  if xorBytes (beBytes 16 y) (ctr 1) = tag then
    some ((List.zip (List.range blocks.length) blocks).flatMap fun p => xorBytes p.2 (ctr (p.1 + 2)))
  else none

end Sys2Proof.Machine
end

