-- ==== Sys2Proof/Syntax.lean ====
section
/-! DEFINITION. Syntax: the operand types and the one inductive `Instr`, a constructor for every row of the opcode
table. Register numbers, formats, rounding modes and scopes are resolved here; the machine never sees raw fields. -/

namespace Sys2Proof

/-- Scalar register number s0–s31 (R57). -/
abbrev SReg := Fin 32
/-- Vector register number v0–v31. -/
abbrev VReg := Fin 32
/-- Address register number a0–a15. -/
abbrev AReg := Fin 16
/-- Predicate register number q0–q7. -/
abbrev QReg := Fin 8
/-- Scale register number e0–e7. -/
abbrev EReg := Fin 8
/-- Accumulator tile acc0–acc15. -/
abbrev TileNo := Fin 16
/-- Lake slot 0–15. -/
abbrev LakeNo := Fin 16
/-- Sequencer level 0–5 (R124). -/
abbrev Level := Fin 6
/-- Copy channel 0–3 (R251). -/
abbrev Chan := Fin 4
/-- Link port: 0–30 local, 31 self-loopback, 32–47 global (R64). -/
abbrev Port := Fin 48

/-- Integer operand type of an sx operation (R61). -/
inductive IntTy where
  | i64 | n64 | i32 | n32 | i16 | n16 | i8 | n8
deriving DecidableEq, Repr

/-- The F code of an integer type (R61). -/
def IntTy.code : IntTy → Nat
  | .i64 => 0 | .n64 => 1 | .i32 => 2 | .n32 => 3 | .i16 => 4 | .n16 => 5 | .i8 => 6 | .n8 => 7
/-- The integer type of an F code (R61). -/
def IntTy.ofCode : Nat → IntTy
  | 0 => .i64 | 1 => .n64 | 2 => .i32 | 3 => .n32 | 4 => .i16 | 5 => .n16 | 6 => .i8 | _ => .n8

/-- Rounding mode (R26). -/
inductive Rnd where
  | rne | rtz | rdn | rup
deriving DecidableEq, Repr

/-- The code of a rounding mode (R26). -/
def Rnd.code : Rnd → Nat
  | .rne => 0 | .rtz => 1 | .rdn => 2 | .rup => 3
/-- The rounding mode of a code (R26). -/
def Rnd.ofCode : Nat → Rnd
  | 0 => .rne | 1 => .rtz | 2 => .rdn | _ => .rup

/-- Vector element format (R60). -/
inductive VFmt where
  | f32 | bf16 | i32 | n32 | i16 | i8 | t8 | t6
deriving DecidableEq, Repr

/-- The code of a vector format (R60). -/
def VFmt.code : VFmt → Nat
  | .f32 => 0 | .bf16 => 1 | .i32 => 2 | .n32 => 3 | .i16 => 4 | .i8 => 5 | .t8 => 6 | .t6 => 7
/-- The vector format of a code (R60). -/
def VFmt.ofCode : Nat → VFmt
  | 0 => .f32 | 1 => .bf16 | 2 => .i32 | 3 => .n32 | 4 => .i16 | 5 => .i8 | 6 => .t8 | _ => .t6

/-- Access size of an ad operation (R63). -/
inductive ASize where
  | b8 | b16 | b32 | b64
deriving DecidableEq, Repr

/-- The F code of an access size (R63). -/
def ASize.code : ASize → Nat
  | .b8 => 0 | .b16 => 1 | .b32 => 2 | .b64 => 3
/-- The access size of a code (R63). -/
def ASize.ofCode : Nat → ASize
  | 0 => .b8 | 1 => .b16 | 2 => .b32 | _ => .b64
/-- Bytes of an access. -/
def ASize.bytes : ASize → Nat
  | .b8 => 1 | .b16 => 2 | .b32 => 4 | .b64 => 8

/-- Ordering of an atomic (R63). -/
inductive AOrd where
  | rlx | acq | rel | acqrel
deriving DecidableEq, Repr

/-- The code of an ordering (R63). -/
def AOrd.code : AOrd → Nat
  | .rlx => 0 | .acq => 1 | .rel => 2 | .acqrel => 3
/-- The ordering of a code (R63). -/
def AOrd.ofCode : Nat → AOrd
  | 0 => .rlx | 1 => .acq | 2 => .rel | _ => .acqrel

/-- Matrix operand format (R62). -/
inductive MFmt where
  | t8 | t6 | bf16
deriving DecidableEq, Repr

/-- The code of a matrix format (R62). -/
def MFmt.code : MFmt → Nat
  | .t8 => 0 | .t6 => 1 | .bf16 => 2
/-- The matrix format of a code (R62). -/
def MFmt.ofCode : Nat → MFmt
  | 0 => .t8 | 1 => .t6 | _ => .bf16

/-- Layout of a tile store (R218). -/
inductive StFmt where
  | f32 | bf16 | t8 | t6 | t8planar | t6planar | bf16planar
deriving DecidableEq, Repr

/-- The F code of a store layout (R218). -/
def StFmt.code : StFmt → Nat
  | .f32 => 0 | .bf16 => 1 | .t8 => 2 | .t6 => 3 | .t8planar => 4 | .t6planar => 5 | .bf16planar => 6
/-- The store layout of a code (R218). -/
def StFmt.ofCode : Nat → StFmt
  | 0 => .f32 | 1 => .bf16 | 2 => .t8 | 3 => .t6 | 4 => .t8planar | 5 => .t6planar | _ => .bf16planar

/-- Ordering of a fence (R65). -/
inductive FOrd where
  | acq | rel | acqrel
deriving DecidableEq, Repr

/-- The ORD code of a fence (R65). -/
def FOrd.code : FOrd → Nat
  | .acq => 1 | .rel => 2 | .acqrel => 3
/-- The fence ordering of a code (R65). -/
def FOrd.ofCode : Nat → FOrd
  | 1 => .acq | 2 => .rel | _ => .acqrel

/-- Scope of an ordering operation (R65). -/
inductive Scope where
  | core | gang | cluster | device | domain
deriving DecidableEq, Repr

/-- The SCOPE code (R65). -/
def Scope.code : Scope → Nat
  | .core => 0 | .gang => 1 | .cluster => 2 | .device => 3 | .domain => 4
/-- The scope of a code (R65). -/
def Scope.ofCode : Nat → Scope
  | 0 => .core | 1 => .gang | 2 => .cluster | 3 => .device | _ => .domain

/-- Operation of fx.at (R397). -/
inductive FxOp where
  | add | and | or | xor | max | nmax | xchg | cas
deriving DecidableEq, Repr

/-- The F code of a remote atomic (R397). -/
def FxOp.code : FxOp → Nat
  | .add => 0 | .and => 1 | .or => 2 | .xor => 3 | .max => 4 | .nmax => 5 | .xchg => 6 | .cas => 7
/-- The remote atomic of a code (R397). -/
def FxOp.ofCode : Nat → FxOp
  | 0 => .add | 1 => .and | 2 => .or | 3 => .xor | 4 => .max | 5 => .nmax | 6 => .xchg | _ => .cas

/-! ### Operands of the steps that are no slots -/

/-- An error the arrays or register files show in a wall cycle (R136, R200, R206): none; a scratchpad word, corrected or
not, at a local address; a register whose parity fails, with the trap value that names it; an accumulator frame,
corrected or not. -/
inductive IssueErr where
  | ok
  | spadFixed (a : BitVec 23)
  | spadLost (a : BitVec 23)
  | parity (task : Word) (m : Fin 8) (reg : Word)
  | accFixed (co : Fin 8) (frame : Fin 16)
  | accLost (co : Fin 8) (frame : Fin 16)
  /-- a sector of device memory comes to hold an uncorrectable error (R278) -/
  | memLost (pa : BitVec 39)
deriving DecidableEq, Repr

/-- What an array operation meets as it completes (R206, R209, R239). -/
inductive ArrayOut where
  | ok | parity | accLost
deriving DecidableEq, Repr

/-- What an access of an engine meets: no error, an uncorrectable error of device memory, or one of the scratchpad
(R200, R265, R278). -/
inductive MemOut where
  | ok | device | spad
deriving DecidableEq, Repr

/-- A kind of block (R313): scalar, vector, accumulator tile, scratchpad. -/
inductive BlockKind where
  | scalar | vector | tile | spad
deriving DecidableEq, Repr

/-- KIND of a block (R313). -/
def BlockKind.code : BlockKind → Nat
  | .scalar => 2 | .vector => 3 | .tile => 4 | .spad => 5

/-- Where a pull's data come from (R327, R328): this device, another device (bytes, and a tile's status), an
uncorrectable error, or no answer within the peer timeout. -/
inductive PullOut where
  | here
  | remote (bs : List Byte) (kts : Word)
  | memError
  | peerLost
deriving DecidableEq, Repr

/-- What another device answers for a member of an image it holds (R326): the control record, the held-write group and
the scalar block, whose queue counts belong to it. -/
structure FarMember where
  control : List Byte
  held : List Byte
  scalar : List Byte
deriving DecidableEq, Repr

/-- Where a step of a plan takes its bytes (R426): this device, another device, a refusal, an uncorrectable error, or no
answer. -/
inductive StepOut where
  | here
  | remote (bs : List Byte)
  | refused
  | memError
  | peerLost
deriving DecidableEq, Repr

/-- Who starts a plan (R423, R435): a member by rs.go, or a queue by a packet. -/
inductive PlanWho where
  | ctx (task : Word) (m : Fin 8)
  | queue (q : Fin 4096)
deriving DecidableEq, Repr

/-- Kind of a request packet (R390): what fx slots send (R397), aborts (R411), a read of `n` bytes of far space by another
device's Madder or pull (R426, R327), a pull of a block from the device that holds it (R327), and what a device that resumes
an image asks of its ORIGIN or tells it: for its boot count (R326), or that the image has been resumed (R237). -/
inductive ReqKind where
  | store | load | atomic (op : FxOp) | msg | mark | abort
  | read (n : BitVec 14)
  | pull (kind : BlockKind) (m : Fin 8) (i : Fin 2048)
  | origin (resumed : Bool)
deriving DecidableEq, Repr

/-- A request packet as its target sees it (R393 to R411): the port it comes in on, the sending device and its number, the
sender's tenant and place, the kind, the address, header or tag (of a pull, the image's task), the data words, the words a
load asks for, and the id of a message's group. -/
structure ReqPacket where
  port : Port
  dev : BitVec 15
  sn : BitVec 48
  tenant : BitVec 12
  cl : Fin 40
  co : Fin 8
  sl : Fin 4
  kind : ReqKind
  addr : Word
  words : List Word
  nrep : Fin 33
  group : Word
  /-- number of the sender's last earlier packet of the same order that it knows nothing of yet (R409) -/
  after : Option (BitVec 48) := none
deriving DecidableEq, Repr

/-- A reply or acknowledgement (R390, R401): the port it comes in on, the device that answers, the number of the request,
whether that was performed, and the reply words. -/
structure RspPacket where
  port : Port
  dev : BitVec 15
  sn : BitVec 48
  ok : Bool
  words : List Word
deriving DecidableEq, Repr

/-- A packet of another device on its way to a third (R393), of either class of R390. -/
inductive Transit where
  | req (r : ReqPacket)
  | rsp (r : RspPacket)
deriving DecidableEq, Repr

/-- An entry of a PROVISION message (R456); a listed certificate names a management peer (R455). -/
inductive ProvEntry where
  | client (id : BitVec 32) (tenant : BitVec 12) (desc : Word) (sup : Bool)
  | tenant (t : BitVec 12) (desc : Word)
  | device (id : BitVec 15)
  | peer (cert : List Byte)
deriving DecidableEq, Repr

/-- A register that fails self test (R446). -/
structure RegFail where
  cl : Fin 40
  co : Fin 8
  slot : Fin 4
  file : Fin 8
  num : Fin 32
deriving DecidableEq, Repr

/-- A spare row that fails self test (R445). -/
structure SpareFail where
  cl : Fin 40
  quad : Fin 16
  spare : Fin 8
deriving DecidableEq, Repr

/-- What stage 1 finds (R438): registers and spare rows that fail self test, and whether the selected Sienna image
comes up. -/
structure Bist where
  regs : List RegFail
  spares : List SpareFail
  up : Bool
deriving DecidableEq, Repr

/-- Every step the opcode table lists: 182 slot operations (R44 to R67) and 134 steps of engines, of
the command processor, of the fabric, of Ochre and of the outside. -/
inductive Instr where
  /-- `sx.nop` (R48) -/
  | sxNop
  /-- `sx.add.T sD, sA, sB` (R145) -/
  | sxAdd (d : SReg) (a : SReg) (b : SReg) (ty : IntTy) (q : QReg)
  /-- `sx.sub.T sD, sA, sB` (R145) -/
  | sxSub (d : SReg) (a : SReg) (b : SReg) (ty : IntTy) (q : QReg)
  /-- `sx.mul.T sD, sA, sB` (R145) -/
  | sxMul (d : SReg) (a : SReg) (b : SReg) (ty : IntTy) (q : QReg)
  /-- `sx.mulh.T sD, sA, sB` (R145) -/
  | sxMulh (d : SReg) (a : SReg) (b : SReg) (ty : IntTy) (q : QReg)
  /-- `sx.div.T sD, sA, sB` (R145) -/
  | sxDiv (d : SReg) (a : SReg) (b : SReg) (ty : IntTy) (q : QReg)
  /-- `sx.rem.T sD, sA, sB` (R145) -/
  | sxRem (d : SReg) (a : SReg) (b : SReg) (ty : IntTy) (q : QReg)
  /-- `sx.min.T sD, sA, sB` (R145) -/
  | sxMin (d : SReg) (a : SReg) (b : SReg) (ty : IntTy) (q : QReg)
  /-- `sx.max.T sD, sA, sB` (R145) -/
  | sxMax (d : SReg) (a : SReg) (b : SReg) (ty : IntTy) (q : QReg)
  /-- `sx.and.T sD, sA, sB` (R145) -/
  | sxAnd (d : SReg) (a : SReg) (b : SReg) (ty : IntTy) (q : QReg)
  /-- `sx.or.T sD, sA, sB` (R145) -/
  | sxOr (d : SReg) (a : SReg) (b : SReg) (ty : IntTy) (q : QReg)
  /-- `sx.xor.T sD, sA, sB` (R145) -/
  | sxXor (d : SReg) (a : SReg) (b : SReg) (ty : IntTy) (q : QReg)
  /-- `sx.shl.T sD, sA, sB` (R145, R146) -/
  | sxShl (d : SReg) (a : SReg) (b : SReg) (ty : IntTy) (q : QReg)
  /-- `sx.shr.T sD, sA, sB` (R145, R146) -/
  | sxShr (d : SReg) (a : SReg) (b : SReg) (ty : IntTy) (q : QReg)
  /-- `sx.sra.T sD, sA, sB` (R145, R146) -/
  | sxSra (d : SReg) (a : SReg) (b : SReg) (ty : IntTy) (q : QReg)
  /-- `sx.clz.T sD, sA` (R145) -/
  | sxClz (d : SReg) (a : SReg) (ty : IntTy) (q : QReg)
  /-- `sx.ctz.T sD, sA` (R145) -/
  | sxCtz (d : SReg) (a : SReg) (ty : IntTy) (q : QReg)
  /-- `sx.cnt.T sD, sA` (R145) -/
  | sxCnt (d : SReg) (a : SReg) (ty : IntTy) (q : QReg)
  /-- `sx.ext.T sD, sA, sB` (R146) -/
  | sxExt (d : SReg) (a : SReg) (b : SReg) (ty : IntTy) (q : QReg)
  /-- `sx.mov.T sD, sA` (R145) -/
  | sxMov (d : SReg) (a : SReg) (ty : IntTy) (q : QReg)
  /-- `sx.ceq.T sD, sA, sB` (R145) -/
  | sxCeq (d : SReg) (a : SReg) (b : SReg) (ty : IntTy) (q : QReg)
  /-- `sx.clt.T sD, sA, sB` (R145) -/
  | sxClt (d : SReg) (a : SReg) (b : SReg) (ty : IntTy) (q : QReg)
  /-- `sx.cle.T sD, sA, sB` (R145) -/
  | sxCle (d : SReg) (a : SReg) (b : SReg) (ty : IntTy) (q : QReg)
  /-- `sx.sel.T sD, sA, sB, qQ`: q is the selector (R147) -/
  | sxSel (d : SReg) (a : SReg) (b : SReg) (ty : IntTy) (q : QReg)
  /-- `sx.qset.T qD, sA` (R148) -/
  | sxQset (d : QReg) (a : SReg) (ty : IntTy) (q : QReg)
  /-- `sx.fadd.M sD, sA, sB` (R151) -/
  | sxFadd (d : SReg) (a : SReg) (b : SReg) (r : Rnd) (q : QReg)
  /-- `sx.fmul.M sD, sA, sB` (R151) -/
  | sxFmul (d : SReg) (a : SReg) (b : SReg) (r : Rnd) (q : QReg)
  /-- `sx.fma.M sD, sA, sB` (R151) -/
  | sxFma (d : SReg) (a : SReg) (b : SReg) (r : Rnd) (q : QReg)
  /-- `sx.fceq.M sD, sA, sB` (R151) -/
  | sxFceq (d : SReg) (a : SReg) (b : SReg) (r : Rnd) (q : QReg)
  /-- `sx.fclt.M sD, sA, sB` (R151) -/
  | sxFclt (d : SReg) (a : SReg) (b : SReg) (r : Rnd) (q : QReg)
  /-- `sx.fcvi.M sD, sA` (R151) -/
  | sxFcvi (d : SReg) (a : SReg) (r : Rnd) (q : QReg)
  /-- `sx.fcif.M sD, sA` (R151) -/
  | sxFcif (d : SReg) (a : SReg) (r : Rnd) (q : QReg)
  /-- `si.li sD, k` (R150) -/
  | siLi (d : SReg) (k : BitVec 16)
  /-- `si.ih1 sD, k` (R150) -/
  | siIh1 (d : SReg) (k : BitVec 16)
  /-- `si.ih2 sD, k` (R150) -/
  | siIh2 (d : SReg) (k : BitVec 16)
  /-- `si.ih3 sD, k` (R150) -/
  | siIh3 (d : SReg) (k : BitVec 16)
  /-- `si.addi sD, k` (R150) -/
  | siAddi (d : SReg) (k : BitVec 16)
  /-- `si.ori sD, k` (R150) -/
  | siOri (d : SReg) (k : BitVec 16)
  /-- `si.ceqi sD, k` (R150) -/
  | siCeqi (d : SReg) (k : BitVec 16)
  /-- `si.clti sD, k` (R150) -/
  | siClti (d : SReg) (k : BitVec 16)
  /-- `br.j target` (R120) -/
  | brJ (k : BitVec 16)
  /-- `br.call sD, target` (R120) -/
  | brCall (d : SReg) (k : BitVec 16)
  /-- `br.bz sD, target` (R120) -/
  | brBz (d : SReg) (k : BitVec 16)
  /-- `br.bnz sD, target` (R120) -/
  | brBnz (d : SReg) (k : BitVec 16)
  /-- `br.blt sD, target` (R120) -/
  | brBlt (d : SReg) (k : BitVec 16)
  /-- `br.bge sD, target` (R120) -/
  | brBge (d : SReg) (k : BitVec 16)
  /-- `br.bq qD, target` (R121) -/
  | brBq (d : QReg) (k : BitVec 16)
  /-- `br.bnq qD, target` (R121) -/
  | brBnq (d : QReg) (k : BitVec 16)
  /-- `br.jr sA` (R122) -/
  | brJr (a : SReg)
  /-- `br.ret sA` (R122) -/
  | brRet (a : SReg)
  /-- `br.lvl sA, sB, f=L` (R125) -/
  | brLvl (a : SReg) (b : SReg) (l : Level)
  /-- `br.loop L, n` (R126) -/
  | brLoop (l : Level) (n : Fin 257)
  /-- `br.lend L, sA` (R128) -/
  | brLend (l : Level) (a : SReg)
  /-- `br.bud sD` (R123) -/
  | brBud (d : SReg)
  /-- `ad.ld.Z sD, aA, sB` (R189) -/
  | adLd (d : SReg) (p : Bool) (a : AReg) (b : SReg) (z : ASize) (q : QReg)
  /-- `ad.st.Z sD, aA, sB` (R189) -/
  | adSt (d : SReg) (p : Bool) (a : AReg) (b : SReg) (z : ASize) (q : QReg)
  /-- `ad.vld vD, aA, sB` (R189) -/
  | adVld (d : VReg) (p : Bool) (a : AReg) (b : SReg) (q : QReg)
  /-- `ad.vst vD, aA, sB` (R189) -/
  | adVst (d : VReg) (p : Bool) (a : AReg) (b : SReg) (q : QReg)
  /-- `ad.fld.Z sD, aA, sB` (R275) -/
  | adFld (d : SReg) (p : Bool) (a : AReg) (b : SReg) (z : ASize) (q : QReg)
  /-- `ad.fst.Z sD, aA, sB` (R275) -/
  | adFst (d : SReg) (p : Bool) (a : AReg) (b : SReg) (z : ASize) (q : QReg)
  /-- `ad.tch aA, sB` (R274) -/
  | adTch (p : Bool) (a : AReg) (b : SReg) (q : QReg)
  /-- `ad.add aD, aA, sB` (R191) -/
  | adAdd (d : AReg) (a : AReg) (b : SReg) (q : QReg)
  /-- `ad.mov aD, sB` (R191) -/
  | adMov (d : AReg) (b : SReg) (q : QReg)
  /-- `ad.get sD, aA` (R191) -/
  | adGet (d : SReg) (a : AReg) (q : QReg)
  /-- `ad.aadd.ORD.W sD, aA, sB` (R192) -/
  | adAadd (d : SReg) (a : AReg) (b : SReg) (o : AOrd) (w : Bool) (q : QReg)
  /-- `ad.aand.ORD.W sD, aA, sB` (R192) -/
  | adAand (d : SReg) (a : AReg) (b : SReg) (o : AOrd) (w : Bool) (q : QReg)
  /-- `ad.aor.ORD.W sD, aA, sB` (R192) -/
  | adAor (d : SReg) (a : AReg) (b : SReg) (o : AOrd) (w : Bool) (q : QReg)
  /-- `ad.axor.ORD.W sD, aA, sB` (R192) -/
  | adAxor (d : SReg) (a : AReg) (b : SReg) (o : AOrd) (w : Bool) (q : QReg)
  /-- `ad.amin.ORD.W sD, aA, sB` (R192) -/
  | adAmin (d : SReg) (a : AReg) (b : SReg) (o : AOrd) (w : Bool) (q : QReg)
  /-- `ad.amax.ORD.W sD, aA, sB` (R192) -/
  | adAmax (d : SReg) (a : AReg) (b : SReg) (o : AOrd) (w : Bool) (q : QReg)
  /-- `ad.nmin.ORD.W sD, aA, sB` (R192) -/
  | adNmin (d : SReg) (a : AReg) (b : SReg) (o : AOrd) (w : Bool) (q : QReg)
  /-- `ad.nmax.ORD.W sD, aA, sB` (R192) -/
  | adNmax (d : SReg) (a : AReg) (b : SReg) (o : AOrd) (w : Bool) (q : QReg)
  /-- `ad.xchg.ORD.W sD, aA, sB` (R192) -/
  | adXchg (d : SReg) (a : AReg) (b : SReg) (o : AOrd) (w : Bool) (q : QReg)
  /-- `ad.cas.ORD.W sD, aA, sB` (R192) -/
  | adCas (d : SReg) (a : AReg) (b : SReg) (o : AOrd) (w : Bool) (q : QReg)
  /-- `ad.fadd.ORD.w32 sD, aA, sB` (R192) -/
  | adFadd (d : SReg) (a : AReg) (b : SReg) (o : AOrd) (q : QReg)
  /-- `ad.badd.ORD.w32 sD, aA, sB` (R192) -/
  | adBadd (d : SReg) (a : AReg) (b : SReg) (o : AOrd) (q : QReg)
  /-- `vx.add.F.M vD, vA, vB` (R158, R160, R161) -/
  | vxAdd (d : VReg) (a : VReg) (b : VReg) (f : VFmt) (q : QReg) (r : Rnd)
  /-- `vx.sub.F.M vD, vA, vB` (R158, R160, R161) -/
  | vxSub (d : VReg) (a : VReg) (b : VReg) (f : VFmt) (q : QReg) (r : Rnd)
  /-- `vx.mul.F.M vD, vA, vB` (R158, R160, R161) -/
  | vxMul (d : VReg) (a : VReg) (b : VReg) (f : VFmt) (q : QReg) (r : Rnd)
  /-- `vx.fma.F.M vD, vA, vB` (R158, R160, R161) -/
  | vxFma (d : VReg) (a : VReg) (b : VReg) (f : VFmt) (q : QReg) (r : Rnd)
  /-- `vx.min.F vD, vA, vB` (R162) -/
  | vxMin (d : VReg) (a : VReg) (b : VReg) (f : VFmt) (q : QReg)
  /-- `vx.max.F vD, vA, vB` (R162) -/
  | vxMax (d : VReg) (a : VReg) (b : VReg) (f : VFmt) (q : QReg)
  /-- `vx.abs.F vD, vA` (R161, R162) -/
  | vxAbs (d : VReg) (a : VReg) (f : VFmt) (q : QReg)
  /-- `vx.neg.F vD, vA` (R161, R162) -/
  | vxNeg (d : VReg) (a : VReg) (f : VFmt) (q : QReg)
  /-- `vx.and vD, vA, vB` (R163) -/
  | vxAnd (d : VReg) (a : VReg) (b : VReg) (q : QReg)
  /-- `vx.or vD, vA, vB` (R163) -/
  | vxOr (d : VReg) (a : VReg) (b : VReg) (q : QReg)
  /-- `vx.xor vD, vA, vB` (R163) -/
  | vxXor (d : VReg) (a : VReg) (b : VReg) (q : QReg)
  /-- `vx.not vD, vA` (R163) -/
  | vxNot (d : VReg) (a : VReg) (q : QReg)
  /-- `vx.shl.F vD, vA, vB` (R161) -/
  | vxShl (d : VReg) (a : VReg) (b : VReg) (f : VFmt) (q : QReg)
  /-- `vx.shr.F vD, vA, vB` (R161) -/
  | vxShr (d : VReg) (a : VReg) (b : VReg) (f : VFmt) (q : QReg)
  /-- `vx.sra.F vD, vA, vB` (R161) -/
  | vxSra (d : VReg) (a : VReg) (b : VReg) (f : VFmt) (q : QReg)
  /-- `vx.mulh.F vD, vA, vB` (R161) -/
  | vxMulh (d : VReg) (a : VReg) (b : VReg) (f : VFmt) (q : QReg)
  /-- `vx.adds.F vD, vA, vB` (R161) -/
  | vxAdds (d : VReg) (a : VReg) (b : VReg) (f : VFmt) (q : QReg)
  /-- `vx.subs.F vD, vA, vB` (R161) -/
  | vxSubs (d : VReg) (a : VReg) (b : VReg) (f : VFmt) (q : QReg)
  /-- `vx.mov vD, vA` (R163) -/
  | vxMov (d : VReg) (a : VReg) (q : QReg)
  /-- `vx.sel vD, vA, vB, qQ`: q is the selector (R163) -/
  | vxSel (d : VReg) (a : VReg) (b : VReg) (q : QReg)
  /-- `vx.ceq.F qD, vA, vB` (R166) -/
  | vxCeq (d : QReg) (a : VReg) (b : VReg) (f : VFmt) (q : QReg)
  /-- `vx.cne.F qD, vA, vB` (R166) -/
  | vxCne (d : QReg) (a : VReg) (b : VReg) (f : VFmt) (q : QReg)
  /-- `vx.clt.F qD, vA, vB` (R166) -/
  | vxClt (d : QReg) (a : VReg) (b : VReg) (f : VFmt) (q : QReg)
  /-- `vx.cle.F qD, vA, vB` (R166) -/
  | vxCle (d : QReg) (a : VReg) (b : VReg) (f : VFmt) (q : QReg)
  /-- `vx.qand qD, qA, qB` (R167) -/
  | vxQand (d : QReg) (a : QReg) (b : QReg) (q : QReg)
  /-- `vx.qor qD, qA, qB` (R167) -/
  | vxQor (d : QReg) (a : QReg) (b : QReg) (q : QReg)
  /-- `vx.qxor qD, qA, qB` (R167) -/
  | vxQxor (d : QReg) (a : QReg) (b : QReg) (q : QReg)
  /-- `vx.qnot qD, qA` (R167) -/
  | vxQnot (d : QReg) (a : QReg) (q : QReg)
  /-- `vx.perm vD, vA, vB` (R164) -/
  | vxPerm (d : VReg) (a : VReg) (b : VReg) (q : QReg)
  /-- `vx.lsh vD, vA, sB` (R164) -/
  | vxLsh (d : VReg) (a : VReg) (b : SReg) (q : QReg)
  /-- `vx.lrot vD, vA, sB` (R164) -/
  | vxLrot (d : VReg) (a : VReg) (b : SReg) (q : QReg)
  /-- `vx.bcast.F vD, sA` (R165) -/
  | vxBcast (d : VReg) (a : SReg) (f : VFmt) (q : QReg)
  /-- `vx.ext.F sD, vA, sB` (R165) -/
  | vxExt (d : SReg) (a : VReg) (b : SReg) (f : VFmt) (q : QReg)
  /-- `vx.radd.F sD, vA` (R168) -/
  | vxRadd (d : SReg) (a : VReg) (f : VFmt) (q : QReg)
  /-- `vx.rmax.F sD, vA` (R168) -/
  | vxRmax (d : SReg) (a : VReg) (f : VFmt) (q : QReg)
  /-- `vx.rmin.F sD, vA` (R168) -/
  | vxRmin (d : SReg) (a : VReg) (f : VFmt) (q : QReg)
  /-- `vx.rcp.F vD, vA` (R169) -/
  | vxRcp (d : VReg) (a : VReg) (f : VFmt) (q : QReg)
  /-- `vx.rsq.F vD, vA` (R169) -/
  | vxRsq (d : VReg) (a : VReg) (f : VFmt) (q : QReg)
  /-- `vx.exp2.F vD, vA` (R169) -/
  | vxExp2 (d : VReg) (a : VReg) (f : VFmt) (q : QReg)
  /-- `vx.log2.F vD, vA` (R169) -/
  | vxLog2 (d : VReg) (a : VReg) (f : VFmt) (q : QReg)
  /-- `vy.cvt.S.F.M vD, vA` (R170, R171) -/
  | vyCvt (d : VReg) (a : VReg) (part : Fin 4) (sf : VFmt) (f : VFmt) (q : QReg) (r : Rnd)
  /-- `vy.cvs.S.F vD, vA` (R170, R171) -/
  | vyCvs (d : VReg) (a : VReg) (part : Fin 4) (sf : VFmt) (f : VFmt) (q : QReg)
  /-- `vy.cvo.S.F vD, vA` (R170, R171) -/
  | vyCvo (d : VReg) (a : VReg) (part : Fin 4) (sf : VFmt) (f : VFmt) (q : QReg)
  /-- `vy.ppk.S vD, vA, n`: n3 is bit 3 of the plane number (R175) -/
  | vyPpk (d : VReg) (a : VReg) (n3 : Bool) (sf : VFmt) (n : Fin 8) (q : QReg)
  /-- `vy.pun.S vD, vA, n`: n3 is bit 3 of the plane number (R175) -/
  | vyPun (d : VReg) (a : VReg) (n3 : Bool) (sf : VFmt) (n : Fin 8) (q : QReg)
  /-- `mx.mma.FMT.pN[.z] accT, aA, lake`: SP = 0 (R62, R211) -/
  | mxMma (t : TileNo) (z : Bool) (a : AReg) (lake : LakeNo) (f : MFmt) (pl : Fin 8)
  /-- `mx.mms.FMT.pN[.z] accT, aA, lake`: SP = 1 (R62, R211) -/
  | mxMms (t : TileNo) (z : Bool) (a : AReg) (lake : LakeNo) (f : MFmt) (pl : Fin 8)
  /-- `mx.clr accT` (R216) -/
  | mxClr (t : TileNo) (q : QReg)
  /-- `mx.drn[.clr][.hi] accT, aA, vB` (R216) -/
  | mxDrn (t : TileNo) (clr : Bool) (a : AReg) (hi : Bool) (b : VReg) (q : QReg)
  /-- `mx.fil[.hi] accT, aA, vB` (R216) -/
  | mxFil (t : TileNo) (a : AReg) (hi : Bool) (b : VReg) (q : QReg)
  /-- `mx.st.FMT[.planar][.out] accT, aA` (R217) -/
  | mxSt (t : TileNo) (out : Bool) (a : AReg) (f : StFmt) (q : QReg)
  /-- `mx.ld.FMT accT, aA`: bf chooses bf16 (R216) -/
  | mxLd (t : TileNo) (a : AReg) (bf : Bool) (q : QReg)
  /-- `mx.cmp.FMT[.inc] aA, sB` (R221) -/
  | mxCmp (a : AReg) (inc : Bool) (b : SReg) (f : MFmt) (q : QReg)
  /-- `mx.tsr accT, sB` (R216) -/
  | mxTsr (t : TileNo) (b : SReg) (q : QReg)
  /-- `mx.acp[.add] accT, accB` (R216) -/
  | mxAcp (t : TileNo) (add : Bool) (src : TileNo) (q : QReg)
  /-- `lk.alloc.FMT[.sp] sD, sA, sB` (R241) -/
  | lkAlloc (d : SReg) (a : SReg) (b : SReg) (f : MFmt) (sp : Bool) (q : QReg)
  /-- `lk.load sA` (R242) -/
  | lkLoad (a : SReg) (q : QReg)
  /-- `lk.pin sA` (R242) -/
  | lkPin (a : SReg) (q : QReg)
  /-- `lk.unpin sA` (R242) -/
  | lkUnpin (a : SReg) (q : QReg)
  /-- `lk.revk sA` (R242, R243) -/
  | lkRevk (a : SReg) (q : QReg)
  /-- `lk.qry sD, sA` (R244) -/
  | lkQry (d : SReg) (a : SReg) (q : QReg)
  /-- `lk.quota sA, sB` (R245) -/
  | lkQuota (a : SReg) (b : SReg) (q : QReg)
  /-- `lk.sclr sA` (R242) -/
  | lkSclr (a : SReg) (q : QReg)
  /-- `cp.lvl.chN sD, sA, sB` (R260) -/
  | cpLvl (d : SReg) (a : SReg) (b : SReg) (ch : Chan) (q : QReg)
  /-- `cp.src.chN[.far] sA` (R260) -/
  | cpSrc (a : SReg) (ch : Chan) (far : Bool) (q : QReg)
  /-- `cp.dst.chN[.far] sA` (R260) -/
  | cpDst (a : SReg) (ch : Chan) (far : Bool) (q : QReg)
  /-- `cp.bnd.chN sD, sA, sB` (R260) -/
  | cpBnd (d : SReg) (a : SReg) (b : SReg) (ch : Chan) (q : QReg)
  /-- `cp.go.chN[.dec] sA, sB` (R261) -/
  | cpGo (a : SReg) (b : SReg) (ch : Chan) (dec : Bool) (q : QReg)
  /-- `cp.wmk.chN sD` (R263) -/
  | cpWmk (d : SReg) (ch : Chan) (q : QReg)
  /-- `cp.cncl.chN` (R264) -/
  | cpCncl (ch : Chan) (q : QReg)
  /-- `cp.rpl sA` (R264) -/
  | cpRpl (a : SReg) (q : QReg)
  /-- `cp.bput sA` (R194) -/
  | cpBput (a : SReg) (q : QReg)
  /-- `cp.blat sA` (R194) -/
  | cpBlat (a : SReg) (q : QReg)
  /-- `rs.go sA`, also cp.rsgo (R433) -/
  | rsGo (a : SReg) (q : QReg)
  /-- `rs.stat sD`, also cp.rsst (R433) -/
  | rsStat (d : SReg) (q : QReg)
  /-- `fx.push port, sR` (R398) -/
  | fxPush (port : Port) (b : SReg) (q : QReg)
  /-- `fx.pop port, sR` (R399) -/
  | fxPop (port : Port) (b : SReg) (q : QReg)
  /-- `fx.st.SZ port, aA, vR or sR` (R400) -/
  | fxSt (port : Port) (a : AReg) (b : Fin 32) (w : Fin 7) (q : QReg)
  /-- `fx.ld.SZ port, aA` (R401) -/
  | fxLd (port : Port) (a : AReg) (w : Fin 6) (q : QReg)
  /-- `fx.at.OP port, aA, sR` (R402) -/
  | fxAt (port : Port) (a : AReg) (b : SReg) (op : FxOp) (q : QReg)
  /-- `fx.rep.SZ port, aA, vR` (R403) -/
  | fxRep (port : Port) (a : AReg) (b : VReg) (w : Fin 6) (q : QReg)
  /-- `fx.mark port, sR` (R404) -/
  | fxMark (port : Port) (b : SReg) (q : QReg)
  /-- `fx.drn sR` (R406) -/
  | fxDrn (b : SReg) (q : QReg)
  /-- `fx.msg port, sR` (R398) -/
  | fxMsg (port : Port) (b : SReg) (q : QReg)
  /-- `fx.lst port, sR` (R405) -/
  | fxLst (port : Port) (b : SReg) (q : QReg)
  /-- `sy.fence.ORD.SCOPE` (R295) -/
  | syFence (ord : FOrd) (sc : Scope) (q : QReg)
  /-- `sy.xf PATHS` (R296) -/
  | syXf (paths : BitVec 6) (q : QReg)
  /-- `sy.drn.SCOPE sD, PATHS` (R297) -/
  | syDrn (d : SReg) (paths : BitVec 6) (sc : Scope) (q : QReg)
  /-- `sy.wait.SCOPE sD` (R299) -/
  | syWait (d : SReg) (sc : Scope) (q : QReg)
  /-- `sy.phase sD` (R300) -/
  | syPhase (d : SReg) (q : QReg)
  /-- `sy.lcr sD` (R300) -/
  | syLcr (d : SReg) (q : QReg)
  /-- `tr.trap k` (R340) -/
  | trTrap (k : BitVec 16)
  /-- `tr.rft` (R354) -/
  | trRft (q : QReg)
  /-- `tr.rfu` (R354) -/
  | trRfu (q : QReg)
  /-- `tr.csrr sD, kN` (R350) -/
  | trCsrr (d : SReg) (n : Fin 4096)
  /-- `tr.csrw sD, kN` (R350) -/
  | trCsrw (d : SReg) (n : Fin 4096)
  /-- `tr.yld` (R354) -/
  | trYld (q : QReg)
  /-- `tr.halt` (R354) -/
  | trHalt (q : QReg)
  /-- `tr.kill sA` (R354) -/
  | trKill (a : SReg) (q : QReg)
  /-- `sc.use eA, eB` (R40, R247) -/
  | scUse (a : EReg) (b : EReg) (q : QReg)
  /-- `sc.ld eD, aA, sB` (R247) -/
  | scLd (d : EReg) (a : AReg) (b : SReg) (q : QReg)
  /-- `sc.ldm aA, sB` (R247) -/
  | scLdm (a : AReg) (b : SReg) (q : QReg)
  /-- `px.rep n` (R131) -/
  | pxRep (n : Fin 256)
  /-- `px.first L` (R130) -/
  | pxFirst (l : Level)
  /-- `px.last L` (R130) -/
  | pxLast (l : Level)
  /-- `px.seg n` (R132) -/
  | pxSeg (n : Fin 16)
  /-- ISSUE_CYCLE (R108) -/
  | issueCycle (cl : Fin 40) (err : IssueErr)
  /-- HELLO (R356) -/
  | dcHello (client : BitVec 32) (seq : Word)
  /-- GET (R356) -/
  | dcGet (client : BitVec 32) (seq : Word) (addr : Word) (len : BitVec 32)
  /-- PUT (R359) -/
  | dcPut (client : BitVec 32) (seq : Word) (addr : Word) (bs : List Byte)
  /-- KICK (R362) -/
  | dcKick (client : BitVec 32) (seq : Word) (qn : BitVec 16) (tail : Word)
  /-- QCREATE (R361) -/
  | dcQcreate (client : BitVec 32) (seq : Word) (qn : BitVec 16) (prio : BitVec 8) (sup : BitVec 8) (npkt : BitVec 32) (ring : Word)
  /-- QDESTROY (R363) -/
  | dcQdestroy (client : BitVec 32) (seq : Word) (qn : BitVec 16)
  /-- QRESET (R363) -/
  | dcQreset (client : BitVec 32) (seq : Word) (qn : BitVec 16)
  /-- QSTATUS (R386) -/
  | dcQstatus (client : BitVec 32) (seq : Word) (qn : BitVec 16)
  /-- WINDOW (R360) -/
  | dcWindow (client : BitVec 32) (seq : Word) (addr : Word) (len : Word) (dir : BitVec 8)
  /-- LOAD (R100) -/
  | dcLoad (client : BitVec 32) (seq : Word) (addr : Word) (len : Word)
  /-- UNLOAD (R356) -/
  | dcUnload (client : BitVec 32) (seq : Word) (img : BitVec 32)
  /-- QUIESCE (R384) -/
  | dcQuiesce (client : BitVec 32) (seq : Word) (area : Word) (us : BitVec 32)
  /-- NOP (R367) -/
  | pkNop (q : Fin 4096)
  /-- LAUNCH (R376) -/
  | pkLaunch (q : Fin 4096) (img : BitVec 32) (prio : Fin 4) (svc : Bool) (cluster : BitVec 8) (cmask : BitVec 8) (iseg : Fin 16) (xdesc : Word) (cw : Word) (crec : Word) (phase : Word) (savep : Word)
  /-- CALL (R370) -/
  | pkCall (q : Fin 4096) (base : Word) (len : BitVec 32)
  /-- RET (R370) -/
  | pkRet (q : Fin 4096)
  /-- PRED (R371) -/
  | pkPred (q : Fin 4096) (word : Word) (value : Word) (mask : Word) (cond : Fin 6) (skip : BitVec 16)
  /-- LOOP (R372) -/
  | pkLoop (q : Fin 4096) (count : BitVec 16) (body : BitVec 16)
  /-- FENCE (R366) -/
  | pkFence (q : Fin 4096)
  /-- WRITE (R373) -/
  | pkWrite (q : Fin 4096) (addr : Word) (value : Word) (add : Bool) (rel : Bool)
  /-- WAIT (R374) -/
  | pkWait (q : Fin 4096) (word : Word) (thresh : Word) (notify : Fin 3) (async : Bool) (task : Word) (mem : Word) (tag : BitVec 32)
  /-- SIGNAL (R373) -/
  | pkSignal (q : Fin 4096) (word : Word) (dec : Word)
  /-- STAMP (R373) -/
  | pkStamp (q : Fin 4096) (addr : Word)
  /-- LAKE_REVOKE (R380) -/
  | pkLakeRevoke (q : Fin 4096) (task : Word) (mem : BitVec 8) (l : Fin 16)
  /-- LAKE_QUOTA (R380) -/
  | pkLakeQuota (q : Fin 4096) (tenant : BitVec 12) (limit : BitVec 8)
  /-- RESHARD (R435) -/
  | pkReshard (q : Fin 4096) (plan : Word)
  /-- KILL (R379) -/
  | pkKill (q : Fin 4096) (task : Word)
  /-- PREEMPT (R379) -/
  | pkPreempt (q : Fin 4096) (task : Word) (savep : Word)
  /-- RESUME (R379) -/
  | pkResume (q : Fin 4096) (ibase : Word) (prio : Fin 4) (cluster : BitVec 8) (cmask : BitVec 8) (iseg : Fin 16) (cw : Word) (crec : Word) (phase : Word) (savep : Word)
  /-- CRPL (R380) -/
  | pkCrpl (q : Fin 4096) (cl : Fin 40) (chan : BitVec 7)
  /-- RING (R380) -/
  | pkRing (q : Fin 4096) (base : Word) (nent : BitVec 32)
  /-- STEER_INSTALL (R380) -/
  | pkSteerInstall (q : Fin 4096) (rule : BitVec 8) (ports : Fin 4) (udp : BitVec 16) (task : Word) (base : BitVec 32) (slotLog : BitVec 8) (nslotLog : BitVec 8) (member : BitVec 8) (cluster : BitVec 8)
  /-- STEER_REMOVE (R380) -/
  | pkSteerRemove (q : Fin 4096) (rule : BitVec 8)
  /-- STARVATION_PROMOTION (R111) -/
  | starvationPromotion (task : Word)
  /-- REGISTER_RESULT_LANDS (R9) -/
  | registerResultLands (task : Word) (m : Fin 8)
  /-- QUEUE_LOAD_DATA_ARRIVAL (R139) -/
  | queueLoadDataArrival (task : Word) (m : Fin 8)
  /-- QUEUE_STORE_PAIRING (R141) -/
  | queueStorePairing (task : Word) (m : Fin 8)
  /-- REPEAT_REISSUE (R131) -/
  | repeatReissue (task : Word) (m : Fin 8)
  /-- HELD_WRITE_PERFORMED (R318) -/
  | heldWritePerformed (task : Word) (m : Fin 8)
  /-- ARRAY_OP_COMPLETE (R209) -/
  | arrayOpComplete (cl : Fin 40) (co : Fin 8) (out : ArrayOut)
  /-- LAKE_FILL_START (R228) -/
  | lakeFillStart (task : Word) (m : Fin 8) (l : Fin 16)
  /-- LAKE_FILL_COMPLETE (R227) -/
  | lakeFillComplete (task : Word) (m : Fin 8) (l : Fin 16) (out : MemOut)
  /-- KLSVC_REFILL (R246) -/
  | klsvcRefill (task : Word) (m : Fin 8) (l : Fin 16)
  /-- KLSVC_ACCEPT (R246) -/
  | klsvcAccept (task : Word) (m : Fin 8) (l : Fin 16)
  /-- KLSVC_REVOKE (R246) -/
  | klsvcRevoke (task : Word) (m : Fin 8) (l : Fin 16)
  /-- COPY_TRANSFER_START (R251) -/
  | copyTransferStart (cl : Fin 40) (co : Fin 8) (ch : Fin 4)
  /-- COPY_CHUNK (R256) -/
  | copyChunk (cl : Fin 40) (co : Fin 8) (ch : Fin 4) (out : MemOut)
  /-- PAGE_WALK_COMPLETE (R270) -/
  | pageWalkComplete (task : Word) (m : Fin 8) (e : Fin 8) (out : MemOut)
  /-- FAR_STORE_PERFORMED (R277) -/
  | farStorePerformed (task : Word) (m : Fin 8) (i : Fin 16) (out : MemOut)
  /-- FAR_LOAD_DATA_ARRIVAL (R276) -/
  | farLoadDataArrival (task : Word) (m : Fin 8) (i : Fin 16) (out : MemOut)
  /-- KXINV_WRITE (R279) -/
  | kxinvWrite (task : Word) (m : Fin 8) (v : Word)
  /-- INVALIDATION_COMPLETE (R279) -/
  | invalidationComplete (task : Word) (m : Fin 8)
  /-- INVALIDATION_TIMEOUT (R279) -/
  | invalidationTimeout (task : Word) (m : Fin 8)
  /-- TOUCH_EXPIRY (R273) -/
  | touchExpiry (task : Word) (m : Fin 8) (e : Fin 8)
  /-- DRAIN_COMPLETE (R297) -/
  | drainComplete (task : Word)
  /-- WAIT_REREAD (R299) -/
  | waitReread (task : Word)
  /-- USER_INTERRUPT_TAKEN (R345) -/
  | userInterruptTaken (task : Word) (m : Fin 8)
  /-- KUIP_WRITE (R351) -/
  | kuipWrite (task : Word) (m : Fin 8) (v : Word)
  /-- KBUDGET_WRITE (R123) -/
  | kbudgetWrite (v : Word)
  /-- SUPERVISOR_RECORD_DELIVERY (R342) -/
  | supervisorRecordDelivery
  /-- PREEMPTION (R317) -/
  | preemption (task : Word)
  /-- BLOCK_PULL_COMPLETE (R327) -/
  | blockPullComplete (task : Word) (kind : BlockKind) (m : Fin 8) (i : Fin 2048) (out : PullOut)
  /-- BLOCK_WRITE_OUT (R321) -/
  | blockWriteOut (ibase : Word) (kind : BlockKind) (m : Fin 8) (i : Fin 2048)
  /-- KISVC_RETRY (R325) -/
  | kisvcRetry (ticket : BitVec 32)
  /-- KISVC_ABANDON (R325) -/
  | kisvcAbandon (ticket : BitVec 32)
  /-- SEGMENT_ARRIVAL (R382) -/
  | segmentArrival (task : Word) (m : Fin 8) (seg : Fin 16)
  /-- ENGINE_ACCESS_GUARD (R184) -/
  | engineAccessGuard (cl : Fin 40) (bank : Fin 64) (row : BitVec 11)
  /-- CLUSTER_RETEST (R443) -/
  | clusterRetest (cl : Fin 40)
  /-- HOST_PACKET_ARRIVAL (R198) -/
  | hostPacketArrival (hp : Fin 2) (udp : BitVec 16) (bs : List Byte)
  /-- DECEO_MESSAGE_RECEIVED (R358) -/
  | deceoMessageReceived (bs : List Byte)
  /-- RDMA_WRITE (R360) -/
  | rdmaWrite (rkey : BitVec 32) (addr : Word) (bs : List Byte)
  /-- RDMA_READ (R360) -/
  | rdmaRead (rkey : BitVec 32) (addr : Word) (len : BitVec 32)
  /-- SIENNA_EXECUTIVE_CYCLE (R364) -/
  | siennaExecutiveCycle (i : Fin 8)
  /-- WAIT_SATISFIED (R374) -/
  | waitSatisfied (async : Bool) (i : Fin 4096)
  /-- WAIT_POLL (R374) -/
  | waitPoll (async : Bool) (i : Fin 4096)
  /-- TASK_DISPATCH (R376) -/
  | taskDispatch (far : List FarMember)
  /-- TASK_COMPLETION (R378) -/
  | taskCompletion (task : Word)
  /-- REMOTE_REQUEST_ARRIVAL (R396) -/
  | remoteRequestArrival (r : ReqPacket) (out : MemOut)
  /-- REMOTE_REPLY_ARRIVAL (R401): the port it comes in on, the device that answers, the number of the request, whether that
  was performed, and the reply words -/
  | remoteReplyArrival (port : Port) (dev : BitVec 15) (sn : BitVec 48) (ans : Bool × List Word)
  /-- MESSAGE_BUFFER_RELEASE (R394) -/
  | messageBufferRelease
  /-- MARKER_TIMEOUT (R404) -/
  | markerTimeout (dev : BitVec 15) (sn : BitVec 48)
  /-- RESEND_TIMER (R408) -/
  | resendTimer (dev : BitVec 15) (sn : BitVec 48)
  /-- PEER_TIMEOUT (R408) -/
  | peerTimeout (dev : BitVec 15) (sn : BitVec 48)
  /-- SEQUENCE_MEMORY_EXPIRY (R407) -/
  | sequenceMemoryExpiry (dev : BitVec 15) (sn : BitVec 48)
  /-- CREDIT_RETURN (R390) -/
  | creditReturn (port : Port) (rsp : Bool) (n : BitVec 16)
  /-- ABORT_ARRIVAL (R411) -/
  | abortArrival (r : ReqPacket)
  /-- SIGNAL_LOCK (R389) -/
  | signalLock (port : Port)
  /-- TRAINING_COMPLETE (R391) -/
  | trainingComplete (port : Port) (peer : BitVec 15) (peerPort : Port)
  /-- SIGNAL_LOSS (R389) -/
  | signalLoss (port : Port)
  /-- DARK_TIMEOUT (R389) -/
  | darkTimeout (port : Port)
  /-- LINK_ERROR_FENCE (R392) -/
  | linkErrorFence (port : Port) (ecc : Bool)
  /-- KFLCTL_FENCE (R414) -/
  | kflctlFence (port : Port)
  /-- KFLCTL_UNFENCE (R414) -/
  | kflctlUnfence (port : Port)
  /-- KFLCTL_RETRAIN (R414) -/
  | kflctlRetrain (port : Port)
  /-- PLAN_CLAIM (R423) -/
  | planClaim (who : PlanWho)
  /-- PLAN_STEP (R426) -/
  | planStep (i : Fin 256) (out : StepOut)
  /-- POWER_ON_RESET (R444) -/
  | powerOnReset (bist : Bist)
  /-- RESET_INPUT (R460) -/
  | resetInput (bist : Bist)
  /-- WATCHDOG_RESET (R444) -/
  | watchdogReset (bist : Bist)
  /-- TEST_RUN_JUDGED (R449) -/
  | testRunJudged (cl : Fin 40)
  /-- TEST_RUN_TIMEOUT (R442) -/
  | testRunTimeout (cl : Fin 40)
  /-- IDENTIFY (R451) -/
  | mgIdentify
  /-- SENSORS (R451) -/
  | mgSensors (sid : BitVec 32)
  /-- LOG_READ (R453) -/
  | mgLogRead (sid : BitVec 32) (first : Word)
  /-- FW_WRITE (R454) -/
  | mgFwWrite (sid : BitVec 32) (ochre : Bool) (bs : List Byte) (cut : Bool)
  /-- FW_ACTIVATE (R454) -/
  | mgFwActivate (sid : BitVec 32) (ochre : Bool)
  /-- FW_COMMIT (R454) -/
  | mgFwCommit (sid : BitVec 32) (ochre : Bool)
  /-- FW_REVERT (R454) -/
  | fwRevert (ochre : Bool)
  /-- RESET (R451) -/
  | mgReset (sid : BitVec 32) (bist : Bist)
  /-- POWER_CAP (R452) -/
  | mgPowerCap (sid : BitVec 32) (watts : BitVec 16)
  /-- PROVISION (R456) -/
  | mgProvision (sid : BitVec 32) (es : List ProvEntry)
  /-- PROTECT (R458) -/
  | mgProtect (sid : BitVec 32) (base : Word) (len : Word)
  /-- UNPROTECT (R458) -/
  | mgUnprotect (sid : BitVec 32) (base : Word) (len : Word)
  /-- CLUSTER_STATE (R441) -/
  | mgClusterState (sid : BitVec 32)
  /-- REPAIR_READ (R451) -/
  | mgRepairRead (sid : BitVec 32)
  /-- SET_KEY (R457) -/
  | mgSetKey (sid : BitVec 32) (tenant : BitVec 12) (key : BitVec 32) (bs : List Byte)
  /-- GET_CERTIFICATE (R455) -/
  | spGetCertificate
  /-- CHALLENGE (R455) -/
  | spChallenge (bs : List Byte)
  /-- GET_MEASUREMENTS (R455) -/
  | spGetMeasurements (i : Fin 256)
  /-- KEY_EXCHANGE (R455) -/
  | spKeyExchange (sid : BitVec 32) (bs : List Byte) (period : BitVec 8)
  /-- FINISH (R455) -/
  | spFinish (sid : BitVec 32) (cert : List Byte) (bs : List Byte)
  /-- KEY_UPDATE (R455) -/
  | spKeyUpdate (sid : BitVec 32)
  /-- HEARTBEAT (R455) -/
  | spHeartbeat (sid : BitVec 32)
  /-- END_SESSION (R455) -/
  | spEndSession (sid : BitVec 32)
  /-- SESSION_EXPIRY (R455) -/
  | sessionExpiry (sid : BitVec 32)
  /-- SENSOR_SAMPLE (R452) -/
  | sensorSample (rs : List (BitVec 16)) (bist : Bist)
  /-- PTP_LOCK (R383) -/
  | ptpLock (sec : BitVec 48) (ns : BitVec 32)
  /-- RETRAINING_FAILED (R389) -/
  | retrainingFailed (port : Port)
  /-- QUIESCE_TIMEOUT (R384) -/
  | quiesceTimeout
  /-- MAIN_POWER_LOSS (R444) -/
  | mainPowerLoss
  /-- OCHRE_RESET (R454) -/
  | ochreReset
  /-- PACKET_FORWARDING (R393) -/
  | packetForwarding (x : Transit) (dst : BitVec 15)
  /-- FLIT_CRC_FAILURE (R392) -/
  | flitCrcFailure (port : Port)
deriving DecidableEq, Repr

end Sys2Proof
end

