-- ==== Sys2Proof/WellFormed.lean ====
section
/-! DEFINITION. WellFormed: the operand values an encoding admits beyond its field ranges (R60 to R68, and the
chapters' own limits). -/

namespace Sys2Proof

/-- Is the format an integer one? -/
def VFmt.isInt : VFmt → Bool
  | .i32 | .n32 | .i16 | .i8 => true
  | _ => false

/-- Is the format f32 or bf16? -/
def VFmt.isFp : VFmt → Bool
  | .f32 | .bf16 => true
  | _ => false

/-- Elements per register (R155). -/
def VFmt.count : VFmt → Nat
  | .f32 | .i32 | .n32 => 64
  | .bf16 | .i16 => 128
  | .i8 | .t8 | .t6 => 256

/-- Formats of the element-wise arithmetic (R158): all but t8 and t6. -/
def VFmt.arith (f : VFmt) : Bool := f.isInt || f.isFp

/-- Formats of abs and neg (R158). -/
def VFmt.absNeg (f : VFmt) : Bool := f.arith && f != .n32

/-- Formats of the compares (R158). -/
def VFmt.cmp : VFmt → Bool
  | .f32 | .i32 | .n32 => true
  | _ => false

/-- A rounding mode beside an integer format must be RNE (R60). -/
def VFmt.roundOk (f : VFmt) (r : Rnd) : Bool := f.arith && (f.isFp || r == .rne)

/-- The part number of a conversion (R170). -/
def partOk (part : Fin 4) (s f : VFmt) : Bool := part.val < max s.count f.count / 64

/-- The legal pairs of vy.cvt and their modes (R171). -/
def cvtOk (s f : VFmt) (r : Rnd) : Bool :=
  s != f &&
  ((s.arith && f.arith && (s.isFp || f.isFp || r == .rne)) ||
   ((s == .t8 || s == .t6) && f.isFp && r == .rne) || (s == .t6 && f == .t8 && r == .rne))

/-- The pairs whose destination is tapered (R171). -/
def taperOk (s f : VFmt) : Bool :=
  s != f && (s.isFp || s == .t8) && (f == .t8 || f == .t6)

/-- The legal pairs of vy.cvs (R171). -/
def cvsOk (s f : VFmt) : Bool := taperOk s f || (s.isInt && f.isInt && s != f)

/-- The width of a code in planes, for the formats plane packing takes (R175). -/
def VFmt.planes : VFmt → Nat
  | .t8 => 8
  | .t6 => 6
  | .bf16 => 16
  | _ => 0

/-- The plane number of ppk and pun: bit 3 beside bits 2:0 (R175). -/
def planeNo (n3 : Bool) (n : Fin 8) : Nat := n3.toNat * 8 + n.val

/-- The planes an operation reads, by plane code (R62). -/
def planesRead : Fin 8 → Nat
  | 0 => 16 | 1 => 8 | 2 => 7 | 3 => 6 | 4 => 5 | 5 => 4 | 6 => 3 | 7 => 2

/-- Which plane codes a format takes (R62). -/
def planeOk : MFmt → Fin 8 → Bool
  | .bf16, _ => true
  | .t8, p => 1 ≤ p.val && p.val ≤ 6
  | .t6, p => 3 ≤ p.val && p.val ≤ 6

/-- OUT mode goes only with the tapered layouts (R218). -/
def outOk (f : StFmt) (out : Bool) : Bool :=
  !out || match f with
    | .f32 | .bf16 | .bf16planar => false
    | .t8 | .t6 | .t8planar | .t6planar => true

/-- Number of set bits of a path mask. -/
def pathCount (p : BitVec 6) : Nat :=
  (List.range 6).foldl (fun n i => n + (p.getLsbD i).toNat) 0

/-- The control-register numbers R351 and R414 assign. -/
def csrAssigned (n : Nat) : Bool :=
  n ≤ 0x009 || (0x010 ≤ n && n ≤ 0x015) || (0x018 ≤ n && n ≤ 0x01A) || (0x020 ≤ n && n ≤ 0x034) ||
  (0x040 ≤ n && n ≤ 0x05F) || (0x800 ≤ n && n ≤ 0x847)

/-- The values an encoding admits beyond the ranges of its fields: one arm per operation, `true` where every
field value is legal. Events have no encoding and are well formed. D = 31 of ad.fld, ad.fst and ad.cas is illegal in every
mode, also in a handler (R57; DESIGN CHOICE, log entry 113). -/
def Instr.wf : Instr → Bool
  | .sxNop => true
  | .sxAdd _ _ _ _ _ => true
  | .sxSub _ _ _ _ _ => true
  | .sxMul _ _ _ _ _ => true
  | .sxMulh _ _ _ _ _ => true
  | .sxDiv _ _ _ _ _ => true
  | .sxRem _ _ _ _ _ => true
  | .sxMin _ _ _ _ _ => true
  | .sxMax _ _ _ _ _ => true
  | .sxAnd _ _ _ _ _ => true
  | .sxOr _ _ _ _ _ => true
  | .sxXor _ _ _ _ _ => true
  | .sxShl _ _ _ _ _ => true
  | .sxShr _ _ _ _ _ => true
  | .sxSra _ _ _ _ _ => true
  | .sxClz _ _ _ _ => true
  | .sxCtz _ _ _ _ => true
  | .sxCnt _ _ _ _ => true
  | .sxExt _ _ _ _ _ => true
  | .sxMov _ _ _ _ => true
  | .sxCeq _ _ _ _ _ => true
  | .sxClt _ _ _ _ _ => true
  | .sxCle _ _ _ _ _ => true
  | .sxSel _ _ _ _ _ => true
  | .sxQset _ _ _ _ => true
  | .sxFadd _ _ _ _ _ => true
  | .sxFmul _ _ _ _ _ => true
  | .sxFma _ _ _ _ _ => true
  | .sxFceq _ _ _ _ _ => true
  | .sxFclt _ _ _ _ _ => true
  | .sxFcvi _ _ _ _ => true
  | .sxFcif _ _ _ _ => true
  | .siLi _ _ => true
  | .siIh1 _ _ => true
  | .siIh2 _ _ => true
  | .siIh3 _ _ => true
  | .siAddi _ _ => true
  | .siOri _ _ => true
  | .siCeqi _ _ => true
  | .siClti _ _ => true
  | .brJ _ => true
  | .brCall _ _ => true
  | .brBz _ _ => true
  | .brBnz _ _ => true
  | .brBlt _ _ => true
  | .brBge _ _ => true
  | .brBq _ _ => true
  | .brBnq _ _ => true
  | .brJr _ => true
  | .brRet _ => true
  | .brLvl _ _ _ => true
  | .brLoop _ n => 1 ≤ n.val
  | .brLend _ _ => true
  | .brBud _ => true
  | .adLd _ _ _ _ _ _ => true
  | .adSt _ _ _ _ _ _ => true
  | .adVld _ _ _ _ _ => true
  | .adVst _ _ _ _ _ => true
  | .adFld d _ _ _ _ _ => d.val != 31
  | .adFst d _ _ _ _ _ => d.val != 31
  | .adTch _ _ _ _ => true
  | .adAdd _ _ _ _ => true
  | .adMov _ _ _ => true
  | .adGet _ _ _ => true
  | .adAadd _ _ _ _ _ _ => true
  | .adAand _ _ _ _ _ _ => true
  | .adAor _ _ _ _ _ _ => true
  | .adAxor _ _ _ _ _ _ => true
  | .adAmin _ _ _ _ _ _ => true
  | .adAmax _ _ _ _ _ _ => true
  | .adNmin _ _ _ _ _ _ => true
  | .adNmax _ _ _ _ _ _ => true
  | .adXchg _ _ _ _ _ _ => true
  | .adCas d _ _ _ _ _ => d.val != 31
  | .adFadd _ _ _ _ _ => true
  | .adBadd _ _ _ _ _ => true
  | .vxAdd _ _ _ f _ r => f.roundOk r
  | .vxSub _ _ _ f _ r => f.roundOk r
  | .vxMul _ _ _ f _ r => f.roundOk r
  | .vxFma d _ _ f _ r => f.roundOk r && d.val != 31
  | .vxMin _ _ _ f _ => f.arith
  | .vxMax _ _ _ f _ => f.arith
  | .vxAbs _ _ f _ => f.absNeg
  | .vxNeg _ _ f _ => f.absNeg
  | .vxAnd _ _ _ _ => true
  | .vxOr _ _ _ _ => true
  | .vxXor _ _ _ _ => true
  | .vxNot _ _ _ => true
  | .vxShl _ _ _ f _ => f.isInt
  | .vxShr _ _ _ f _ => f.isInt
  | .vxSra _ _ _ f _ => f.isInt
  | .vxMulh _ _ _ f _ => f.isInt
  | .vxAdds _ _ _ f _ => f.isInt
  | .vxSubs _ _ _ f _ => f.isInt
  | .vxMov _ _ _ => true
  | .vxSel _ _ _ _ => true
  | .vxCeq _ _ _ f _ => f.cmp
  | .vxCne _ _ _ f _ => f.cmp
  | .vxClt _ _ _ f _ => f.cmp
  | .vxCle _ _ _ f _ => f.cmp
  | .vxQand _ _ _ _ => true
  | .vxQor _ _ _ _ => true
  | .vxQxor _ _ _ _ => true
  | .vxQnot _ _ _ => true
  | .vxPerm _ _ _ _ => true
  | .vxLsh _ _ _ _ => true
  | .vxLrot _ _ _ _ => true
  | .vxBcast _ _ f _ => f.arith
  | .vxExt _ _ _ f _ => f.arith
  | .vxRadd _ _ f _ => f.arith
  | .vxRmax _ _ f _ => f.arith
  | .vxRmin _ _ f _ => f.arith
  | .vxRcp _ _ f _ => f.isFp
  | .vxRsq _ _ f _ => f.isFp
  | .vxExp2 _ _ f _ => f.isFp
  | .vxLog2 _ _ f _ => f.isFp
  | .vyCvt d _ part sf f _ r => cvtOk sf f r && partOk part sf f && d.val != 31
  | .vyCvs d _ part sf f _ => cvsOk sf f && partOk part sf f && d.val != 31
  | .vyCvo d _ part sf f _ => taperOk sf f && partOk part sf f && d.val != 31
  | .vyPpk d _ n3 sf n _ => planeNo n3 n < sf.planes && d.val != 31
  | .vyPun d _ n3 sf n _ => planeNo n3 n < sf.planes && d.val != 31
  | .mxMma _ _ _ _ f pl => planeOk f pl
  | .mxMms _ _ _ _ f pl => planeOk f pl
  | .mxClr _ _ => true
  | .mxDrn _ _ _ _ _ _ => true
  | .mxFil _ _ _ _ _ => true
  | .mxSt _ out _ f _ => outOk f out
  | .mxLd _ _ _ _ => true
  | .mxCmp _ _ _ _ _ => true
  | .mxTsr _ _ _ => true
  | .mxAcp _ _ _ _ => true
  | .lkAlloc _ _ _ _ _ _ => true
  | .lkLoad _ _ => true
  | .lkPin _ _ => true
  | .lkUnpin _ _ => true
  | .lkRevk _ _ => true
  | .lkQry _ _ _ => true
  | .lkQuota _ _ _ => true
  | .lkSclr _ _ => true
  | .cpLvl _ _ _ _ _ => true
  | .cpSrc _ _ _ _ => true
  | .cpDst _ _ _ _ => true
  | .cpBnd _ _ _ _ _ => true
  | .cpGo _ _ _ _ _ => true
  | .cpWmk _ _ _ => true
  | .cpCncl _ _ => true
  | .cpRpl _ _ => true
  | .cpBput _ _ => true
  | .cpBlat _ _ => true
  | .rsGo _ _ => true
  | .rsStat _ _ => true
  | .fxPush _ _ _ => true
  | .fxPop _ _ _ => true
  | .fxSt _ _ _ _ _ => true
  | .fxLd _ _ _ _ => true
  | .fxAt _ _ b op _ => op != .cas || (b.val % 2 == 0 && b.val ≤ 28)
  | .fxRep _ _ _ _ _ => true
  | .fxMark _ _ _ => true
  | .fxDrn _ _ => true
  | .fxMsg _ _ _ => true
  | .fxLst _ _ _ => true
  | .syFence _ _ _ => true
  | .syXf paths _ => pathCount paths == 2
  | .syDrn _ paths _ _ => paths != 0
  | .syWait _ _ _ => true
  | .syPhase _ _ => true
  | .syLcr _ _ => true
  | .trTrap _ => true
  | .trRft _ => true
  | .trRfu _ => true
  | .trCsrr _ n => csrAssigned n.val
  | .trCsrw _ n => csrAssigned n.val
  | .trYld _ => true
  | .trHalt _ => true
  | .trKill _ _ => true
  | .scUse _ _ _ => true
  | .scLd _ _ _ _ => true
  | .scLdm _ _ _ => true
  | .pxRep n => 1 ≤ n.val
  | .pxFirst _ => true
  | .pxLast _ => true
  | .pxSeg _ => true
  | .issueCycle _ _ => true
  | .dcHello _ _ => true
  | .dcGet _ _ _ _ => true
  | .dcPut _ _ _ _ => true
  | .dcKick _ _ _ _ => true
  | .dcQcreate _ _ _ _ _ _ _ => true
  | .dcQdestroy _ _ _ => true
  | .dcQreset _ _ _ => true
  | .dcQstatus _ _ _ => true
  | .dcWindow _ _ _ _ _ => true
  | .dcLoad _ _ _ _ => true
  | .dcUnload _ _ _ => true
  | .dcQuiesce _ _ _ _ => true
  | .pkNop _ => true
  | .pkLaunch _ _ _ _ _ _ _ _ _ _ _ _ => true
  | .pkCall _ _ _ => true
  | .pkRet _ => true
  | .pkPred _ _ _ _ _ _ => true
  | .pkLoop _ _ _ => true
  | .pkFence _ => true
  | .pkWrite _ _ _ _ _ => true
  | .pkWait _ _ _ _ _ _ _ _ => true
  | .pkSignal _ _ _ => true
  | .pkStamp _ _ => true
  | .pkLakeRevoke _ _ _ _ => true
  | .pkLakeQuota _ _ _ => true
  | .pkReshard _ _ => true
  | .pkKill _ _ => true
  | .pkPreempt _ _ _ => true
  | .pkResume _ _ _ _ _ _ _ _ _ _ => true
  | .pkCrpl _ _ _ => true
  | .pkRing _ _ _ => true
  | .pkSteerInstall _ _ _ _ _ _ _ _ _ _ => true
  | .pkSteerRemove _ _ => true
  | .starvationPromotion _ => true
  | .registerResultLands _ _ => true
  | .queueLoadDataArrival _ _ => true
  | .queueStorePairing _ _ => true
  | .repeatReissue _ _ => true
  | .heldWritePerformed _ _ => true
  | .arrayOpComplete _ _ _ => true
  | .lakeFillStart _ _ _ => true
  | .lakeFillComplete _ _ _ _ => true
  | .klsvcRefill _ _ _ => true
  | .klsvcAccept _ _ _ => true
  | .klsvcRevoke _ _ _ => true
  | .copyTransferStart _ _ _ => true
  | .copyChunk _ _ _ _ => true
  | .pageWalkComplete _ _ _ _ => true
  | .farStorePerformed _ _ _ _ => true
  | .farLoadDataArrival _ _ _ _ => true
  | .kxinvWrite _ _ _ => true
  | .invalidationComplete _ _ => true
  | .invalidationTimeout _ _ => true
  | .touchExpiry _ _ _ => true
  | .drainComplete _ => true
  | .waitReread _ => true
  | .userInterruptTaken _ _ => true
  | .kuipWrite _ _ _ => true
  | .kbudgetWrite _ => true
  | .supervisorRecordDelivery => true
  | .preemption _ => true
  | .blockPullComplete _ _ _ _ _ => true
  | .blockWriteOut _ _ _ _ => true
  | .kisvcRetry _ => true
  | .kisvcAbandon _ => true
  | .segmentArrival _ _ _ => true
  | .engineAccessGuard _ _ _ => true
  | .clusterRetest _ => true
  | .hostPacketArrival _ _ _ => true
  | .deceoMessageReceived _ => true
  | .rdmaWrite _ _ _ => true
  | .rdmaRead _ _ _ => true
  | .siennaExecutiveCycle _ => true
  | .waitSatisfied _ _ => true
  | .waitPoll _ _ => true
  | .taskDispatch _ => true
  | .taskCompletion _ => true
  | .remoteRequestArrival _ _ => true
  | .remoteReplyArrival _ _ _ _ => true
  | .messageBufferRelease => true
  | .markerTimeout _ _ => true
  | .resendTimer _ _ => true
  | .peerTimeout _ _ => true
  | .sequenceMemoryExpiry _ _ => true
  | .creditReturn _ _ _ => true
  | .abortArrival _ => true
  | .signalLock _ => true
  | .trainingComplete _ _ _ => true
  | .signalLoss _ => true
  | .darkTimeout _ => true
  | .linkErrorFence _ _ => true
  | .kflctlFence _ => true
  | .kflctlUnfence _ => true
  | .kflctlRetrain _ => true
  | .planClaim _ => true
  | .planStep _ _ => true
  | .powerOnReset _ => true
  | .resetInput _ => true
  | .watchdogReset _ => true
  | .testRunJudged _ => true
  | .testRunTimeout _ => true
  | .mgIdentify => true
  | .mgSensors _ => true
  | .mgLogRead _ _ => true
  | .mgFwWrite _ _ _ _ => true
  | .mgFwActivate _ _ => true
  | .mgFwCommit _ _ => true
  | .fwRevert _ => true
  | .mgReset _ _ => true
  | .mgPowerCap _ _ => true
  | .mgProvision _ _ => true
  | .mgProtect _ _ _ => true
  | .mgUnprotect _ _ _ => true
  | .mgClusterState _ => true
  | .mgRepairRead _ => true
  | .mgSetKey _ _ _ _ => true
  | .spGetCertificate => true
  | .spChallenge _ => true
  | .spGetMeasurements _ => true
  | .spKeyExchange _ _ _ => true
  | .spFinish _ _ _ => true
  | .spKeyUpdate _ => true
  | .spHeartbeat _ => true
  | .spEndSession _ => true
  | .sessionExpiry _ => true
  | .sensorSample _ _ => true
  | .ptpLock _ _ => true
  | .retrainingFailed _ => true
  | .quiesceTimeout => true
  | .mainPowerLoss => true
  | .ochreReset => true
  | .packetForwarding _ _ => true
  | .flitCrcFailure _ => true

end Sys2Proof
end

