-- ==== Sys2Proof/Decode.lean ====
section
/-! DEFINITION. Decode: the reading of a 32-bit slot word (R44 to R68), total on every number, refusing by name; then
the encoder, written from the same tables. -/

namespace Sys2Proof

/-- Why a word is no instruction (R68). -/
inductive Illegal where
  /-- Class 0xE or 0xF. -/
  | badClass
  /-- An operation code R66 leaves unassigned. -/
  | unassigned
  /-- A reserved bit or field that is not 0, or a field outside its code range. -/
  | reservedField
  /-- A format, rounding mode, plane, path or immediate outside its legal set. -/
  | illegalValue
deriving DecidableEq, Repr

/-- The fields of a slot word as unsigned numbers (R44, R45). -/
structure Fields where
  /-- bits 30:27 -/
  c : Nat
  /-- bits 26:21 -/
  o : Nat
  /-- bits 20:16 -/
  d : Nat
  /-- bits 15:11 -/
  a : Nat
  /-- bits 10:6 -/
  b : Nat
  /-- bits 5:3 -/
  f : Nat
  /-- bits 2:0 -/
  q : Nat
  /-- bits 15:0 -/
  im : Nat
deriving DecidableEq, Repr

/-- The fields of a word. -/
def fieldsOf (w : Nat) : Fields where
  c := w / 134217728 % 16
  o := w / 2097152 % 64
  d := w / 65536 % 32
  a := w / 2048 % 32
  b := w / 64 % 32
  f := w / 8 % 8
  q := w % 8
  im := w % 65536

/-- Bit `n` of a number. -/
def bitAt (x n : Nat) : Bool := x / 2 ^ n % 2 == 1

/-- An instruction under a condition on its reserved fields (R68). -/
def gate (p : Prop) [Decidable p] (i : Instr) : Except Illegal Instr :=
  if p then .ok i else .error .reservedField

/-- The operations of class sx (R66). -/
def decodeSx (w : Fields) : Except Illegal Instr :=
  match w.o with
  | 0 => gate (w.d = 0 ∧ w.a = 0 ∧ w.b = 0 ∧ w.f = 0 ∧ w.q = 0) (.sxNop)
  | 1 => gate (w.q < 8) (.sxAdd (Fin.ofNat 32 w.d) (Fin.ofNat 32 w.a) (Fin.ofNat 32 w.b) (IntTy.ofCode w.f) (Fin.ofNat 8 w.q))
  | 2 => gate (w.q < 8) (.sxSub (Fin.ofNat 32 w.d) (Fin.ofNat 32 w.a) (Fin.ofNat 32 w.b) (IntTy.ofCode w.f) (Fin.ofNat 8 w.q))
  | 3 => gate (w.q < 8) (.sxMul (Fin.ofNat 32 w.d) (Fin.ofNat 32 w.a) (Fin.ofNat 32 w.b) (IntTy.ofCode w.f) (Fin.ofNat 8 w.q))
  | 4 => gate (w.q < 8) (.sxMulh (Fin.ofNat 32 w.d) (Fin.ofNat 32 w.a) (Fin.ofNat 32 w.b) (IntTy.ofCode w.f) (Fin.ofNat 8 w.q))
  | 5 => gate (w.q < 8) (.sxDiv (Fin.ofNat 32 w.d) (Fin.ofNat 32 w.a) (Fin.ofNat 32 w.b) (IntTy.ofCode w.f) (Fin.ofNat 8 w.q))
  | 6 => gate (w.q < 8) (.sxRem (Fin.ofNat 32 w.d) (Fin.ofNat 32 w.a) (Fin.ofNat 32 w.b) (IntTy.ofCode w.f) (Fin.ofNat 8 w.q))
  | 7 => gate (w.q < 8) (.sxMin (Fin.ofNat 32 w.d) (Fin.ofNat 32 w.a) (Fin.ofNat 32 w.b) (IntTy.ofCode w.f) (Fin.ofNat 8 w.q))
  | 8 => gate (w.q < 8) (.sxMax (Fin.ofNat 32 w.d) (Fin.ofNat 32 w.a) (Fin.ofNat 32 w.b) (IntTy.ofCode w.f) (Fin.ofNat 8 w.q))
  | 9 => gate (w.q < 8) (.sxAnd (Fin.ofNat 32 w.d) (Fin.ofNat 32 w.a) (Fin.ofNat 32 w.b) (IntTy.ofCode w.f) (Fin.ofNat 8 w.q))
  | 10 => gate (w.q < 8) (.sxOr (Fin.ofNat 32 w.d) (Fin.ofNat 32 w.a) (Fin.ofNat 32 w.b) (IntTy.ofCode w.f) (Fin.ofNat 8 w.q))
  | 11 => gate (w.q < 8) (.sxXor (Fin.ofNat 32 w.d) (Fin.ofNat 32 w.a) (Fin.ofNat 32 w.b) (IntTy.ofCode w.f) (Fin.ofNat 8 w.q))
  | 12 => gate (w.q < 8) (.sxShl (Fin.ofNat 32 w.d) (Fin.ofNat 32 w.a) (Fin.ofNat 32 w.b) (IntTy.ofCode w.f) (Fin.ofNat 8 w.q))
  | 13 => gate (w.q < 8) (.sxShr (Fin.ofNat 32 w.d) (Fin.ofNat 32 w.a) (Fin.ofNat 32 w.b) (IntTy.ofCode w.f) (Fin.ofNat 8 w.q))
  | 14 => gate (w.q < 8) (.sxSra (Fin.ofNat 32 w.d) (Fin.ofNat 32 w.a) (Fin.ofNat 32 w.b) (IntTy.ofCode w.f) (Fin.ofNat 8 w.q))
  | 15 => gate (w.b = 0 ∧ w.q < 8) (.sxClz (Fin.ofNat 32 w.d) (Fin.ofNat 32 w.a) (IntTy.ofCode w.f) (Fin.ofNat 8 w.q))
  | 16 => gate (w.b = 0 ∧ w.q < 8) (.sxCtz (Fin.ofNat 32 w.d) (Fin.ofNat 32 w.a) (IntTy.ofCode w.f) (Fin.ofNat 8 w.q))
  | 17 => gate (w.b = 0 ∧ w.q < 8) (.sxCnt (Fin.ofNat 32 w.d) (Fin.ofNat 32 w.a) (IntTy.ofCode w.f) (Fin.ofNat 8 w.q))
  | 18 => gate (w.q < 8) (.sxExt (Fin.ofNat 32 w.d) (Fin.ofNat 32 w.a) (Fin.ofNat 32 w.b) (IntTy.ofCode w.f) (Fin.ofNat 8 w.q))
  | 19 => gate (w.b = 0 ∧ w.q < 8) (.sxMov (Fin.ofNat 32 w.d) (Fin.ofNat 32 w.a) (IntTy.ofCode w.f) (Fin.ofNat 8 w.q))
  | 20 => gate (w.q < 8) (.sxCeq (Fin.ofNat 32 w.d) (Fin.ofNat 32 w.a) (Fin.ofNat 32 w.b) (IntTy.ofCode w.f) (Fin.ofNat 8 w.q))
  | 21 => gate (w.q < 8) (.sxClt (Fin.ofNat 32 w.d) (Fin.ofNat 32 w.a) (Fin.ofNat 32 w.b) (IntTy.ofCode w.f) (Fin.ofNat 8 w.q))
  | 22 => gate (w.q < 8) (.sxCle (Fin.ofNat 32 w.d) (Fin.ofNat 32 w.a) (Fin.ofNat 32 w.b) (IntTy.ofCode w.f) (Fin.ofNat 8 w.q))
  | 23 => gate (w.q < 8) (.sxSel (Fin.ofNat 32 w.d) (Fin.ofNat 32 w.a) (Fin.ofNat 32 w.b) (IntTy.ofCode w.f) (Fin.ofNat 8 w.q))
  | 24 => gate (w.d < 8 ∧ w.b = 0 ∧ w.q < 8) (.sxQset (Fin.ofNat 8 w.d) (Fin.ofNat 32 w.a) (IntTy.ofCode w.f) (Fin.ofNat 8 w.q))
  | 32 => gate (w.f < 4 ∧ w.q < 8) (.sxFadd (Fin.ofNat 32 w.d) (Fin.ofNat 32 w.a) (Fin.ofNat 32 w.b) (Rnd.ofCode w.f) (Fin.ofNat 8 w.q))
  | 33 => gate (w.f < 4 ∧ w.q < 8) (.sxFmul (Fin.ofNat 32 w.d) (Fin.ofNat 32 w.a) (Fin.ofNat 32 w.b) (Rnd.ofCode w.f) (Fin.ofNat 8 w.q))
  | 34 => gate (w.f < 4 ∧ w.q < 8) (.sxFma (Fin.ofNat 32 w.d) (Fin.ofNat 32 w.a) (Fin.ofNat 32 w.b) (Rnd.ofCode w.f) (Fin.ofNat 8 w.q))
  | 35 => gate (w.f < 4 ∧ w.q < 8) (.sxFceq (Fin.ofNat 32 w.d) (Fin.ofNat 32 w.a) (Fin.ofNat 32 w.b) (Rnd.ofCode w.f) (Fin.ofNat 8 w.q))
  | 36 => gate (w.f < 4 ∧ w.q < 8) (.sxFclt (Fin.ofNat 32 w.d) (Fin.ofNat 32 w.a) (Fin.ofNat 32 w.b) (Rnd.ofCode w.f) (Fin.ofNat 8 w.q))
  | 37 => gate (w.b = 0 ∧ w.f < 4 ∧ w.q < 8) (.sxFcvi (Fin.ofNat 32 w.d) (Fin.ofNat 32 w.a) (Rnd.ofCode w.f) (Fin.ofNat 8 w.q))
  | 38 => gate (w.b = 0 ∧ w.f < 4 ∧ w.q < 8) (.sxFcif (Fin.ofNat 32 w.d) (Fin.ofNat 32 w.a) (Rnd.ofCode w.f) (Fin.ofNat 8 w.q))
  | _ => .error .unassigned

/-- The operations of class si (R66). -/
def decodeSi (w : Fields) : Except Illegal Instr :=
  match w.o with
  | 0 => .ok (.siLi (Fin.ofNat 32 w.d) (BitVec.ofNat 16 w.im))
  | 1 => .ok (.siIh1 (Fin.ofNat 32 w.d) (BitVec.ofNat 16 w.im))
  | 2 => .ok (.siIh2 (Fin.ofNat 32 w.d) (BitVec.ofNat 16 w.im))
  | 3 => .ok (.siIh3 (Fin.ofNat 32 w.d) (BitVec.ofNat 16 w.im))
  | 4 => .ok (.siAddi (Fin.ofNat 32 w.d) (BitVec.ofNat 16 w.im))
  | 5 => .ok (.siOri (Fin.ofNat 32 w.d) (BitVec.ofNat 16 w.im))
  | 6 => .ok (.siCeqi (Fin.ofNat 32 w.d) (BitVec.ofNat 16 w.im))
  | 7 => .ok (.siClti (Fin.ofNat 32 w.d) (BitVec.ofNat 16 w.im))
  | _ => .error .unassigned

/-- The operations of class br (R66). -/
def decodeBr (w : Fields) : Except Illegal Instr :=
  match w.o with
  | 0 => gate (w.d = 0) (.brJ (BitVec.ofNat 16 w.im))
  | 1 => .ok (.brCall (Fin.ofNat 32 w.d) (BitVec.ofNat 16 w.im))
  | 2 => .ok (.brBz (Fin.ofNat 32 w.d) (BitVec.ofNat 16 w.im))
  | 3 => .ok (.brBnz (Fin.ofNat 32 w.d) (BitVec.ofNat 16 w.im))
  | 4 => .ok (.brBlt (Fin.ofNat 32 w.d) (BitVec.ofNat 16 w.im))
  | 5 => .ok (.brBge (Fin.ofNat 32 w.d) (BitVec.ofNat 16 w.im))
  | 6 => gate (w.d < 8) (.brBq (Fin.ofNat 8 w.d) (BitVec.ofNat 16 w.im))
  | 7 => gate (w.d < 8) (.brBnq (Fin.ofNat 8 w.d) (BitVec.ofNat 16 w.im))
  | 8 => gate (w.d = 0 ∧ w.b = 0 ∧ w.f = 0 ∧ w.q = 0) (.brJr (Fin.ofNat 32 w.a))
  | 9 => gate (w.d = 0 ∧ w.b = 0 ∧ w.f = 0 ∧ w.q = 0) (.brRet (Fin.ofNat 32 w.a))
  | 10 => gate (w.d = 0 ∧ w.f < 6 ∧ w.q = 0) (.brLvl (Fin.ofNat 32 w.a) (Fin.ofNat 32 w.b) (Fin.ofNat 6 w.f))
  | 11 => gate (w.d < 6 ∧ w.im < 257) (.brLoop (Fin.ofNat 6 w.d) (Fin.ofNat 257 w.im))
  | 12 => gate (w.d < 6 ∧ w.b = 0 ∧ w.f = 0 ∧ w.q = 0) (.brLend (Fin.ofNat 6 w.d) (Fin.ofNat 32 w.a))
  | 13 => gate (w.a = 0 ∧ w.b = 0 ∧ w.f = 0 ∧ w.q = 0) (.brBud (Fin.ofNat 32 w.d))
  | _ => .error .unassigned

/-- The operations of class ad (R66). -/
def decodeAd (w : Fields) : Except Illegal Instr :=
  match w.o with
  | 0 => gate (w.f < 4 ∧ w.q < 8) (.adLd (Fin.ofNat 32 w.d) (bitAt w.a 4) (Fin.ofNat 16 w.a) (Fin.ofNat 32 w.b) (ASize.ofCode w.f) (Fin.ofNat 8 w.q))
  | 1 => gate (w.f < 4 ∧ w.q < 8) (.adSt (Fin.ofNat 32 w.d) (bitAt w.a 4) (Fin.ofNat 16 w.a) (Fin.ofNat 32 w.b) (ASize.ofCode w.f) (Fin.ofNat 8 w.q))
  | 2 => gate (w.f = 0 ∧ w.q < 8) (.adVld (Fin.ofNat 32 w.d) (bitAt w.a 4) (Fin.ofNat 16 w.a) (Fin.ofNat 32 w.b) (Fin.ofNat 8 w.q))
  | 3 => gate (w.f = 0 ∧ w.q < 8) (.adVst (Fin.ofNat 32 w.d) (bitAt w.a 4) (Fin.ofNat 16 w.a) (Fin.ofNat 32 w.b) (Fin.ofNat 8 w.q))
  | 4 => gate (w.f < 4 ∧ w.q < 8) (.adFld (Fin.ofNat 32 w.d) (bitAt w.a 4) (Fin.ofNat 16 w.a) (Fin.ofNat 32 w.b) (ASize.ofCode w.f) (Fin.ofNat 8 w.q))
  | 5 => gate (w.f < 4 ∧ w.q < 8) (.adFst (Fin.ofNat 32 w.d) (bitAt w.a 4) (Fin.ofNat 16 w.a) (Fin.ofNat 32 w.b) (ASize.ofCode w.f) (Fin.ofNat 8 w.q))
  | 6 => gate (w.d = 0 ∧ w.f = 0 ∧ w.q < 8) (.adTch (bitAt w.a 4) (Fin.ofNat 16 w.a) (Fin.ofNat 32 w.b) (Fin.ofNat 8 w.q))
  | 7 => gate (w.d < 16 ∧ w.a < 16 ∧ w.f = 0 ∧ w.q < 8) (.adAdd (Fin.ofNat 16 w.d) (Fin.ofNat 16 w.a) (Fin.ofNat 32 w.b) (Fin.ofNat 8 w.q))
  | 8 => gate (w.d < 16 ∧ w.a = 0 ∧ w.f = 0 ∧ w.q < 8) (.adMov (Fin.ofNat 16 w.d) (Fin.ofNat 32 w.b) (Fin.ofNat 8 w.q))
  | 9 => gate (w.a < 16 ∧ w.b = 0 ∧ w.f = 0 ∧ w.q < 8) (.adGet (Fin.ofNat 32 w.d) (Fin.ofNat 16 w.a) (Fin.ofNat 8 w.q))
  | 16 => gate (w.a < 16 ∧ w.q < 8) (.adAadd (Fin.ofNat 32 w.d) (Fin.ofNat 16 w.a) (Fin.ofNat 32 w.b) (AOrd.ofCode (w.f / 2)) (bitAt w.f 0) (Fin.ofNat 8 w.q))
  | 17 => gate (w.a < 16 ∧ w.q < 8) (.adAand (Fin.ofNat 32 w.d) (Fin.ofNat 16 w.a) (Fin.ofNat 32 w.b) (AOrd.ofCode (w.f / 2)) (bitAt w.f 0) (Fin.ofNat 8 w.q))
  | 18 => gate (w.a < 16 ∧ w.q < 8) (.adAor (Fin.ofNat 32 w.d) (Fin.ofNat 16 w.a) (Fin.ofNat 32 w.b) (AOrd.ofCode (w.f / 2)) (bitAt w.f 0) (Fin.ofNat 8 w.q))
  | 19 => gate (w.a < 16 ∧ w.q < 8) (.adAxor (Fin.ofNat 32 w.d) (Fin.ofNat 16 w.a) (Fin.ofNat 32 w.b) (AOrd.ofCode (w.f / 2)) (bitAt w.f 0) (Fin.ofNat 8 w.q))
  | 20 => gate (w.a < 16 ∧ w.q < 8) (.adAmin (Fin.ofNat 32 w.d) (Fin.ofNat 16 w.a) (Fin.ofNat 32 w.b) (AOrd.ofCode (w.f / 2)) (bitAt w.f 0) (Fin.ofNat 8 w.q))
  | 21 => gate (w.a < 16 ∧ w.q < 8) (.adAmax (Fin.ofNat 32 w.d) (Fin.ofNat 16 w.a) (Fin.ofNat 32 w.b) (AOrd.ofCode (w.f / 2)) (bitAt w.f 0) (Fin.ofNat 8 w.q))
  | 22 => gate (w.a < 16 ∧ w.q < 8) (.adNmin (Fin.ofNat 32 w.d) (Fin.ofNat 16 w.a) (Fin.ofNat 32 w.b) (AOrd.ofCode (w.f / 2)) (bitAt w.f 0) (Fin.ofNat 8 w.q))
  | 23 => gate (w.a < 16 ∧ w.q < 8) (.adNmax (Fin.ofNat 32 w.d) (Fin.ofNat 16 w.a) (Fin.ofNat 32 w.b) (AOrd.ofCode (w.f / 2)) (bitAt w.f 0) (Fin.ofNat 8 w.q))
  | 24 => gate (w.a < 16 ∧ w.q < 8) (.adXchg (Fin.ofNat 32 w.d) (Fin.ofNat 16 w.a) (Fin.ofNat 32 w.b) (AOrd.ofCode (w.f / 2)) (bitAt w.f 0) (Fin.ofNat 8 w.q))
  | 25 => gate (w.a < 16 ∧ w.q < 8) (.adCas (Fin.ofNat 32 w.d) (Fin.ofNat 16 w.a) (Fin.ofNat 32 w.b) (AOrd.ofCode (w.f / 2)) (bitAt w.f 0) (Fin.ofNat 8 w.q))
  | 26 => gate (w.a < 16 ∧ w.f % 2 = 0 ∧ w.q < 8) (.adFadd (Fin.ofNat 32 w.d) (Fin.ofNat 16 w.a) (Fin.ofNat 32 w.b) (AOrd.ofCode (w.f / 2)) (Fin.ofNat 8 w.q))
  | 27 => gate (w.a < 16 ∧ w.f % 2 = 0 ∧ w.q < 8) (.adBadd (Fin.ofNat 32 w.d) (Fin.ofNat 16 w.a) (Fin.ofNat 32 w.b) (AOrd.ofCode (w.f / 2)) (Fin.ofNat 8 w.q))
  | _ => .error .unassigned

/-- The operations of class vx (R66). -/
def decodeVx (w : Fields) : Except Illegal Instr :=
  match w.o with
  | 0 => gate (w.q < 8) (.vxAdd (Fin.ofNat 32 w.d) (Fin.ofNat 32 w.a) (Fin.ofNat 32 w.b) (VFmt.ofCode w.f) (Fin.ofNat 8 w.q) (Rnd.ofCode 0))
  | 1 => gate (w.q < 8) (.vxAdd (Fin.ofNat 32 w.d) (Fin.ofNat 32 w.a) (Fin.ofNat 32 w.b) (VFmt.ofCode w.f) (Fin.ofNat 8 w.q) (Rnd.ofCode 1))
  | 2 => gate (w.q < 8) (.vxAdd (Fin.ofNat 32 w.d) (Fin.ofNat 32 w.a) (Fin.ofNat 32 w.b) (VFmt.ofCode w.f) (Fin.ofNat 8 w.q) (Rnd.ofCode 2))
  | 3 => gate (w.q < 8) (.vxAdd (Fin.ofNat 32 w.d) (Fin.ofNat 32 w.a) (Fin.ofNat 32 w.b) (VFmt.ofCode w.f) (Fin.ofNat 8 w.q) (Rnd.ofCode 3))
  | 4 => gate (w.q < 8) (.vxSub (Fin.ofNat 32 w.d) (Fin.ofNat 32 w.a) (Fin.ofNat 32 w.b) (VFmt.ofCode w.f) (Fin.ofNat 8 w.q) (Rnd.ofCode 0))
  | 5 => gate (w.q < 8) (.vxSub (Fin.ofNat 32 w.d) (Fin.ofNat 32 w.a) (Fin.ofNat 32 w.b) (VFmt.ofCode w.f) (Fin.ofNat 8 w.q) (Rnd.ofCode 1))
  | 6 => gate (w.q < 8) (.vxSub (Fin.ofNat 32 w.d) (Fin.ofNat 32 w.a) (Fin.ofNat 32 w.b) (VFmt.ofCode w.f) (Fin.ofNat 8 w.q) (Rnd.ofCode 2))
  | 7 => gate (w.q < 8) (.vxSub (Fin.ofNat 32 w.d) (Fin.ofNat 32 w.a) (Fin.ofNat 32 w.b) (VFmt.ofCode w.f) (Fin.ofNat 8 w.q) (Rnd.ofCode 3))
  | 8 => gate (w.q < 8) (.vxMul (Fin.ofNat 32 w.d) (Fin.ofNat 32 w.a) (Fin.ofNat 32 w.b) (VFmt.ofCode w.f) (Fin.ofNat 8 w.q) (Rnd.ofCode 0))
  | 9 => gate (w.q < 8) (.vxMul (Fin.ofNat 32 w.d) (Fin.ofNat 32 w.a) (Fin.ofNat 32 w.b) (VFmt.ofCode w.f) (Fin.ofNat 8 w.q) (Rnd.ofCode 1))
  | 10 => gate (w.q < 8) (.vxMul (Fin.ofNat 32 w.d) (Fin.ofNat 32 w.a) (Fin.ofNat 32 w.b) (VFmt.ofCode w.f) (Fin.ofNat 8 w.q) (Rnd.ofCode 2))
  | 11 => gate (w.q < 8) (.vxMul (Fin.ofNat 32 w.d) (Fin.ofNat 32 w.a) (Fin.ofNat 32 w.b) (VFmt.ofCode w.f) (Fin.ofNat 8 w.q) (Rnd.ofCode 3))
  | 12 => gate (w.q < 8) (.vxFma (Fin.ofNat 32 w.d) (Fin.ofNat 32 w.a) (Fin.ofNat 32 w.b) (VFmt.ofCode w.f) (Fin.ofNat 8 w.q) (Rnd.ofCode 0))
  | 13 => gate (w.q < 8) (.vxFma (Fin.ofNat 32 w.d) (Fin.ofNat 32 w.a) (Fin.ofNat 32 w.b) (VFmt.ofCode w.f) (Fin.ofNat 8 w.q) (Rnd.ofCode 1))
  | 14 => gate (w.q < 8) (.vxFma (Fin.ofNat 32 w.d) (Fin.ofNat 32 w.a) (Fin.ofNat 32 w.b) (VFmt.ofCode w.f) (Fin.ofNat 8 w.q) (Rnd.ofCode 2))
  | 15 => gate (w.q < 8) (.vxFma (Fin.ofNat 32 w.d) (Fin.ofNat 32 w.a) (Fin.ofNat 32 w.b) (VFmt.ofCode w.f) (Fin.ofNat 8 w.q) (Rnd.ofCode 3))
  | 16 => gate (w.q < 8) (.vxMin (Fin.ofNat 32 w.d) (Fin.ofNat 32 w.a) (Fin.ofNat 32 w.b) (VFmt.ofCode w.f) (Fin.ofNat 8 w.q))
  | 17 => gate (w.q < 8) (.vxMax (Fin.ofNat 32 w.d) (Fin.ofNat 32 w.a) (Fin.ofNat 32 w.b) (VFmt.ofCode w.f) (Fin.ofNat 8 w.q))
  | 18 => gate (w.b = 0 ∧ w.q < 8) (.vxAbs (Fin.ofNat 32 w.d) (Fin.ofNat 32 w.a) (VFmt.ofCode w.f) (Fin.ofNat 8 w.q))
  | 19 => gate (w.b = 0 ∧ w.q < 8) (.vxNeg (Fin.ofNat 32 w.d) (Fin.ofNat 32 w.a) (VFmt.ofCode w.f) (Fin.ofNat 8 w.q))
  | 20 => gate (w.f = 0 ∧ w.q < 8) (.vxAnd (Fin.ofNat 32 w.d) (Fin.ofNat 32 w.a) (Fin.ofNat 32 w.b) (Fin.ofNat 8 w.q))
  | 21 => gate (w.f = 0 ∧ w.q < 8) (.vxOr (Fin.ofNat 32 w.d) (Fin.ofNat 32 w.a) (Fin.ofNat 32 w.b) (Fin.ofNat 8 w.q))
  | 22 => gate (w.f = 0 ∧ w.q < 8) (.vxXor (Fin.ofNat 32 w.d) (Fin.ofNat 32 w.a) (Fin.ofNat 32 w.b) (Fin.ofNat 8 w.q))
  | 23 => gate (w.b = 0 ∧ w.f = 0 ∧ w.q < 8) (.vxNot (Fin.ofNat 32 w.d) (Fin.ofNat 32 w.a) (Fin.ofNat 8 w.q))
  | 24 => gate (w.q < 8) (.vxShl (Fin.ofNat 32 w.d) (Fin.ofNat 32 w.a) (Fin.ofNat 32 w.b) (VFmt.ofCode w.f) (Fin.ofNat 8 w.q))
  | 25 => gate (w.q < 8) (.vxShr (Fin.ofNat 32 w.d) (Fin.ofNat 32 w.a) (Fin.ofNat 32 w.b) (VFmt.ofCode w.f) (Fin.ofNat 8 w.q))
  | 26 => gate (w.q < 8) (.vxSra (Fin.ofNat 32 w.d) (Fin.ofNat 32 w.a) (Fin.ofNat 32 w.b) (VFmt.ofCode w.f) (Fin.ofNat 8 w.q))
  | 27 => gate (w.q < 8) (.vxMulh (Fin.ofNat 32 w.d) (Fin.ofNat 32 w.a) (Fin.ofNat 32 w.b) (VFmt.ofCode w.f) (Fin.ofNat 8 w.q))
  | 28 => gate (w.q < 8) (.vxAdds (Fin.ofNat 32 w.d) (Fin.ofNat 32 w.a) (Fin.ofNat 32 w.b) (VFmt.ofCode w.f) (Fin.ofNat 8 w.q))
  | 29 => gate (w.q < 8) (.vxSubs (Fin.ofNat 32 w.d) (Fin.ofNat 32 w.a) (Fin.ofNat 32 w.b) (VFmt.ofCode w.f) (Fin.ofNat 8 w.q))
  | 30 => gate (w.b = 0 ∧ w.f = 0 ∧ w.q < 8) (.vxMov (Fin.ofNat 32 w.d) (Fin.ofNat 32 w.a) (Fin.ofNat 8 w.q))
  | 31 => gate (w.f = 0 ∧ w.q < 8) (.vxSel (Fin.ofNat 32 w.d) (Fin.ofNat 32 w.a) (Fin.ofNat 32 w.b) (Fin.ofNat 8 w.q))
  | 32 => gate (w.d < 8 ∧ w.q < 8) (.vxCeq (Fin.ofNat 8 w.d) (Fin.ofNat 32 w.a) (Fin.ofNat 32 w.b) (VFmt.ofCode w.f) (Fin.ofNat 8 w.q))
  | 33 => gate (w.d < 8 ∧ w.q < 8) (.vxCne (Fin.ofNat 8 w.d) (Fin.ofNat 32 w.a) (Fin.ofNat 32 w.b) (VFmt.ofCode w.f) (Fin.ofNat 8 w.q))
  | 34 => gate (w.d < 8 ∧ w.q < 8) (.vxClt (Fin.ofNat 8 w.d) (Fin.ofNat 32 w.a) (Fin.ofNat 32 w.b) (VFmt.ofCode w.f) (Fin.ofNat 8 w.q))
  | 35 => gate (w.d < 8 ∧ w.q < 8) (.vxCle (Fin.ofNat 8 w.d) (Fin.ofNat 32 w.a) (Fin.ofNat 32 w.b) (VFmt.ofCode w.f) (Fin.ofNat 8 w.q))
  | 36 => gate (w.d < 8 ∧ w.a < 8 ∧ w.b < 8 ∧ w.f = 0 ∧ w.q < 8) (.vxQand (Fin.ofNat 8 w.d) (Fin.ofNat 8 w.a) (Fin.ofNat 8 w.b) (Fin.ofNat 8 w.q))
  | 37 => gate (w.d < 8 ∧ w.a < 8 ∧ w.b < 8 ∧ w.f = 0 ∧ w.q < 8) (.vxQor (Fin.ofNat 8 w.d) (Fin.ofNat 8 w.a) (Fin.ofNat 8 w.b) (Fin.ofNat 8 w.q))
  | 38 => gate (w.d < 8 ∧ w.a < 8 ∧ w.b < 8 ∧ w.f = 0 ∧ w.q < 8) (.vxQxor (Fin.ofNat 8 w.d) (Fin.ofNat 8 w.a) (Fin.ofNat 8 w.b) (Fin.ofNat 8 w.q))
  | 39 => gate (w.d < 8 ∧ w.a < 8 ∧ w.b = 0 ∧ w.f = 0 ∧ w.q < 8) (.vxQnot (Fin.ofNat 8 w.d) (Fin.ofNat 8 w.a) (Fin.ofNat 8 w.q))
  | 40 => gate (w.f = 0 ∧ w.q < 8) (.vxPerm (Fin.ofNat 32 w.d) (Fin.ofNat 32 w.a) (Fin.ofNat 32 w.b) (Fin.ofNat 8 w.q))
  | 41 => gate (w.f = 0 ∧ w.q < 8) (.vxLsh (Fin.ofNat 32 w.d) (Fin.ofNat 32 w.a) (Fin.ofNat 32 w.b) (Fin.ofNat 8 w.q))
  | 42 => gate (w.f = 0 ∧ w.q < 8) (.vxLrot (Fin.ofNat 32 w.d) (Fin.ofNat 32 w.a) (Fin.ofNat 32 w.b) (Fin.ofNat 8 w.q))
  | 43 => gate (w.b = 0 ∧ w.q < 8) (.vxBcast (Fin.ofNat 32 w.d) (Fin.ofNat 32 w.a) (VFmt.ofCode w.f) (Fin.ofNat 8 w.q))
  | 44 => gate (w.q < 8) (.vxExt (Fin.ofNat 32 w.d) (Fin.ofNat 32 w.a) (Fin.ofNat 32 w.b) (VFmt.ofCode w.f) (Fin.ofNat 8 w.q))
  | 45 => gate (w.b = 0 ∧ w.q < 8) (.vxRadd (Fin.ofNat 32 w.d) (Fin.ofNat 32 w.a) (VFmt.ofCode w.f) (Fin.ofNat 8 w.q))
  | 46 => gate (w.b = 0 ∧ w.q < 8) (.vxRmax (Fin.ofNat 32 w.d) (Fin.ofNat 32 w.a) (VFmt.ofCode w.f) (Fin.ofNat 8 w.q))
  | 47 => gate (w.b = 0 ∧ w.q < 8) (.vxRmin (Fin.ofNat 32 w.d) (Fin.ofNat 32 w.a) (VFmt.ofCode w.f) (Fin.ofNat 8 w.q))
  | 48 => gate (w.b = 0 ∧ w.q < 8) (.vxRcp (Fin.ofNat 32 w.d) (Fin.ofNat 32 w.a) (VFmt.ofCode w.f) (Fin.ofNat 8 w.q))
  | 49 => gate (w.b = 0 ∧ w.q < 8) (.vxRsq (Fin.ofNat 32 w.d) (Fin.ofNat 32 w.a) (VFmt.ofCode w.f) (Fin.ofNat 8 w.q))
  | 50 => gate (w.b = 0 ∧ w.q < 8) (.vxExp2 (Fin.ofNat 32 w.d) (Fin.ofNat 32 w.a) (VFmt.ofCode w.f) (Fin.ofNat 8 w.q))
  | 51 => gate (w.b = 0 ∧ w.q < 8) (.vxLog2 (Fin.ofNat 32 w.d) (Fin.ofNat 32 w.a) (VFmt.ofCode w.f) (Fin.ofNat 8 w.q))
  | _ => .error .unassigned

/-- The operations of class vy (R66). -/
def decodeVy (w : Fields) : Except Illegal Instr :=
  match w.o with
  | 0 => gate (w.q < 8) (.vyCvt (Fin.ofNat 32 w.d) (Fin.ofNat 32 w.a) (Fin.ofNat 4 (w.b / 8)) (VFmt.ofCode (w.b % 8)) (VFmt.ofCode w.f) (Fin.ofNat 8 w.q) (Rnd.ofCode 0))
  | 1 => gate (w.q < 8) (.vyCvt (Fin.ofNat 32 w.d) (Fin.ofNat 32 w.a) (Fin.ofNat 4 (w.b / 8)) (VFmt.ofCode (w.b % 8)) (VFmt.ofCode w.f) (Fin.ofNat 8 w.q) (Rnd.ofCode 1))
  | 2 => gate (w.q < 8) (.vyCvt (Fin.ofNat 32 w.d) (Fin.ofNat 32 w.a) (Fin.ofNat 4 (w.b / 8)) (VFmt.ofCode (w.b % 8)) (VFmt.ofCode w.f) (Fin.ofNat 8 w.q) (Rnd.ofCode 2))
  | 3 => gate (w.q < 8) (.vyCvt (Fin.ofNat 32 w.d) (Fin.ofNat 32 w.a) (Fin.ofNat 4 (w.b / 8)) (VFmt.ofCode (w.b % 8)) (VFmt.ofCode w.f) (Fin.ofNat 8 w.q) (Rnd.ofCode 3))
  | 4 => gate (w.q < 8) (.vyCvs (Fin.ofNat 32 w.d) (Fin.ofNat 32 w.a) (Fin.ofNat 4 (w.b / 8)) (VFmt.ofCode (w.b % 8)) (VFmt.ofCode w.f) (Fin.ofNat 8 w.q))
  | 5 => gate (w.q < 8) (.vyCvo (Fin.ofNat 32 w.d) (Fin.ofNat 32 w.a) (Fin.ofNat 4 (w.b / 8)) (VFmt.ofCode (w.b % 8)) (VFmt.ofCode w.f) (Fin.ofNat 8 w.q))
  | 6 => gate (w.b < 16 ∧ w.q < 8) (.vyPpk (Fin.ofNat 32 w.d) (Fin.ofNat 32 w.a) (bitAt w.b 3) (VFmt.ofCode (w.b % 8)) (Fin.ofNat 8 w.f) (Fin.ofNat 8 w.q))
  | 7 => gate (w.b < 16 ∧ w.q < 8) (.vyPun (Fin.ofNat 32 w.d) (Fin.ofNat 32 w.a) (bitAt w.b 3) (VFmt.ofCode (w.b % 8)) (Fin.ofNat 8 w.f) (Fin.ofNat 8 w.q))
  | _ => .error .unassigned

/-- The operations of class mx (R66). -/
def decodeMx (w : Fields) : Except Illegal Instr :=
  match w.o with
  | 0 => if w.a % 2 = 0 then gate (w.b % 2 = 0 ∧ w.f < 3) (.mxMma (Fin.ofNat 16 (w.d / 2)) (bitAt w.d 0) (Fin.ofNat 16 (w.a / 2)) (Fin.ofNat 16 (w.b / 2)) (MFmt.ofCode w.f) (Fin.ofNat 8 w.q))
    else gate (w.b % 2 = 0 ∧ w.f < 3) (.mxMms (Fin.ofNat 16 (w.d / 2)) (bitAt w.d 0) (Fin.ofNat 16 (w.a / 2)) (Fin.ofNat 16 (w.b / 2)) (MFmt.ofCode w.f) (Fin.ofNat 8 w.q))
  | 1 => gate (w.d % 2 = 0 ∧ w.a = 0 ∧ w.b = 0 ∧ w.f = 0 ∧ w.q < 8) (.mxClr (Fin.ofNat 16 (w.d / 2)) (Fin.ofNat 8 w.q))
  | 2 => gate (w.f = 0 ∧ w.q < 8) (.mxDrn (Fin.ofNat 16 (w.d / 2)) (bitAt w.d 0) (Fin.ofNat 16 (w.a / 2)) (bitAt w.a 0) (Fin.ofNat 32 w.b) (Fin.ofNat 8 w.q))
  | 3 => gate (w.d % 2 = 0 ∧ w.f = 0 ∧ w.q < 8) (.mxFil (Fin.ofNat 16 (w.d / 2)) (Fin.ofNat 16 (w.a / 2)) (bitAt w.a 0) (Fin.ofNat 32 w.b) (Fin.ofNat 8 w.q))
  | 4 => gate (w.a % 2 = 0 ∧ w.b = 0 ∧ w.f < 7 ∧ w.q < 8) (.mxSt (Fin.ofNat 16 (w.d / 2)) (bitAt w.d 0) (Fin.ofNat 16 (w.a / 2)) (StFmt.ofCode w.f) (Fin.ofNat 8 w.q))
  | 5 => gate (w.d % 2 = 0 ∧ w.a % 2 = 0 ∧ w.b = 0 ∧ w.f < 2 ∧ w.q < 8) (.mxLd (Fin.ofNat 16 (w.d / 2)) (Fin.ofNat 16 (w.a / 2)) (bitAt w.f 0) (Fin.ofNat 8 w.q))
  | 6 => gate (w.d = 0 ∧ w.f < 3 ∧ w.q < 8) (.mxCmp (Fin.ofNat 16 (w.a / 2)) (bitAt w.a 0) (Fin.ofNat 32 w.b) (MFmt.ofCode w.f) (Fin.ofNat 8 w.q))
  | 7 => gate (w.d % 2 = 0 ∧ w.a = 0 ∧ w.f = 0 ∧ w.q < 8) (.mxTsr (Fin.ofNat 16 (w.d / 2)) (Fin.ofNat 32 w.b) (Fin.ofNat 8 w.q))
  | 8 => gate (w.a = 0 ∧ w.b % 2 = 0 ∧ w.f = 0 ∧ w.q < 8) (.mxAcp (Fin.ofNat 16 (w.d / 2)) (bitAt w.d 0) (Fin.ofNat 16 (w.b / 2)) (Fin.ofNat 8 w.q))
  | _ => .error .unassigned

/-- The operations of class lk (R66). -/
def decodeLk (w : Fields) : Except Illegal Instr :=
  match w.o with
  | 0 => gate (w.f % 4 < 3 ∧ w.q < 8) (.lkAlloc (Fin.ofNat 32 w.d) (Fin.ofNat 32 w.a) (Fin.ofNat 32 w.b) (MFmt.ofCode (w.f % 4)) (bitAt w.f 2) (Fin.ofNat 8 w.q))
  | 1 => gate (w.d = 0 ∧ w.b = 0 ∧ w.f = 0 ∧ w.q < 8) (.lkLoad (Fin.ofNat 32 w.a) (Fin.ofNat 8 w.q))
  | 2 => gate (w.d = 0 ∧ w.b = 0 ∧ w.f = 0 ∧ w.q < 8) (.lkPin (Fin.ofNat 32 w.a) (Fin.ofNat 8 w.q))
  | 3 => gate (w.d = 0 ∧ w.b = 0 ∧ w.f = 0 ∧ w.q < 8) (.lkUnpin (Fin.ofNat 32 w.a) (Fin.ofNat 8 w.q))
  | 4 => gate (w.d = 0 ∧ w.b = 0 ∧ w.f = 0 ∧ w.q < 8) (.lkRevk (Fin.ofNat 32 w.a) (Fin.ofNat 8 w.q))
  | 5 => gate (w.b = 0 ∧ w.f = 0 ∧ w.q < 8) (.lkQry (Fin.ofNat 32 w.d) (Fin.ofNat 32 w.a) (Fin.ofNat 8 w.q))
  | 6 => gate (w.d = 0 ∧ w.f = 0 ∧ w.q < 8) (.lkQuota (Fin.ofNat 32 w.a) (Fin.ofNat 32 w.b) (Fin.ofNat 8 w.q))
  | 7 => gate (w.d = 0 ∧ w.b = 0 ∧ w.f = 0 ∧ w.q < 8) (.lkSclr (Fin.ofNat 32 w.a) (Fin.ofNat 8 w.q))
  | _ => .error .unassigned

/-- The operations of class cp (R66). -/
def decodeCp (w : Fields) : Except Illegal Instr :=
  match w.o with
  | 0 => gate (w.f < 4 ∧ w.q < 8) (.cpLvl (Fin.ofNat 32 w.d) (Fin.ofNat 32 w.a) (Fin.ofNat 32 w.b) (Fin.ofNat 4 w.f) (Fin.ofNat 8 w.q))
  | 1 => gate (w.d = 0 ∧ w.b = 0 ∧ w.q < 8) (.cpSrc (Fin.ofNat 32 w.a) (Fin.ofNat 4 w.f) (bitAt w.f 2) (Fin.ofNat 8 w.q))
  | 2 => gate (w.d = 0 ∧ w.b = 0 ∧ w.q < 8) (.cpDst (Fin.ofNat 32 w.a) (Fin.ofNat 4 w.f) (bitAt w.f 2) (Fin.ofNat 8 w.q))
  | 3 => gate (w.f < 4 ∧ w.q < 8) (.cpBnd (Fin.ofNat 32 w.d) (Fin.ofNat 32 w.a) (Fin.ofNat 32 w.b) (Fin.ofNat 4 w.f) (Fin.ofNat 8 w.q))
  | 4 => gate (w.d = 0 ∧ w.q < 8) (.cpGo (Fin.ofNat 32 w.a) (Fin.ofNat 32 w.b) (Fin.ofNat 4 w.f) (bitAt w.f 2) (Fin.ofNat 8 w.q))
  | 5 => gate (w.a = 0 ∧ w.b = 0 ∧ w.f < 4 ∧ w.q < 8) (.cpWmk (Fin.ofNat 32 w.d) (Fin.ofNat 4 w.f) (Fin.ofNat 8 w.q))
  | 6 => gate (w.d = 0 ∧ w.a = 0 ∧ w.b = 0 ∧ w.f < 4 ∧ w.q < 8) (.cpCncl (Fin.ofNat 4 w.f) (Fin.ofNat 8 w.q))
  | 7 => gate (w.d = 0 ∧ w.b = 0 ∧ w.f = 0 ∧ w.q < 8) (.cpRpl (Fin.ofNat 32 w.a) (Fin.ofNat 8 w.q))
  | 8 => gate (w.d = 0 ∧ w.b = 0 ∧ w.f = 0 ∧ w.q < 8) (.cpBput (Fin.ofNat 32 w.a) (Fin.ofNat 8 w.q))
  | 9 => gate (w.d = 0 ∧ w.b = 0 ∧ w.f = 0 ∧ w.q < 8) (.cpBlat (Fin.ofNat 32 w.a) (Fin.ofNat 8 w.q))
  | 10 => gate (w.d = 0 ∧ w.b = 0 ∧ w.f = 0 ∧ w.q < 8) (.rsGo (Fin.ofNat 32 w.a) (Fin.ofNat 8 w.q))
  | 11 => gate (w.a = 0 ∧ w.b = 0 ∧ w.f = 0 ∧ w.q < 8) (.rsStat (Fin.ofNat 32 w.d) (Fin.ofNat 8 w.q))
  | _ => .error .unassigned

/-- The operations of class fx (R66). -/
def decodeFx (w : Fields) : Except Illegal Instr :=
  match w.o with
  | 0 => gate (w.d * 2 + w.a / 16 < 48 ∧ w.a % 16 = 0 ∧ w.f = 0 ∧ w.q < 8) (.fxPush (Fin.ofNat 48 (w.d * 2 + w.a / 16)) (Fin.ofNat 32 w.b) (Fin.ofNat 8 w.q))
  | 1 => gate (w.d * 2 + w.a / 16 < 48 ∧ w.a % 16 = 0 ∧ w.f = 0 ∧ w.q < 8) (.fxPop (Fin.ofNat 48 (w.d * 2 + w.a / 16)) (Fin.ofNat 32 w.b) (Fin.ofNat 8 w.q))
  | 2 => gate (w.d * 2 + w.a / 16 < 48 ∧ w.f < 7 ∧ w.q < 8) (.fxSt (Fin.ofNat 48 (w.d * 2 + w.a / 16)) (Fin.ofNat 16 w.a) (Fin.ofNat 32 w.b) (Fin.ofNat 7 w.f) (Fin.ofNat 8 w.q))
  | 3 => gate (w.d * 2 + w.a / 16 < 48 ∧ w.b = 0 ∧ w.f < 6 ∧ w.q < 8) (.fxLd (Fin.ofNat 48 (w.d * 2 + w.a / 16)) (Fin.ofNat 16 w.a) (Fin.ofNat 6 w.f) (Fin.ofNat 8 w.q))
  | 4 => gate (w.d * 2 + w.a / 16 < 48 ∧ w.q < 8) (.fxAt (Fin.ofNat 48 (w.d * 2 + w.a / 16)) (Fin.ofNat 16 w.a) (Fin.ofNat 32 w.b) (FxOp.ofCode w.f) (Fin.ofNat 8 w.q))
  | 5 => gate (w.d * 2 + w.a / 16 < 48 ∧ w.f < 6 ∧ w.q < 8) (.fxRep (Fin.ofNat 48 (w.d * 2 + w.a / 16)) (Fin.ofNat 16 w.a) (Fin.ofNat 32 w.b) (Fin.ofNat 6 w.f) (Fin.ofNat 8 w.q))
  | 6 => gate (w.d * 2 + w.a / 16 < 48 ∧ w.a % 16 = 0 ∧ w.f = 0 ∧ w.q < 8) (.fxMark (Fin.ofNat 48 (w.d * 2 + w.a / 16)) (Fin.ofNat 32 w.b) (Fin.ofNat 8 w.q))
  | 7 => gate (w.d = 0 ∧ w.a = 0 ∧ w.f = 0 ∧ w.q < 8) (.fxDrn (Fin.ofNat 32 w.b) (Fin.ofNat 8 w.q))
  | 8 => gate (w.d * 2 + w.a / 16 < 48 ∧ w.a % 16 = 0 ∧ w.f = 0 ∧ w.q < 8) (.fxMsg (Fin.ofNat 48 (w.d * 2 + w.a / 16)) (Fin.ofNat 32 w.b) (Fin.ofNat 8 w.q))
  | 9 => gate (w.d * 2 + w.a / 16 < 48 ∧ w.a % 16 = 0 ∧ w.f = 0 ∧ w.q < 8) (.fxLst (Fin.ofNat 48 (w.d * 2 + w.a / 16)) (Fin.ofNat 32 w.b) (Fin.ofNat 8 w.q))
  | _ => .error .unassigned

/-- The operations of class sy (R66). -/
def decodeSy (w : Fields) : Except Illegal Instr :=
  match w.o with
  | 0 => gate (w.d = 0 ∧ w.a = 0 ∧ w.b / 16 = 0 ∧ w.b / 4 % 4 = 0 ∧ 0 < w.b % 4 ∧ w.f < 5 ∧ w.q < 8) (.syFence (FOrd.ofCode (w.b % 4)) (Scope.ofCode w.f) (Fin.ofNat 8 w.q))
  | 1 => gate (w.d = 0 ∧ w.b % 16 = 0 ∧ w.f = 0 ∧ w.q < 8) (.syXf (BitVec.ofNat 6 (w.a * 2 + w.b / 16)) (Fin.ofNat 8 w.q))
  | 2 => gate (w.b % 16 = 0 ∧ w.f < 5 ∧ w.q < 8) (.syDrn (Fin.ofNat 32 w.d) (BitVec.ofNat 6 (w.a * 2 + w.b / 16)) (Scope.ofCode w.f) (Fin.ofNat 8 w.q))
  | 3 => gate (w.a = 0 ∧ w.b / 16 = 0 ∧ w.b % 16 = 0 ∧ w.f < 5 ∧ w.q < 8) (.syWait (Fin.ofNat 32 w.d) (Scope.ofCode w.f) (Fin.ofNat 8 w.q))
  | 4 => gate (w.a = 0 ∧ w.b / 16 = 0 ∧ w.b % 16 = 0 ∧ w.f = 0 ∧ w.q < 8) (.syPhase (Fin.ofNat 32 w.d) (Fin.ofNat 8 w.q))
  | 5 => gate (w.a = 0 ∧ w.b / 16 = 0 ∧ w.b % 16 = 0 ∧ w.f = 0 ∧ w.q < 8) (.syLcr (Fin.ofNat 32 w.d) (Fin.ofNat 8 w.q))
  | _ => .error .unassigned

/-- The operations of class tr (R66). -/
def decodeTr (w : Fields) : Except Illegal Instr :=
  match w.o with
  | 0 => gate (w.d = 0) (.trTrap (BitVec.ofNat 16 w.im))
  | 1 => gate (w.d = 0 ∧ w.a = 0 ∧ w.b = 0 ∧ w.f = 0 ∧ w.q < 8) (.trRft (Fin.ofNat 8 w.q))
  | 2 => gate (w.d = 0 ∧ w.a = 0 ∧ w.b = 0 ∧ w.f = 0 ∧ w.q < 8) (.trRfu (Fin.ofNat 8 w.q))
  | 3 => gate (w.im < 4096) (.trCsrr (Fin.ofNat 32 w.d) (Fin.ofNat 4096 w.im))
  | 4 => gate (w.im < 4096) (.trCsrw (Fin.ofNat 32 w.d) (Fin.ofNat 4096 w.im))
  | 5 => gate (w.d = 0 ∧ w.a = 0 ∧ w.b = 0 ∧ w.f = 0 ∧ w.q < 8) (.trYld (Fin.ofNat 8 w.q))
  | 6 => gate (w.d = 0 ∧ w.a = 0 ∧ w.b = 0 ∧ w.f = 0 ∧ w.q < 8) (.trHalt (Fin.ofNat 8 w.q))
  | 7 => gate (w.d = 0 ∧ w.b = 0 ∧ w.f = 0 ∧ w.q < 8) (.trKill (Fin.ofNat 32 w.a) (Fin.ofNat 8 w.q))
  | _ => .error .unassigned

/-- The operations of class sc (R66). -/
def decodeSc (w : Fields) : Except Illegal Instr :=
  match w.o with
  | 0 => gate (w.d = 0 ∧ w.a < 8 ∧ w.b < 8 ∧ w.f = 0 ∧ w.q < 8) (.scUse (Fin.ofNat 8 w.a) (Fin.ofNat 8 w.b) (Fin.ofNat 8 w.q))
  | 1 => gate (w.d < 8 ∧ w.a < 16 ∧ w.f = 0 ∧ w.q < 8) (.scLd (Fin.ofNat 8 w.d) (Fin.ofNat 16 w.a) (Fin.ofNat 32 w.b) (Fin.ofNat 8 w.q))
  | 2 => gate (w.d = 0 ∧ w.a < 16 ∧ w.f = 0 ∧ w.q < 8) (.scLdm (Fin.ofNat 16 w.a) (Fin.ofNat 32 w.b) (Fin.ofNat 8 w.q))
  | _ => .error .unassigned

/-- The operations of class px (R66). -/
def decodePx (w : Fields) : Except Illegal Instr :=
  match w.o with
  | 0 => gate (w.d = 0 ∧ w.im < 256) (.pxRep (Fin.ofNat 256 w.im))
  | 1 => gate (w.d = 0 ∧ w.im < 6) (.pxFirst (Fin.ofNat 6 w.im))
  | 2 => gate (w.d = 0 ∧ w.im < 6) (.pxLast (Fin.ofNat 6 w.im))
  | 3 => gate (w.d = 0 ∧ w.im < 16) (.pxSeg (Fin.ofNat 16 w.im))
  | _ => .error .unassigned

/-- The instruction of a word's fields, before the checks of `Instr.wf`. -/
def decodeFields (w : Fields) : Except Illegal Instr :=
  match w.c with
  | 0 => decodeSx w
  | 1 => decodeSi w
  | 2 => decodeBr w
  | 3 => decodeAd w
  | 4 => decodeVx w
  | 5 => decodeVy w
  | 6 => decodeMx w
  | 7 => decodeLk w
  | 8 => decodeCp w
  | 9 => decodeFx w
  | 10 => decodeSy w
  | 11 => decodeTr w
  | 12 => decodeSc w
  | 13 => decodePx w
  | _ => .error .badClass

/-- The check of the values an encoding admits (R68). -/
def checkValue (i : Instr) : Except Illegal Instr :=
  if i.wf then .ok i else .error .illegalValue

/-- The instruction of a slot word; the stop bit (31) is the bundle's (R47). -/
def decodeWord (w : Nat) : Except Illegal Instr := (decodeFields (fieldsOf w)).bind checkValue

/-- A word in the register layout (R44). -/
def layR (c o d a b f q : Nat) : Nat :=
  c * 134217728 + o * 2097152 + d * 65536 + a * 2048 + b * 64 + f * 8 + q

/-- A word in the immediate layout (R45). -/
def layI (c o d im : Nat) : Nat := c * 134217728 + o * 2097152 + d * 65536 + im

/-- The words of the slot operations, from the tables of R44 to R67, with the stop bit 0 (`none` for a step that
is not a slot). -/
def encode : Instr → Option Nat
  | .sxNop => some (layR 0 0 0 0 0 0 0)
  | .sxAdd d a b ty q => some (layR 0 1 d.val a.val b.val ty.code q.val)
  | .sxSub d a b ty q => some (layR 0 2 d.val a.val b.val ty.code q.val)
  | .sxMul d a b ty q => some (layR 0 3 d.val a.val b.val ty.code q.val)
  | .sxMulh d a b ty q => some (layR 0 4 d.val a.val b.val ty.code q.val)
  | .sxDiv d a b ty q => some (layR 0 5 d.val a.val b.val ty.code q.val)
  | .sxRem d a b ty q => some (layR 0 6 d.val a.val b.val ty.code q.val)
  | .sxMin d a b ty q => some (layR 0 7 d.val a.val b.val ty.code q.val)
  | .sxMax d a b ty q => some (layR 0 8 d.val a.val b.val ty.code q.val)
  | .sxAnd d a b ty q => some (layR 0 9 d.val a.val b.val ty.code q.val)
  | .sxOr d a b ty q => some (layR 0 10 d.val a.val b.val ty.code q.val)
  | .sxXor d a b ty q => some (layR 0 11 d.val a.val b.val ty.code q.val)
  | .sxShl d a b ty q => some (layR 0 12 d.val a.val b.val ty.code q.val)
  | .sxShr d a b ty q => some (layR 0 13 d.val a.val b.val ty.code q.val)
  | .sxSra d a b ty q => some (layR 0 14 d.val a.val b.val ty.code q.val)
  | .sxClz d a ty q => some (layR 0 15 d.val a.val 0 ty.code q.val)
  | .sxCtz d a ty q => some (layR 0 16 d.val a.val 0 ty.code q.val)
  | .sxCnt d a ty q => some (layR 0 17 d.val a.val 0 ty.code q.val)
  | .sxExt d a b ty q => some (layR 0 18 d.val a.val b.val ty.code q.val)
  | .sxMov d a ty q => some (layR 0 19 d.val a.val 0 ty.code q.val)
  | .sxCeq d a b ty q => some (layR 0 20 d.val a.val b.val ty.code q.val)
  | .sxClt d a b ty q => some (layR 0 21 d.val a.val b.val ty.code q.val)
  | .sxCle d a b ty q => some (layR 0 22 d.val a.val b.val ty.code q.val)
  | .sxSel d a b ty q => some (layR 0 23 d.val a.val b.val ty.code q.val)
  | .sxQset d a ty q => some (layR 0 24 d.val a.val 0 ty.code q.val)
  | .sxFadd d a b r q => some (layR 0 32 d.val a.val b.val r.code q.val)
  | .sxFmul d a b r q => some (layR 0 33 d.val a.val b.val r.code q.val)
  | .sxFma d a b r q => some (layR 0 34 d.val a.val b.val r.code q.val)
  | .sxFceq d a b r q => some (layR 0 35 d.val a.val b.val r.code q.val)
  | .sxFclt d a b r q => some (layR 0 36 d.val a.val b.val r.code q.val)
  | .sxFcvi d a r q => some (layR 0 37 d.val a.val 0 r.code q.val)
  | .sxFcif d a r q => some (layR 0 38 d.val a.val 0 r.code q.val)
  | .siLi d k => some (layI 1 0 d.val k.toNat)
  | .siIh1 d k => some (layI 1 1 d.val k.toNat)
  | .siIh2 d k => some (layI 1 2 d.val k.toNat)
  | .siIh3 d k => some (layI 1 3 d.val k.toNat)
  | .siAddi d k => some (layI 1 4 d.val k.toNat)
  | .siOri d k => some (layI 1 5 d.val k.toNat)
  | .siCeqi d k => some (layI 1 6 d.val k.toNat)
  | .siClti d k => some (layI 1 7 d.val k.toNat)
  | .brJ k => some (layI 2 0 0 k.toNat)
  | .brCall d k => some (layI 2 1 d.val k.toNat)
  | .brBz d k => some (layI 2 2 d.val k.toNat)
  | .brBnz d k => some (layI 2 3 d.val k.toNat)
  | .brBlt d k => some (layI 2 4 d.val k.toNat)
  | .brBge d k => some (layI 2 5 d.val k.toNat)
  | .brBq d k => some (layI 2 6 d.val k.toNat)
  | .brBnq d k => some (layI 2 7 d.val k.toNat)
  | .brJr a => some (layR 2 8 0 a.val 0 0 0)
  | .brRet a => some (layR 2 9 0 a.val 0 0 0)
  | .brLvl a b l => some (layR 2 10 0 a.val b.val l.val 0)
  | .brLoop l n => some (layI 2 11 l.val n.val)
  | .brLend l a => some (layR 2 12 l.val a.val 0 0 0)
  | .brBud d => some (layR 2 13 d.val 0 0 0 0)
  | .adLd d p a b z q => some (layR 3 0 d.val (p.toNat * 16 + a.val) b.val z.code q.val)
  | .adSt d p a b z q => some (layR 3 1 d.val (p.toNat * 16 + a.val) b.val z.code q.val)
  | .adVld d p a b q => some (layR 3 2 d.val (p.toNat * 16 + a.val) b.val 0 q.val)
  | .adVst d p a b q => some (layR 3 3 d.val (p.toNat * 16 + a.val) b.val 0 q.val)
  | .adFld d p a b z q => some (layR 3 4 d.val (p.toNat * 16 + a.val) b.val z.code q.val)
  | .adFst d p a b z q => some (layR 3 5 d.val (p.toNat * 16 + a.val) b.val z.code q.val)
  | .adTch p a b q => some (layR 3 6 0 (p.toNat * 16 + a.val) b.val 0 q.val)
  | .adAdd d a b q => some (layR 3 7 d.val a.val b.val 0 q.val)
  | .adMov d b q => some (layR 3 8 d.val 0 b.val 0 q.val)
  | .adGet d a q => some (layR 3 9 d.val a.val 0 0 q.val)
  | .adAadd d a b o w q => some (layR 3 16 d.val a.val b.val (o.code * 2 + w.toNat) q.val)
  | .adAand d a b o w q => some (layR 3 17 d.val a.val b.val (o.code * 2 + w.toNat) q.val)
  | .adAor d a b o w q => some (layR 3 18 d.val a.val b.val (o.code * 2 + w.toNat) q.val)
  | .adAxor d a b o w q => some (layR 3 19 d.val a.val b.val (o.code * 2 + w.toNat) q.val)
  | .adAmin d a b o w q => some (layR 3 20 d.val a.val b.val (o.code * 2 + w.toNat) q.val)
  | .adAmax d a b o w q => some (layR 3 21 d.val a.val b.val (o.code * 2 + w.toNat) q.val)
  | .adNmin d a b o w q => some (layR 3 22 d.val a.val b.val (o.code * 2 + w.toNat) q.val)
  | .adNmax d a b o w q => some (layR 3 23 d.val a.val b.val (o.code * 2 + w.toNat) q.val)
  | .adXchg d a b o w q => some (layR 3 24 d.val a.val b.val (o.code * 2 + w.toNat) q.val)
  | .adCas d a b o w q => some (layR 3 25 d.val a.val b.val (o.code * 2 + w.toNat) q.val)
  | .adFadd d a b o q => some (layR 3 26 d.val a.val b.val (o.code * 2) q.val)
  | .adBadd d a b o q => some (layR 3 27 d.val a.val b.val (o.code * 2) q.val)
  | .vxAdd d a b f q r => some (layR 4 (0 + r.code) d.val a.val b.val f.code q.val)
  | .vxSub d a b f q r => some (layR 4 (4 + r.code) d.val a.val b.val f.code q.val)
  | .vxMul d a b f q r => some (layR 4 (8 + r.code) d.val a.val b.val f.code q.val)
  | .vxFma d a b f q r => some (layR 4 (12 + r.code) d.val a.val b.val f.code q.val)
  | .vxMin d a b f q => some (layR 4 16 d.val a.val b.val f.code q.val)
  | .vxMax d a b f q => some (layR 4 17 d.val a.val b.val f.code q.val)
  | .vxAbs d a f q => some (layR 4 18 d.val a.val 0 f.code q.val)
  | .vxNeg d a f q => some (layR 4 19 d.val a.val 0 f.code q.val)
  | .vxAnd d a b q => some (layR 4 20 d.val a.val b.val 0 q.val)
  | .vxOr d a b q => some (layR 4 21 d.val a.val b.val 0 q.val)
  | .vxXor d a b q => some (layR 4 22 d.val a.val b.val 0 q.val)
  | .vxNot d a q => some (layR 4 23 d.val a.val 0 0 q.val)
  | .vxShl d a b f q => some (layR 4 24 d.val a.val b.val f.code q.val)
  | .vxShr d a b f q => some (layR 4 25 d.val a.val b.val f.code q.val)
  | .vxSra d a b f q => some (layR 4 26 d.val a.val b.val f.code q.val)
  | .vxMulh d a b f q => some (layR 4 27 d.val a.val b.val f.code q.val)
  | .vxAdds d a b f q => some (layR 4 28 d.val a.val b.val f.code q.val)
  | .vxSubs d a b f q => some (layR 4 29 d.val a.val b.val f.code q.val)
  | .vxMov d a q => some (layR 4 30 d.val a.val 0 0 q.val)
  | .vxSel d a b q => some (layR 4 31 d.val a.val b.val 0 q.val)
  | .vxCeq d a b f q => some (layR 4 32 d.val a.val b.val f.code q.val)
  | .vxCne d a b f q => some (layR 4 33 d.val a.val b.val f.code q.val)
  | .vxClt d a b f q => some (layR 4 34 d.val a.val b.val f.code q.val)
  | .vxCle d a b f q => some (layR 4 35 d.val a.val b.val f.code q.val)
  | .vxQand d a b q => some (layR 4 36 d.val a.val b.val 0 q.val)
  | .vxQor d a b q => some (layR 4 37 d.val a.val b.val 0 q.val)
  | .vxQxor d a b q => some (layR 4 38 d.val a.val b.val 0 q.val)
  | .vxQnot d a q => some (layR 4 39 d.val a.val 0 0 q.val)
  | .vxPerm d a b q => some (layR 4 40 d.val a.val b.val 0 q.val)
  | .vxLsh d a b q => some (layR 4 41 d.val a.val b.val 0 q.val)
  | .vxLrot d a b q => some (layR 4 42 d.val a.val b.val 0 q.val)
  | .vxBcast d a f q => some (layR 4 43 d.val a.val 0 f.code q.val)
  | .vxExt d a b f q => some (layR 4 44 d.val a.val b.val f.code q.val)
  | .vxRadd d a f q => some (layR 4 45 d.val a.val 0 f.code q.val)
  | .vxRmax d a f q => some (layR 4 46 d.val a.val 0 f.code q.val)
  | .vxRmin d a f q => some (layR 4 47 d.val a.val 0 f.code q.val)
  | .vxRcp d a f q => some (layR 4 48 d.val a.val 0 f.code q.val)
  | .vxRsq d a f q => some (layR 4 49 d.val a.val 0 f.code q.val)
  | .vxExp2 d a f q => some (layR 4 50 d.val a.val 0 f.code q.val)
  | .vxLog2 d a f q => some (layR 4 51 d.val a.val 0 f.code q.val)
  | .vyCvt d a part sf f q r => some (layR 5 (0 + r.code) d.val a.val (part.val * 8 + sf.code) f.code q.val)
  | .vyCvs d a part sf f q => some (layR 5 4 d.val a.val (part.val * 8 + sf.code) f.code q.val)
  | .vyCvo d a part sf f q => some (layR 5 5 d.val a.val (part.val * 8 + sf.code) f.code q.val)
  | .vyPpk d a n3 sf n q => some (layR 5 6 d.val a.val (n3.toNat * 8 + sf.code) n.val q.val)
  | .vyPun d a n3 sf n q => some (layR 5 7 d.val a.val (n3.toNat * 8 + sf.code) n.val q.val)
  | .mxMma t z a lake f pl => some (layR 6 0 (t.val * 2 + z.toNat) (a.val * 2) (lake.val * 2) f.code pl.val)
  | .mxMms t z a lake f pl => some (layR 6 0 (t.val * 2 + z.toNat) (a.val * 2 + 1) (lake.val * 2) f.code pl.val)
  | .mxClr t q => some (layR 6 1 (t.val * 2) 0 0 0 q.val)
  | .mxDrn t clr a hi b q => some (layR 6 2 (t.val * 2 + clr.toNat) (a.val * 2 + hi.toNat) b.val 0 q.val)
  | .mxFil t a hi b q => some (layR 6 3 (t.val * 2) (a.val * 2 + hi.toNat) b.val 0 q.val)
  | .mxSt t out a f q => some (layR 6 4 (t.val * 2 + out.toNat) (a.val * 2) 0 f.code q.val)
  | .mxLd t a bf q => some (layR 6 5 (t.val * 2) (a.val * 2) 0 bf.toNat q.val)
  | .mxCmp a inc b f q => some (layR 6 6 0 (a.val * 2 + inc.toNat) b.val f.code q.val)
  | .mxTsr t b q => some (layR 6 7 (t.val * 2) 0 b.val 0 q.val)
  | .mxAcp t add src q => some (layR 6 8 (t.val * 2 + add.toNat) 0 (src.val * 2) 0 q.val)
  | .lkAlloc d a b f sp q => some (layR 7 0 d.val a.val b.val (f.code + 4 * sp.toNat) q.val)
  | .lkLoad a q => some (layR 7 1 0 a.val 0 0 q.val)
  | .lkPin a q => some (layR 7 2 0 a.val 0 0 q.val)
  | .lkUnpin a q => some (layR 7 3 0 a.val 0 0 q.val)
  | .lkRevk a q => some (layR 7 4 0 a.val 0 0 q.val)
  | .lkQry d a q => some (layR 7 5 d.val a.val 0 0 q.val)
  | .lkQuota a b q => some (layR 7 6 0 a.val b.val 0 q.val)
  | .lkSclr a q => some (layR 7 7 0 a.val 0 0 q.val)
  | .cpLvl d a b ch q => some (layR 8 0 d.val a.val b.val ch.val q.val)
  | .cpSrc a ch far q => some (layR 8 1 0 a.val 0 (ch.val + 4 * far.toNat) q.val)
  | .cpDst a ch far q => some (layR 8 2 0 a.val 0 (ch.val + 4 * far.toNat) q.val)
  | .cpBnd d a b ch q => some (layR 8 3 d.val a.val b.val ch.val q.val)
  | .cpGo a b ch dec q => some (layR 8 4 0 a.val b.val (ch.val + 4 * dec.toNat) q.val)
  | .cpWmk d ch q => some (layR 8 5 d.val 0 0 ch.val q.val)
  | .cpCncl ch q => some (layR 8 6 0 0 0 ch.val q.val)
  | .cpRpl a q => some (layR 8 7 0 a.val 0 0 q.val)
  | .cpBput a q => some (layR 8 8 0 a.val 0 0 q.val)
  | .cpBlat a q => some (layR 8 9 0 a.val 0 0 q.val)
  | .rsGo a q => some (layR 8 10 0 a.val 0 0 q.val)
  | .rsStat d q => some (layR 8 11 d.val 0 0 0 q.val)
  | .fxPush port b q => some (layR 9 0 (port.val / 2) (port.val % 2 * 16) b.val 0 q.val)
  | .fxPop port b q => some (layR 9 1 (port.val / 2) (port.val % 2 * 16) b.val 0 q.val)
  | .fxSt port a b w q => some (layR 9 2 (port.val / 2) (port.val % 2 * 16 + a.val) b.val w.val q.val)
  | .fxLd port a w q => some (layR 9 3 (port.val / 2) (port.val % 2 * 16 + a.val) 0 w.val q.val)
  | .fxAt port a b op q => some (layR 9 4 (port.val / 2) (port.val % 2 * 16 + a.val) b.val op.code q.val)
  | .fxRep port a b w q => some (layR 9 5 (port.val / 2) (port.val % 2 * 16 + a.val) b.val w.val q.val)
  | .fxMark port b q => some (layR 9 6 (port.val / 2) (port.val % 2 * 16) b.val 0 q.val)
  | .fxDrn b q => some (layR 9 7 0 0 b.val 0 q.val)
  | .fxMsg port b q => some (layR 9 8 (port.val / 2) (port.val % 2 * 16) b.val 0 q.val)
  | .fxLst port b q => some (layR 9 9 (port.val / 2) (port.val % 2 * 16) b.val 0 q.val)
  | .syFence ord sc q => some (layR 10 0 0 0 ord.code sc.code q.val)
  | .syXf paths q => some (layR 10 1 0 (paths.toNat / 2) (paths.toNat % 2 * 16) 0 q.val)
  | .syDrn d paths sc q => some (layR 10 2 d.val (paths.toNat / 2) (paths.toNat % 2 * 16) sc.code q.val)
  | .syWait d sc q => some (layR 10 3 d.val 0 0 sc.code q.val)
  | .syPhase d q => some (layR 10 4 d.val 0 0 0 q.val)
  | .syLcr d q => some (layR 10 5 d.val 0 0 0 q.val)
  | .trTrap k => some (layI 11 0 0 k.toNat)
  | .trRft q => some (layR 11 1 0 0 0 0 q.val)
  | .trRfu q => some (layR 11 2 0 0 0 0 q.val)
  | .trCsrr d n => some (layI 11 3 d.val n.val)
  | .trCsrw d n => some (layI 11 4 d.val n.val)
  | .trYld q => some (layR 11 5 0 0 0 0 q.val)
  | .trHalt q => some (layR 11 6 0 0 0 0 q.val)
  | .trKill a q => some (layR 11 7 0 a.val 0 0 q.val)
  | .scUse a b q => some (layR 12 0 0 a.val b.val 0 q.val)
  | .scLd d a b q => some (layR 12 1 d.val a.val b.val 0 q.val)
  | .scLdm a b q => some (layR 12 2 0 a.val b.val 0 q.val)
  | .pxRep n => some (layI 13 0 0 n.val)
  | .pxFirst l => some (layI 13 1 0 l.val)
  | .pxLast l => some (layI 13 2 0 l.val)
  | .pxSeg n => some (layI 13 3 0 n.val)
  | .issueCycle _ _ => none
  | .dcHello _ _ => none
  | .dcGet _ _ _ _ => none
  | .dcPut _ _ _ _ => none
  | .dcKick _ _ _ _ => none
  | .dcQcreate _ _ _ _ _ _ _ => none
  | .dcQdestroy _ _ _ => none
  | .dcQreset _ _ _ => none
  | .dcQstatus _ _ _ => none
  | .dcWindow _ _ _ _ _ => none
  | .dcLoad _ _ _ _ => none
  | .dcUnload _ _ _ => none
  | .dcQuiesce _ _ _ _ => none
  | .pkNop _ => none
  | .pkLaunch _ _ _ _ _ _ _ _ _ _ _ _ => none
  | .pkCall _ _ _ => none
  | .pkRet _ => none
  | .pkPred _ _ _ _ _ _ => none
  | .pkLoop _ _ _ => none
  | .pkFence _ => none
  | .pkWrite _ _ _ _ _ => none
  | .pkWait _ _ _ _ _ _ _ _ => none
  | .pkSignal _ _ _ => none
  | .pkStamp _ _ => none
  | .pkLakeRevoke _ _ _ _ => none
  | .pkLakeQuota _ _ _ => none
  | .pkReshard _ _ => none
  | .pkKill _ _ => none
  | .pkPreempt _ _ _ => none
  | .pkResume _ _ _ _ _ _ _ _ _ _ => none
  | .pkCrpl _ _ _ => none
  | .pkRing _ _ _ => none
  | .pkSteerInstall _ _ _ _ _ _ _ _ _ _ => none
  | .pkSteerRemove _ _ => none
  | .starvationPromotion _ => none
  | .registerResultLands _ _ => none
  | .queueLoadDataArrival _ _ => none
  | .queueStorePairing _ _ => none
  | .repeatReissue _ _ => none
  | .heldWritePerformed _ _ => none
  | .arrayOpComplete _ _ _ => none
  | .lakeFillStart _ _ _ => none
  | .lakeFillComplete _ _ _ _ => none
  | .klsvcRefill _ _ _ => none
  | .klsvcAccept _ _ _ => none
  | .klsvcRevoke _ _ _ => none
  | .copyTransferStart _ _ _ => none
  | .copyChunk _ _ _ _ => none
  | .pageWalkComplete _ _ _ _ => none
  | .farStorePerformed _ _ _ _ => none
  | .farLoadDataArrival _ _ _ _ => none
  | .kxinvWrite _ _ _ => none
  | .invalidationComplete _ _ => none
  | .invalidationTimeout _ _ => none
  | .touchExpiry _ _ _ => none
  | .drainComplete _ => none
  | .waitReread _ => none
  | .userInterruptTaken _ _ => none
  | .kuipWrite _ _ _ => none
  | .kbudgetWrite _ => none
  | .supervisorRecordDelivery => none
  | .preemption _ => none
  | .blockPullComplete _ _ _ _ _ => none
  | .blockWriteOut _ _ _ _ => none
  | .kisvcRetry _ => none
  | .kisvcAbandon _ => none
  | .segmentArrival _ _ _ => none
  | .engineAccessGuard _ _ _ => none
  | .clusterRetest _ => none
  | .hostPacketArrival _ _ _ => none
  | .deceoMessageReceived _ => none
  | .rdmaWrite _ _ _ => none
  | .rdmaRead _ _ _ => none
  | .siennaExecutiveCycle _ => none
  | .waitSatisfied _ _ => none
  | .waitPoll _ _ => none
  | .taskDispatch _ => none
  | .taskCompletion _ => none
  | .remoteRequestArrival _ _ => none
  | .remoteReplyArrival _ _ _ _ => none
  | .messageBufferRelease => none
  | .markerTimeout _ _ => none
  | .resendTimer _ _ => none
  | .peerTimeout _ _ => none
  | .sequenceMemoryExpiry _ _ => none
  | .creditReturn _ _ _ => none
  | .abortArrival _ => none
  | .signalLock _ => none
  | .trainingComplete _ _ _ => none
  | .signalLoss _ => none
  | .darkTimeout _ => none
  | .linkErrorFence _ _ => none
  | .kflctlFence _ => none
  | .kflctlUnfence _ => none
  | .kflctlRetrain _ => none
  | .planClaim _ => none
  | .planStep _ _ => none
  | .powerOnReset _ => none
  | .resetInput _ => none
  | .watchdogReset _ => none
  | .testRunJudged _ => none
  | .testRunTimeout _ => none
  | .mgIdentify => none
  | .mgSensors _ => none
  | .mgLogRead _ _ => none
  | .mgFwWrite _ _ _ _ => none
  | .mgFwActivate _ _ => none
  | .mgFwCommit _ _ => none
  | .fwRevert _ => none
  | .mgReset _ _ => none
  | .mgPowerCap _ _ => none
  | .mgProvision _ _ => none
  | .mgProtect _ _ _ => none
  | .mgUnprotect _ _ _ => none
  | .mgClusterState _ => none
  | .mgRepairRead _ => none
  | .mgSetKey _ _ _ _ => none
  | .spGetCertificate => none
  | .spChallenge _ => none
  | .spGetMeasurements _ => none
  | .spKeyExchange _ _ _ => none
  | .spFinish _ _ _ => none
  | .spKeyUpdate _ => none
  | .spHeartbeat _ => none
  | .spEndSession _ => none
  | .sessionExpiry _ => none
  | .sensorSample _ _ => none
  | .ptpLock _ _ => none
  | .retrainingFailed _ => none
  | .quiesceTimeout => none
  | .mainPowerLoss => none
  | .ochreReset => none
  | .packetForwarding _ _ => none
  | .flitCrcFailure _ => none

/-- The instruction the decoder reads from a table word (host interface): a slot is one 32-bit word, so the word is
decoded as it stands; bits above `nbits` are 0. -/
def decodeTableWord (nbits w : Nat) : Option Instr :=
  match decodeWord (w % 2 ^ min nbits 32) with
  | .ok i => some i
  | .error _ => none

end Sys2Proof
end

