-- ==== Sys2Proof/Config.lean ====
section
/-! DEFINITION. Config: what the spec leaves open or names without giving: free values, keys, and what firmware installs.
None has a body, so no proof can rest on a value of one. -/

namespace Sys2Proof.Config

/-- A free value: `freeValue n` is the n-th value the spec leaves open (DESIGN CHOICE, log entry 5). -/
opaque freeValue : Nat → BitVec 64

/-- Nanoseconds the device clock has advanced when a stamp is taken (R383), by free counter: wall time is not modelled
(DESIGN CHOICE, log entry 5). -/
opaque clockAdvance : Nat → Nat

/-- Ports on a minimal path to a device that no link of this device reaches directly, by the number of link state changes so
far and the device: the links of other devices decide it (R393). -/
opaque route : Nat → Nat → BitVec 48

/-- The number by which the error log names a cause of reset, POWER first (R444, R453). -/
opaque resetCode : Nat → BitVec 64

/-- Irgaolo's public key, a point of P-521, in Ochre's read-only memory (R454). -/
opaque vendorKey : Nat × Nat

/-- The code that firmware installs in physical segment 15 of every core's instruction memory at bring-up (R331;
DESIGN CHOICE, log entry 120). -/
opaque serviceCode : List Byte

/-- ksvec of every context slot as firmware sets it at bring-up (R352; DESIGN CHOICE, log entry 120). -/
opaque serviceVec : BitVec 64

/-- The device's certificate chain (R455). -/
opaque certChain : List Byte

/-- The signature of the identity key over a transcript (R455). -/
opaque identitySign : List Byte → List Byte

/-- Ochre's half of a key exchange, and the session keys it gives (R455). -/
opaque exchangeShare : Nat → List Byte

/-- Does a FINISH message verify: session, certificate and message (R455)? -/
opaque finishVerify : Nat → List Byte → List Byte → Bool

/-- Does the provisioning table of the device as it leaves manufacture list this certificate as a management peer's (R455,
R456)? -/
opaque factoryPeer : List Byte → Bool

/-- A measurement's encoding of the provisioning table and of the repair tables, whose bytes the spec does not lay out: the
entries in order (R455). -/
opaque tableBytes : List (List Nat) → List Byte

/-- A message of Ochre on the side band: its kind, whether it reports success, and its fields (R450, R451). -/
opaque sideMessage : Nat → Bool → List (List Byte) → List Byte

/-- A byte of a saved member's state that its image does not carry, on a device that did not save it: the member's logical
cycle, and which byte (DESIGN CHOICE, log entry 11). -/
opaque lostByte : Nat → Nat → BitVec 8

/-- The boot count that another device answers at an instant (numbered as the free values are), and none where it does not
answer within the peer timeout (R326; DESIGN CHOICE, log entry 15). -/
opaque peerBoot : Nat → Nat → Option (BitVec 32)

end Sys2Proof.Config
end

