-- ==== Sys2Proof/Machine/Float.lean ====
section
/-! DEFINITION. Float: the number formats (R20 to R34), exact values as dyadic numbers, one rounding function, and the
approximation functions (R169). Every result is computed exactly and rounded once. -/

namespace Sys2Proof.Machine

/-- An exact value read from a format: a NaN, an infinity (negative when `neg`), or (−1)^neg · m · 2^e, where
`m = 0` is a zero with its sign. -/
inductive FVal where
  | nan
  | inf (neg : Bool)
  | fin (neg : Bool) (m : Nat) (e : Int)
deriving DecidableEq, Repr

/-- A binary format: `p` significand bits, and the exponent of its smallest subnormal. -/
structure FFmt where
  p : Nat
  lsb : Int
deriving DecidableEq, Repr

/-- FP32 (R23). -/
def f32F : FFmt := ⟨24, -149⟩
/-- BF16 (R24). -/
def bf16F : FFmt := ⟨8, -133⟩

/-- Weight of the sign bit: the exponent field has 8 bits in both formats. -/
def FFmt.signBit (f : FFmt) : Nat := 256 * 2 ^ (f.p - 1)
/-- Code of +∞: exponent field 255, fraction 0. -/
def FFmt.infCode (f : FFmt) : Nat := 255 * 2 ^ (f.p - 1)
/-- The canonical quiet NaN (R27). -/
def FFmt.nanCode (f : FFmt) : Nat := f.infCode + 2 ^ (f.p - 2)

/-- The value of a code of a format (R23, R24). -/
def FFmt.read (f : FFmt) (code : Nat) : FVal :=
  let neg := f.signBit ≤ code
  let mag := code % f.signBit
  let ex := mag / 2 ^ (f.p - 1)
  let fr := mag % 2 ^ (f.p - 1)
  if ex = 255 then (if fr = 0 then .inf neg else .nan)
  else if ex = 0 then .fin neg fr f.lsb
  else .fin neg (2 ^ (f.p - 1) + fr) (f.lsb + (ex - 1))

/-- The code of an infinity or of an overflow in the rounding direction (R26). -/
def FFmt.overflow (f : FFmt) (r : Rnd) (neg : Bool) : Nat :=
  let away := match r with
    | .rne => true
    | .rtz => false
    | .rdn => neg
    | .rup => !neg
  (if away then f.infCode else f.infCode - 1) + (if neg then f.signBit else 0)

/-- Does a discarded remainder `rem` of `2 ^ sh` (with a nonzero tail when `sticky`) round the magnitude `n` up? -/
def roundsUp (r : Rnd) (neg : Bool) (n rem sh : Nat) (sticky : Bool) : Bool :=
  let inexact := rem ≠ 0 || sticky
  match r with
  | .rtz => false
  | .rdn => neg && inexact
  | .rup => !neg && inexact
  | .rne => sh ≠ 0 && (2 ^ sh < 2 * rem || (2 ^ sh = 2 * rem && (sticky || n % 2 = 1)))

/-- Round (−1)^neg · (m + tail) · 2^e to a format, where tail is 0, or some value between 0 and 1 when `sticky`
(then `m` must hold more bits than the format). Zero keeps its sign (R25, R26). -/
def FFmt.round (f : FFmt) (r : Rnd) (neg : Bool) (m : Nat) (e : Int) (sticky : Bool) : Nat :=
  let sign := if neg then f.signBit else 0
  if m = 0 ∧ sticky = false then sign
  else
    let q : Int := max (e + (Nat.log2 m : Int) - (f.p - 1 : Nat)) f.lsb
    let n' : Nat :=
      if q ≤ e then m * 2 ^ (e - q).toNat
      else
        let sh := (q - e).toNat
        let n := m / 2 ^ sh
        if roundsUp r neg n (m % 2 ^ sh) sh sticky then n + 1 else n
    let code := (q - f.lsb).toNat * 2 ^ (f.p - 1) + n'
    if f.infCode ≤ code then f.overflow r neg else code + sign

/-- Write a value in a format, rounded once; every NaN is canonical (R27). -/
def FFmt.write (f : FFmt) (r : Rnd) : FVal → Nat
  | .nan => f.nanCode
  | .inf neg => f.infCode + (if neg then f.signBit else 0)
  | .fin neg m e => f.round r neg m e false

/-- A signed integer as an exact value times 2^e; zero takes the sign given. -/
def FVal.ofInt (i : Int) (e : Int) (zeroNeg : Bool) : FVal :=
  if i = 0 then .fin zeroNeg 0 e else .fin (decide (i < 0)) i.natAbs e

/-- The exact sum; an exact zero sum keeps the sign of two like zeros and is otherwise +0, or −0 under RDN (R160). -/
def FVal.add (r : Rnd) : FVal → FVal → FVal
  | .nan, _ | _, .nan => .nan
  | .inf a, .inf b => if a = b then .inf a else .nan
  | .inf a, .fin .. => .inf a
  | .fin .., .inf b => .inf b
  | .fin na ma ea, .fin nb mb eb =>
    let e := min ea eb
    let x : Int := ma * 2 ^ (ea - e).toNat
    let y : Int := mb * 2 ^ (eb - e).toNat
    let z := (if na then -x else x) + (if nb then -y else y)
    let zeroNeg := if ma = 0 ∧ mb = 0 ∧ na = nb then na else r == .rdn
    FVal.ofInt z e zeroNeg

/-- The negated value. -/
def FVal.neg : FVal → FVal
  | .nan => .nan
  | .inf n => .inf !n
  | .fin n m e => .fin (!n) m e

/-- The exact product; 0 × ∞ is NaN (R41, R160). -/
def FVal.mul : FVal → FVal → FVal
  | .nan, _ | _, .nan => .nan
  | .inf a, .inf b => .inf (a != b)
  | .inf a, .fin b m _ => if m = 0 then .nan else .inf (a != b)
  | .fin a m _, .inf b => if m = 0 then .nan else .inf (a != b)
  | .fin a m e, .fin b n f => .fin (a != b) (m * n) (e + f)

/-- The value times 2^k, exactly. -/
def FVal.scale (k : Int) : FVal → FVal
  | .nan => .nan
  | .inf n => .inf n
  | .fin n m e => .fin n m (e + k)

/-- Round a value to an integer by a mode (R26, R34): the exact floor and remainder decide. -/
def roundInt (r : Rnd) (neg : Bool) (m : Nat) (e : Int) : Int :=
  if 0 ≤ e then
    let v : Int := m * 2 ^ e.toNat
    if neg then -v else v
  else
    let sh := (-e).toNat
    let n := m / 2 ^ sh
    let n' := if roundsUp r neg n (m % 2 ^ sh) sh false then n + 1 else n
    if neg then -(n' : Int) else n'

/-- Clamp to a range. -/
def clampInt (lo hi v : Int) : Int := if v < lo then lo else if hi < v then hi else v

/-- Conversion of a value to an integer range: rounded by the mode, saturated, NaN 0 (R34). -/
def FVal.toInt (r : Rnd) (lo hi : Int) : FVal → Int
  | .nan => 0
  | .inf n => if n then lo else hi
  | .fin n m e => clampInt lo hi (roundInt r n m e)

/-- Order of m · 2^e and n · 2^f. -/
def dyLe (m : Nat) (e : Int) (n : Nat) (f : Int) : Bool :=
  let g := min e f
  m * 2 ^ (e - g).toNat ≤ n * 2 ^ (f - g).toNat

/-! ### IEEE arithmetic on codes -/

/-- x + y in a format (R160). -/
def fAdd (f : FFmt) (r : Rnd) (x y : Nat) : Nat := f.write r ((f.read x).add r (f.read y))
/-- x − y in a format (R160). -/
def fSub (f : FFmt) (r : Rnd) (x y : Nat) : Nat := f.write r ((f.read x).add r (f.read y).neg)
/-- x × y in a format (R160). -/
def fMul (f : FFmt) (r : Rnd) (x y : Nat) : Nat := f.write r ((f.read x).mul (f.read y))
/-- x × y + d with one rounding (R160). -/
def fFma (f : FFmt) (r : Rnd) (x y d : Nat) : Nat := f.write r (((f.read x).mul (f.read y)).add r (f.read d))

/-- Is the code a NaN? -/
def fIsNan (f : FFmt) (x : Nat) : Bool := f.infCode < x % f.signBit
/-- Is the code an infinity? -/
def fIsInf (f : FFmt) (x : Nat) : Bool := x % f.signBit = f.infCode
/-- A key that orders codes by value, −0 below +0 (R162). -/
def fKey (f : FFmt) (x : Nat) : Int :=
  if f.signBit ≤ x then -((x % f.signBit : Nat) : Int) - 1 else (x % f.signBit : Nat)
/-- A key that orders codes by value, −0 equal to +0 (R151, R166). -/
def fVal (f : FFmt) (x : Nat) : Int :=
  if f.signBit ≤ x then -((x % f.signBit : Nat) : Int) else (x % f.signBit : Nat)
/-- Equality by IEEE 754. -/
def fEq (f : FFmt) (x y : Nat) : Bool := !fIsNan f x && !fIsNan f y && fVal f x == fVal f y
/-- Less by IEEE 754. -/
def fLt (f : FFmt) (x y : Nat) : Bool := !fIsNan f x && !fIsNan f y && fVal f x < fVal f y
/-- Less or equal by IEEE 754. -/
def fLe (f : FFmt) (x y : Nat) : Bool := !fIsNan f x && !fIsNan f y && fVal f x ≤ fVal f y
/-- The smaller, −0 below +0; NaN if either is (R162). -/
def fMin (f : FFmt) (x y : Nat) : Nat :=
  if fIsNan f x || fIsNan f y then f.nanCode else if fKey f x ≤ fKey f y then x else y
/-- The larger, −0 below +0; NaN if either is (R162). -/
def fMax (f : FFmt) (x y : Nat) : Nat :=
  if fIsNan f x || fIsNan f y then f.nanCode else if fKey f x ≤ fKey f y then y else x
/-- The sign bit cleared; NaN canonical (R162). -/
def fAbs (f : FFmt) (x : Nat) : Nat := if fIsNan f x then f.nanCode else x % f.signBit
/-- The sign bit inverted; NaN canonical (R162). -/
def fNeg (f : FFmt) (x : Nat) : Nat :=
  if fIsNan f x then f.nanCode else if f.signBit ≤ x then x - f.signBit else x + f.signBit

/-! ### Tapered formats (R28 to R33) -/

/-- Length of the run of bits equal to `lead` from bit `i − 1` downward (R28). -/
def runLen (m : Nat) (lead : Bool) : Nat → Nat
  | 0 => 0
  | i + 1 => if bitAt m i == lead then runLen m lead i + 1 else 0

/-- TaperedValue (R28) as significand and exponent, for a magnitude code of `w` bits that is not 0. -/
def taperedValue (m w : Nat) : Nat × Int :=
  let lead := bitAt m (w - 1)
  let k := runLen m lead w
  let r : Int := if lead then (k : Int) - 1 else -(k : Int)
  let pos := w - k - 1            -- bits below the terminator
  let e : Nat := if 0 < pos then m / 2 ^ (pos - 1) % 2 else 0
  let nf := pos - 1
  (2 ^ nf + m % 2 ^ nf, 2 * r + e - nf)

/-- TaperedDecode (R28): the value of a code of `w + 1` bits. -/
def taperedRead (code w : Nat) : FVal :=
  let s := bitAt code w
  let m := code % 2 ^ w
  if m = 0 then (if s then .nan else .fin false 0 0)
  else
    let v := taperedValue m w
    .fin s v.1 v.2

/-- The largest magnitude code whose value is at most m · 2^e, by its bits from the top. -/
def taperedFloor (w m : Nat) (e : Int) : Nat → Nat → Nat
  | 0, c => c
  | i + 1, c =>
    let c' := c + 2 ^ i
    let v := taperedValue c' w
    taperedFloor w m e i (if dyLe v.1 v.2 m e then c' else c)

/-- What a conversion to a tapered format gives: a code, or an outlier of that sign. -/
inductive Tapered where
  | code (c : Nat)
  | outlier
deriving DecidableEq, Repr

/-- ToTapered (R33); with `out` a value above maxpos is an outlier, else it saturates. -/
def toTapered (w : Nat) (out : Bool) : FVal → Tapered
  | .nan => .code (2 ^ w)
  | .inf s => if out then .outlier else .code ((if s then 2 ^ w else 0) + (2 ^ w - 1))
  | .fin s m e =>
    let sg := if s then 2 ^ w else 0
    if m = 0 then .code 0
    else
      let top := taperedValue (2 ^ w - 1) w
      let bot := taperedValue 1 w
      if !dyLe m e top.1 top.2 then (if out then .outlier else .code (sg + (2 ^ w - 1)))
      else if !dyLe bot.1 bot.2 m e then
        (if dyLe m e bot.1 (bot.2 - 1) then .code 0 else .code (sg + 1))
      else
        let c := taperedFloor w m e w 0
        let v := taperedValue c w
        if dyLe m e v.1 v.2 then .code (sg + c)
        else
          let t := taperedValue (2 * c + 1) (w + 1)
          if !dyLe t.1 t.2 m e then .code (sg + c)
          else if !dyLe m e t.1 t.2 then .code (sg + c + 1)
          else if c % 2 = 0 then .code (sg + c) else .code (sg + c + 1)

/-! ### Approximation functions (R169) -/

/-- Fraction bits of the fixed-point numbers below: far more than the 24 bits of FP32 need (DEDUCED, log entry 7). -/
def fixBits : Nat := 320

/-- 2^−1/n as a fixed-point quotient series: Σ t^(2k+1) / (2k+1), from term `k` on, with `p = t^(2k+1)` and
`t2 = t²` in fixed point. -/
def atanhSum (t2 : Nat) : Nat → Nat → Nat → Nat
  | 0, _, _ => 0
  | n + 1, k, p => p / (2 * k + 1) + atanhSum t2 n (k + 1) (p * t2 / 2 ^ fixBits)

/-- ln z for a fixed-point z from 1 to 2: 2 · atanh((z − 1)/(z + 1)). -/
def lnFix (z : Nat) : Nat :=
  let one := 2 ^ fixBits
  let t := (z - one) * one / (z + one)
  2 * atanhSum (t * t / one) 110 0 t

/-- ln 2 in fixed point. -/
def ln2Fix : Nat := lnFix (2 ^ (fixBits + 1))

/-- Σ y^j / j! in fixed point, from the term `p = y^k / k!` on. -/
def expSum (y : Nat) : Nat → Nat → Nat → Nat
  | 0, _, _ => 0
  | n + 1, k, p => p + expSum y n (k + 1) (p * y / 2 ^ fixBits / (k + 1))

/-- Square root by bits: the largest `x < 2 ^ n` above `c` with x² ≤ v. -/
def isqrtBits (v : Nat) : Nat → Nat → Nat
  | 0, c => c
  | i + 1, c => isqrtBits v i (if (c + 2 ^ i) * (c + 2 ^ i) ≤ v then c + 2 ^ i else c)

/-- 1/x as FP32 (R169). -/
def rcpF32 (x : Nat) : Nat :=
  match f32F.read x with
  | .nan => f32F.nanCode
  | .inf n => if n then f32F.signBit else 0
  | .fin n m e =>
    if m = 0 then f32F.write .rne (.inf n)
    else f32F.round .rne n (2 ^ 64 / m) (-64 - e) (2 ^ 64 % m ≠ 0)

/-- 1/√x as FP32 (R169). -/
def rsqF32 (x : Nat) : Nat :=
  match f32F.read x with
  | .nan => f32F.nanCode
  | .inf n => if n then f32F.nanCode else 0
  | .fin n m e =>
    if m = 0 then f32F.write .rne (.inf n)
    else if n then f32F.nanCode
    else
      let m' := if e % 2 = 0 then m else 2 * m
      let e' := if e % 2 = 0 then e else e - 1
      let q := isqrtBits (2 ^ 128 / m') 65 0
      f32F.round .rne false q (-64 - e' / 2) (q * q * m' ≠ 2 ^ 128)

/-- 2^x as FP32 (R169): x = n + f with 0 ≤ f < 1, and 2^f = exp(f · ln 2). -/
def exp2F32 (x : Nat) : Nat :=
  match f32F.read x with
  | .nan => f32F.nanCode
  | .inf n => if n then 0 else f32F.infCode
  | .fin neg m e =>
    if !dyLe m e 256 0 then (if neg then 0 else f32F.infCode)
    else
      let fx : Int := (m : Int) * 2 ^ (e + fixBits).toNat
      let v := if neg then -fx else fx
      let n := v / 2 ^ fixBits
      let fr := (v % 2 ^ fixBits).toNat
      if fr = 0 then f32F.round .rne false 1 n false
      else f32F.round .rne false (expSum (fr * ln2Fix / 2 ^ fixBits) 90 0 (2 ^ fixBits)) (n - fixBits) true

/-- log2 x as FP32 (R169): x = 2^n · z with 1 ≤ z < 2, and log2 x = n + ln z / ln 2. -/
def log2F32 (x : Nat) : Nat :=
  match f32F.read x with
  | .nan => f32F.nanCode
  | .inf n => if n then f32F.nanCode else f32F.infCode
  | .fin neg m e =>
    if m = 0 then f32F.write .rne (.inf true)
    else if neg then f32F.nanCode
    else
      let k := Nat.log2 m
      let n : Int := e + k
      if m = 2 ^ k then f32F.write .rne (FVal.ofInt n 0 false)
      else
        let l : Int := lnFix (m * 2 ^ (fixBits - k)) * 2 ^ fixBits / ln2Fix
        let v := n * 2 ^ fixBits + l
        f32F.round .rne (decide (v < 0)) v.natAbs (-(fixBits : Int)) true

/-- A function on FP32 applied to a BF16 code: widened exactly, rounded once more to BF16 (R169). -/
def viaF32 (g : Nat → Nat) (x : Nat) : Nat := bf16F.write .rne (f32F.read (g (x * 65536)))

end Sys2Proof.Machine
end

