-- ==== Sys2Proof/Machine/State.lean ====
section
/-! DEFINITION. State: every piece of state the spec gives the device, as plain data, its reset value, and the reasons a
step can stop. Operations on it stand in Ops.lean and after. -/

namespace Sys2Proof.Machine

/-- A sparse map in canonical form: keys strictly rising, no entry equal to what an unlisted key reads as. -/
abbrev SMap (α : Type) := List (Nat × α)

/-- Bytes of a memory by address; what an unlisted address reads as is `Memory.blank` (Ops.lean; DESIGN CHOICE, log entry 3). -/
abbrev Memory := List Host.Cell

/-! ### A context (one member of a gang) -/

/-- The register files a result can be bound for; the order is that of R315. `ss`, `sa`, `sq` are the service bank's
(R332), written by handler results only. -/
inductive RFile where
  | s | a | v | q | e | h | ss | sa | sq
deriving DecidableEq, Repr

/-- A release whose value a read saw, for a later acquire fence (R289): its shadow entry, the sector's entry as the read
found it (R305), the sector's address, whether that is a far address, whether an address slot or a wait read it (R304), and
the path of the read (R305). -/
structure RelRead where
  ent : Lane
  cur : Lane
  addr : Nat
  far : Bool
  slot : Bool
  path : Nat
deriving DecidableEq, Repr

/-- What the race detector keeps of a 64 B sector: the shadow entry (R301), whose SCOPE resets to 7; and, beside the
hardware's entry, the bytes of the recorded write (R292) and the releases that bytes of the sector carry, which atomics
continue (R291): bytes and entry (DESIGN CHOICE, log entry 102). -/
structure Shadow where
  ent : Lane := 28
  mask : Word := 0
  heads : List (Word × Lane) := []
deriving DecidableEq, Repr

/-- A register result not yet visible (R9, R114): the bits of `mask` take those of `val` at logical cycle `due`, or,
for a handler result (R337), in wall cycle `due` of the cluster. -/
structure Result where
  due : Nat
  file : RFile
  num : Nat
  mask : Vec
  val : Vec
  /-- the far load (by its number in the far-data queue) whose data it awaits, if any (R276) -/
  far : Option Nat
  /-- the releases whose values its far load read, noted once it is visible (R289) -/
  rels : List RelRead := []
deriving DecidableEq, Repr

/-- An entry of the load-address queue (R139): its data, read at issue, arrive at `arrive`. -/
structure LaqEntry where
  vec : Bool
  arrive : Nat
  data : Vec
  /-- an atomic with D = s31: it leaves the LAQ without entering the LDQ (R192) -/
  atomic : Bool
deriving DecidableEq, Repr

/-- An entry of the store-address queue (R190). -/
structure SaqEntry where
  vec : Bool
  bytes : Nat
  ea : Nat
  lanes : Word
deriving DecidableEq, Repr

/-- An entry of a store-data queue, present from logical cycle `present` (R140). -/
structure SdqEntry where
  present : Nat
  data : Vec
deriving DecidableEq, Repr

/-- A sequencer level (R124). `cap` is the loop buffer's state for its body: 0 nothing held, 1 this pass is being
captured, 2 captured (R126). -/
structure LevelSt where
  active : Bool := false
  stop : Bool := false
  count : Nat := 0
  index : Nat := 0
  start : Nat := 0
  len : Nat := 0
  strides : List (Nat × Word) := []
  cap : Nat := 0
deriving DecidableEq, Repr

/-- A px.rep in progress (R131): the operation reissued, the next reissue `k`, those remaining, and when it is due. -/
structure Repeat where
  remaining : Nat
  k : Nat
  tile : Nat
  lake : Nat
  z : Bool
  sp : Bool
  fmt : MFmt
  pl : Fin 8
  /-- the registers sc.use named: 0 and 0 without sc.use (e0 reads 0) -/
  eA : EReg
  eB : EReg
  areg : AReg
  base : Word
  dop : Nat
  due : Nat
deriving DecidableEq, Repr

/-- A tile status due at a logical cycle (R43). -/
structure PendStatus where
  tile : Nat
  due : Nat
  val : Word
deriving DecidableEq, Repr

/-- An accumulator tile of a context (R202 to R210): `touched` says it has a saved copy (R309), `present` that it holds
a frame, `busy` counts accepted array operations that name it. `pres` is its presence bit as kpres shows it: PRESENT from
dispatch (R311), though a tile never touched holds no frame yet (R203). -/
structure TileSt where
  present : Bool := false
  touched : Bool := false
  busy : Nat := 0
  kts : Word := 0
  pres : Bool := true
deriving DecidableEq, Repr

/-- FILL of a lake slot (R224). -/
inductive Fill where
  | none | filling | filled
deriving DecidableEq, Repr

/-- A lake slot (R224). `ext` remembers a revocation from outside (R238) for the fault's cause; `watch` is the
watch-table index of a pinned lake, `wdev` the device that holds it; `inuse` counts accepted operations. `pend` says a
requested fill has not claimed its array slot yet. -/
structure LakeSt where
  bound : Bool := false
  gen : BitVec 32 := 0
  src : Nat := 0
  fmt : MFmt := .t8
  sparse : Bool := false
  fill : Fill := .none
  pend : Bool := false
  pinned : Bool := false
  stale : Bool := false
  fillErr : Option Nat := none
  ext : Bool := false
  inuse : Nat := 0
  watch : Nat := 0
  wdev : Nat := 0
deriving DecidableEq, Repr

/-- STATE of a copy channel (R252). -/
inductive ChState where
  | idle | running | suspended
deriving DecidableEq, Repr

/-- A level of a copy channel (R254, R255). -/
structure ChLevel where
  count : Nat := 1
  cdim : Nat := 7
  cstep : Int := 0
  sstr : Int := 0
  dstr : Int := 0
deriving DecidableEq, Repr

/-- A coordinate of a copy channel (R255). -/
structure ChCoord where
  org : Int := 0
  ext : Nat := 0
deriving DecidableEq, Repr

/-- A copy channel of a context (R251 to R261). -/
structure ChanSt where
  state : ChState := .idle
  levels : Vector ChLevel 6 := Vector.replicate 6 {}
  coords : Vector ChCoord 6 := Vector.replicate 6 {}
  fill : Word := 0
  sbase : Word := 0
  dbase : Word := 0
  sfar : Bool := false
  dfar : Bool := false
  size : Nat := 0
  irq : Bool := false
  dec : Bool := false
  cwfar : Bool := false
  cw : Nat := 0
  index : Vector Nat 6 := Vector.replicate 6 0
  offset : Nat := 0
  wmk : Nat := 0
  /-- the transfer has begun on the core's channel (R251) -/
  begun : Bool := false
  /-- INTERVAL of the context at the start, for the shadow entries of the engine's writes (R301) -/
  ival : Nat := 0
deriving DecidableEq, Repr

/-- A touch entry (R273): live for bundles from `live` to `exp`. -/
structure Touch where
  region : Nat
  page : Nat
  w : Bool
  live : Nat
  exp : Nat
  /-- invalidations written so far when the region was walked (R279) -/
  inv : Nat := 0
deriving DecidableEq, Repr

/-- An access in the far-data queue (R276, R277), in issue order; `id` names it for the load's result. -/
structure FarOp where
  id : Nat
  store : Bool
  /-- physical address -/
  pa : Nat
  /-- virtual address, for the fault record and the shadow entry -/
  va : Nat
  bytes : Nat
  data : Word
  /-- a load's data have arrived -/
  done : Bool
  /-- the shadow entry a store leaves (R301), but for its INTERVAL, which is the context's when it is performed (R295) -/
  ent : Lane
  /-- issued by a service handler, whose faults are DOUBLE_FAULT (R338) -/
  svc : Bool := false
  /-- number of the last invalidation written before the walk its page comes from (R279) -/
  inv : Nat := 0
deriving DecidableEq, Repr

/-- A fixed-cycle scratchpad write or outlier append still due (R37, R207, R318). `bytes` carries the bytes;
`app` an append for a tapered element (R318): the element's index, its value as FP32, TARGET and the base address. -/
inductive HeldKind where
  | bytes (addr : Nat) (data : List Byte)
  | app (index : Nat) (src : Lane) (target : Nat) (base : Nat) (t6 : Bool)
deriving DecidableEq, Repr

/-- A held write with its logical cycle (R318); `mx` for the MX path, else AS (vy.cvo). -/
structure Held where
  due : Nat
  kind : HeldKind
  mx : Bool
deriving DecidableEq, Repr

/-- The second read of an mx.ld of 8 KiB or of an mx.mms, due one logical cycle after its issue (R207): `planes` is 0
for the load, and the planes of the second stored tile otherwise. -/
structure PendRead where
  due : Nat
  addr : Nat
  planes : Nat
  tile : Nat
deriving DecidableEq, Repr

/-- An entry of the seen table (R302). -/
structure Seen where
  who : Nat
  epoch : Nat
  interval : Nat
  age : Nat
deriving DecidableEq, Repr

/-- A word of an inbound FIFO (R399): data, a failure word, or an abort word. -/
inductive FWord where
  | data (w : Word)
  | fail
  | abort (group : Nat)
deriving DecidableEq, Repr

/-- A FIFO pair of one port (R394): the inbound words, words reserved for replies, and the outbound words of a message
not complete, with the words it still expects. -/
structure Fifo where
  ib : List FWord := []
  resv : Nat := 0
  ob : List Word := []
  /-- words of complete packets that still wait in the outbound FIFO for the link -/
  obBusy : Nat := 0
  openLen : Nat := 0
deriving DecidableEq, Repr

/-- Phase counters (R117). -/
structure PhaseCnt where
  lbusy : Nat := 0
  lidle : Nat := 0
  wfrozen : Nat := 0
  wsecond : Nat := 0
deriving DecidableEq, Repr

/-- The outlier-ring registers of a context (R35): OLFULL, BASE, CAP, and koln's TAKE and PUT. -/
structure RingRegs where
  full : Bool
  base : Nat
  cap : Nat
  take : BitVec 32
  put : BitVec 32
deriving DecidableEq, Repr

/-- A member context (R102): everything a running context holds. -/
structure Ctx where
  core : Nat
  halted : Bool := false
  /-- s1–s30; entries 0 and 31 stay 0 -/
  s : Vector Word 32 := Vector.replicate 32 0
  a : Vector Word 16 := Vector.replicate 16 0
  v : Vector Vec 32 := Vector.replicate 32 0
  q : Vector Word 8 := Vector.replicate 8 0
  e : Vector (BitVec 8) 8 := Vector.replicate 8 0
  /-- h24–h31 -/
  h : Vector Word 8 := Vector.replicate 8 0
  /-- the service bank (R332) -/
  ss : Vector Word 32 := Vector.replicate 32 0
  sa : Vector Word 16 := Vector.replicate 16 0
  sq : Vector Word 8 := Vector.replicate 8 0
  /-- byte address of the next gang bundle -/
  pc : Nat := 0
  /-- byte address of the next handler bundle (R352) -/
  hpc : Nat := 0
  results : List Result := []
  /-- handler results, due in wall cycles (R337) -/
  hresults : List Result := []
  laq : List LaqEntry := []
  ldq : List Word := []
  vldq : List Vec := []
  saq : List SaqEntry := []
  sdq : List SdqEntry := []
  vsdq : List SdqEntry := []
  run : Nat := 0
  levels : Vector LevelSt 6 := Vector.replicate 6 {}
  rep : Option Repeat := none
  /-- first logical cycle at which the M unit is free (R208) -/
  mFree : Nat := 0
  phase : Nat := 0
  cnt : PhaseCnt := {}
  interval : Nat := 0
  seen : List Seen := []
  /-- scope of the last release fence, 7 before any: later AS writes are releases at it (R289) -/
  relScope : Nat := 7
  /-- releases read and not yet acquired by a fence (R289) -/
  relReads : List RelRead := []
  /-- MODE (R331): 0 RUN, 1 UIH, 2 and 3 SVC -/
  mode : Nat := 0
  /-- the handler bundle at kuvec has not issued yet (R345) -/
  hfirst : Bool := false
  /-- a tr.rft (1) or tr.rfu (2) has issued and its return waits for handler results (R337) -/
  hret : Nat := 0
  kcause : Word := 0
  ktval : Word := 0
  kepc : Word := 0
  kuvec : Word := 0
  kuie : Word := 0
  kuip : Word := 0
  kucause : Word := 0
  kuepc : Word := 0
  /-- rings with a pending packet-arrival flag (R198), by rule index -/
  pktRings : List Nat := []
  /-- argument of a pending MSG and CW interrupt (R346) -/
  msgArg : Nat := 0
  cwArg : Nat := 0
  kfdlat : Nat := 1536
  kfsr : Word := 0
  kcfg : Word := 0
  kfst : Word := 0
  kfmie : Word := 0
  olfull : Bool := false
  olbase : Nat := 0
  olcap : Nat := 0
  oltake : BitVec 32 := 0
  olput : BitVec 32 := 0
  tiles : Vector TileSt 16 := Vector.replicate 16 {}
  /-- elements of the tiles: key 2048 · tile + 128 · row + column; an unlisted element is +0 -/
  acc : SMap Lane := []
  pend : List PendStatus := []
  lakes : Vector LakeSt 16 := Vector.replicate 16 {}
  chans : Vector ChanSt 4 := Vector.replicate 4 {}
  touches : Vector (Option Touch) 8 := Vector.replicate 8 none
  farq : List FarOp := []
  /-- number for the next far access -/
  farId : Nat := 0
  held : List Held := []
  reads : List PendRead := []
  fifos : Vector Fifo 48 := Vector.replicate 48 {}
  /-- presence of the scalar block and the vector blocks (R307, R311) -/
  presS : Bool := true
  presV : Vector Bool 8 := Vector.replicate 8 true
  /-- touched since dispatch (R309) -/
  touchS : Bool := false
  touchV : Vector Bool 8 := Vector.replicate 8 false
  /-- the Madder plan the context started last: plan area and state (R433, R434) -/
  rsArea : Nat := 0
  /-- physical segment of each logical segment, newest request first: (logical, physical, arrived) (R381) -/
  segs : List (Nat × Nat × Bool) := []
  /-- logical segments requested, newest last (R382) -/
  segReq : List Nat := []
deriving DecidableEq, Repr

/-! ### Gangs and tasks -/

/-- The fields of a task record that bind a running task (R96), with its bytes for the image header. -/
structure TaskRec where
  gang : Nat := 1
  nseg : Nat := 1
  budget : Nat := 4096
  spadBase : Nat := 0
  spadSize : Nat := 0
  olBase : Nat := 0
  olCap : Nat := 0
  groups : List Nat := []
  releases : List Nat := []
  entries : List Nat := []
  bytes : List Byte := []
deriving DecidableEq, Repr

/-- A save pool record (R376). -/
structure SavePool where
  sdesc : Nat
  sabase : Nat
  sasize : Nat
  ibase : Nat
  flush : Bool
deriving DecidableEq, Repr

/-- What a launch or resume asks for its task (R367, R376): the queue that carried it, its descriptor and owner, and
the packet's operands. -/
structure Launch where
  queue : Nat := 0
  prio : Nat := 0
  svc : Bool := false
  /-- 255: any -/
  cluster : Nat := 255
  /-- 0: any -/
  cmask : Nat := 0
  iseg : Nat := 0
  xdesc : Nat := 0
  /-- the queue's descriptor, under which packet addresses translate -/
  qdesc : Nat := 0
  cw : Nat := 0
  crec : Nat := 0
  phaseArea : Nat := 0
  savep : Option SavePool := none
  /-- image id of a LAUNCH; for a RESUME the image base -/
  image : Nat := 0
  resume : Bool := false
  /-- address of the save pool record, kept for the save area (R385) -/
  savepAddr : Nat := 0
  /-- launch time of a task that was pre-empted and waits to be resumed (R378, R385) -/
  time : Option (Nat × Nat) := none
  /-- a test run of stage 2 (R447), without a queue -/
  test : Bool := false
deriving DecidableEq, Repr

/-- Why and how a pre-emption was asked (R316, R462). -/
structure PreReq where
  why : Nat
  pool : Option SavePool
  detach : Bool
deriving DecidableEq, Repr

/-- A kill that waits for the next boundary: code, reason, argument, ktval (R348, R349). -/
structure KillReq where
  code : Nat
  reason : Nat
  arg : Nat
  tval : Word
  member : Nat
deriving DecidableEq, Repr

/-- What a gang is frozen on (R204, R228): a claim of a frame, a lake fill. -/
structure Claim where
  frame : Bool := false
  lake : Bool := false
deriving DecidableEq, Repr

/-- A gang (R103 to R116). -/
structure Gang where
  /-- task identity (R375) -/
  id : Nat
  cluster : Nat
  slot : Nat
  prio : Nat := 0
  members : List Ctx
  lc : Nat := 0
  /-- starvation count, and promotion for the next bundle (R111) -/
  starve : Nat := 0
  promoted : Bool := false
  /-- wall cycle of the last issue, or of dispatch (R107) -/
  last : Nat := 0
  task : TaskRec := {}
  launch : Launch := {}
  /-- SVC of R333 -/
  svc : Bool := false
  tenant : Nat := 0
  conf : Bool := false
  /-- effective budget and the device limit at launch (R123) -/
  budget : Nat := 4096
  kbudget : Nat := 4096
  /-- loaded image the segments come from -/
  image : Nat := 0
  /-- launch time: seconds, nanoseconds -/
  time : Nat × Nat := (0, 0)
  /-- the PHASE_AREA report has been made (R118) -/
  phaseBad : Bool := false
  /-- service calls that wait at the boundary: member, ktval, return address (R335, R340) -/
  calls : List (Nat × Word × Nat) := []
  kill : Option KillReq := none
  preempt : Option PreReq := none
  /-- tr.yld was performed (R354) -/
  yld : Bool := false
  /-- absent scratchpad blocks of a resumed gang (R307) -/
  absent : List Nat := []
  /-- image the gang was resumed from, where absent blocks are pulled (R326) -/
  fromImage : Option Nat := none
  claim : Claim := {}
  /-- pulls requested and not complete (R310): KIND as R313, member, block -/
  pulls : List (Nat × Nat × Nat) := []
  /-- touch regions of a resumed gang still to be walked: member, touch entry (R280) -/
  walks : List (Nat × Nat) := []
  /-- stopped at a boundary for its pre-emption although it holds writes (R317 step 1) -/
  stopped : Bool := false
  /-- the kill code, once killed; the gang then only waits for its completion (R348, R378) -/
  killed : Option Word := none
deriving DecidableEq, Repr

/-! ### Cores and clusters -/

/-- An accepted array operation in a core's engine queue (R209, R213): the planes it read, by code of each position. -/
structure ArrayOp where
  gang : Nat
  member : Nat
  tile : Nat
  lake : Nat
  z : Bool
  sp : Bool
  fmt : MFmt
  pl : Fin 8
  /-- bytes of the planes of the one or two stored tiles read -/
  x0 : List (List Byte)
  x1 : List (List Byte)
  scale : Int
  /-- k for reissue k of a repeat, else 0 (R131, R248) -/
  reissue : Nat
  /-- weights held at acceptance (R231): index in the core's array slots -/
  aslot : Nat
  /-- the second stored tile is still to be read -/
  wait : Bool
  /-- wall cycles left -/
  left : Nat
deriving DecidableEq, Repr

/-- A frame of an accumulator store (R202, R206, R307). -/
inductive Frame where
  | free
  | retired
  | held (gang member tile : Nat)
  | owned (ibase member tile : Nat)
deriving DecidableEq, Repr

/-- An array slot (R223): free, or the lake it holds with its weights, source bytes as filled; `zombie` when its lake
was revoked or evicted while in use. `src` is the source it was filled from and `gen` the lake's generation, for the refill
of R239. -/
structure ArrSlot where
  gang : Nat
  member : Nat
  lake : Nat
  gen : BitVec 32
  src : Nat
  fmt : MFmt
  sparse : Bool
  bytes : List Byte
  inuse : Nat
  zombie : Bool
  filled : Bool
deriving DecidableEq, Repr

/-- A core's shared state. -/
structure Core where
  frames : Vector Frame 16 := Vector.replicate 16 .free
  engine : List ArrayOp := []
  arr : Vector (Option ArrSlot) 16 := Vector.replicate 16 none
  /-- transfers started on each channel, oldest first: gang, member (R251) -/
  chq : Vector (List (Nat × Nat)) 4 := Vector.replicate 4 []
  /-- owner of each physical instruction segment: gang, member (R381) -/
  segOwner : Vector (Option (Nat × Nat)) 16 := Vector.replicate 16 none
  imem : Memory := []
  /-- ksvec of each context slot, where service code has written it since bring-up (R352) -/
  ksvec : Vector (Option Word) 4 := Vector.replicate 4 none
  /-- dispatches of each context slot, for the epoch of shadow entries (R301) -/
  epoch : Vector Nat 4 := Vector.replicate 4 0
deriving DecidableEq, Repr

/-- State of a cluster (R441). -/
inductive ClState where
  | offline | testing | online | failed
deriving DecidableEq, Repr

/-- A cluster's shared state. -/
structure Cluster where
  spad : Memory := []
  state : ClState := .offline
  /-- fenced, and not yet tested again (R200, R443) -/
  fenced : Bool := false
  wall : Nat := 0
  /-- bank rows an engine has reserved ahead of every gang (R184): bank, row -/
  guard : List (Nat × Nat) := []
  /-- shadow entries by sector (R301) -/
  shadow : SMap Shadow := []
  /-- test runs begun since it entered TESTING (R442) -/
  runs : Nat := 0
  /-- STATUS of the run that has ended and waits for its judgement (R449) -/
  run : Option Nat := none
  /-- scratchpad blocks owned by saved images: block, image base, image block (R307) -/
  owned : List (Nat × Nat × Nat) := []
deriving DecidableEq, Repr

/-- A register block of a saved image still resident in the context slot where it ran (R307, R321). -/
structure OwnedRegs where
  cluster : Nat
  core : Nat
  slot : Nat
  ibase : Nat
  member : Nat
  /-- 0 the scalar block; 1 + j vector block j -/
  block : Nat
  data : List Byte
deriving DecidableEq, Repr

/-- An accumulator tile of a saved image still in its frame. -/
structure OwnedTile where
  core : Nat
  /-- the gang whose accepted operations still name it -/
  gang : Nat
  ibase : Nat
  member : Nat
  tile : Nat
  kts : Word
  busy : Nat
  data : SMap Lane
  /-- a halted member's tile, discarded once its last operation completes (R205) -/
  dead : Bool := false
deriving DecidableEq, Repr

/-! ### Device-level structures -/

/-- Codes of R339 and R415. -/
inductive Code where
  | illegalEncoding | privilege | scheduleViolation | nonuniformBranch | instrAddress | budgetExceeded
  | registerParity | serviceCall | doubleFault | kill | preemptFailed
  | localBounds | localAlign | touchFault | accessUntouched | farAlign | farUncorrectable | race
  | staleLake | lakeQuota | lakeSource | lakeRevoked | lakeOperand | lakeLost
  | copyProgram | copyTranslation | copyUncorrectable | keyExpired | copyBounds | copyAuth | copyTarget
  | pullPeerLost | pullUncorrectable | saveArea | pullArea | resumeTranslation | phaseArea | completionWord
  | collectiveAborted | fabricProtocol | remoteAddress | fabricStateLost | linkFenced | linkDown
  | spadUncorrectable | accUncorrectable
deriving DecidableEq, Repr

/-- Freeze causes (R112). -/
inductive Freeze where
  | fifo | farQueue | absent | segment | watermark | matrix | lakeFill | drain | bank | notChosen | service
deriving DecidableEq, Repr

/-- A storage action a bundle's checks start; it stays in force when the bundle then traps or freezes (R71, R203). -/
inductive Act where
  /-- claim a frame for a tile of a member (R203, R204) -/
  | claim (member tile : Nat)
  /-- make a register block without a saved copy present, or pull it (R309, R327) -/
  | block (member block : Nat)
  /-- pull a scratchpad block of the gang -/
  | spad (block : Nat)
  /-- start a lake fill (R230) -/
  | fill (member lake : Nat)
  /-- request a logical segment (R382) -/
  | segment (member seg : Nat)
deriving DecidableEq, Repr

/-- The operation of an atomic (R192). -/
inductive AtomOp where
  | add | and | or | xor | min | max | nmin | nmax | xchg | cas | fadd | badd
deriving DecidableEq, Repr

/-- A scratchpad write or atomic of the bundle, performed at its commit (R54, R185). `ent` is the shadow entry the write
leaves (R301). -/
inductive MemOp where
  | store (addr : Nat) (data : List Byte) (ent : Lane)
  /-- an atomic on `bytes` bytes: its old value goes to register `dst` of member `member`, due at `due`, or into the
  store-data entry made at issue (by its place in that queue) -/
  | atomic (op : AtomOp) (bytes addr : Nat) (y cmp : Word) (member : Nat) (dst : Option (RFile × Nat))
      (sdq : Option Nat) (due : Nat) (ent : Lane)
  /-- latch of the broadcast bus by a slot of a member (R194) -/
  | latch (addr : Nat) (member slot : Nat) (ent : Lane)
deriving DecidableEq, Repr

/-- A trap raised by a slot (R334). -/
structure TrapReq where
  member : Nat
  slot : Nat
  code : Code
  val : Word
deriving DecidableEq, Repr

/-- A register entry whose parity fails in this wall cycle (R136): its gang and member, and the trap value that a read of it
raises. -/
structure BadReg where
  gang : Nat
  member : Nat
  /-- none for the inbound FIFOs -/
  file : Option RFile
  num : Nat
  tval : Word
deriving DecidableEq, Repr

/-- The issue record: the bundles of one gang being performed at one logical cycle (DEDUCED, log entry 2). Slots read `old` and
change `work`; nothing else of the gang changes until the commit. -/
structure Issue where
  old : Gang
  work : Gang
  /-- the member whose slots run, by position in `members` -/
  m : Nat
  /-- slot index within the bundle -/
  slot : Nat := 0
  /-- address of the bundle's first slot, and of the word after its stop slot -/
  fa : Nat := 0
  nxt : Nat := 0
  /-- the condition of the px.first and px.last before the next slot (R130) -/
  cond : Bool := true
  /-- n of the px.rep before the next slot -/
  rep : Nat := 0
  /-- the registers of the bundle's performed sc.use (R247) -/
  scale : Option (EReg × EReg) := none
  /-- a performed tr slot decides what follows, so the br slot is not performed (R119) -/
  brOff : Bool := false
  /-- target of a taken branch -/
  npc : Option Nat := none
  /-- the bundle is a handler bundle, issued in wall time (R337) -/
  handler : Bool := false
  traps : List TrapReq := []
  freezes : List Freeze := []
  acts : List Act := []
  /-- the slot read a register of the scalar block while that block's saved copy is still to be pulled (R310) -/
  away : Bool := false
  ops : List MemOp := []
  /-- bank rows needed in this logical cycle (R183) -/
  rows : List (Nat × Nat) := []
  /-- service calls of the bundle: member and ktval (R340) -/
  calls : List (Nat × Word) := []
  /-- a performed tr.rft or tr.rfu of this member (R354) -/
  rft : Bool := false
  rfu : Bool := false
  /-- slot of a performed tr.halt of this member -/
  halt : Option Nat := none
  /-- phase changes of the bundle: member and new phase (R117) -/
  phases : List (Nat × Nat) := []
  /-- an array operation of this member was accepted by this bundle -/
  mma : Bool := false
  /-- the bytes on the broadcast bus (R194) -/
  bput : Option (List Byte) := none
  /-- the register entry of the member whose parity fails in this wall cycle -/
  par : Option BadReg := none
deriving DecidableEq, Repr

/-- What a member of a saved image holds for which the image's layout has no byte (R314, R315, R352); the model keeps it
beside the image (DESIGN CHOICE, log entry 11). `marks` are the cycle at which each snapshot entry is due, the bits its
result writes and the releases it read, `counts` the lengths of LAQ, LDQ, VLDQ, SAQ, SDQ and VSDQ, `atomics` which LAQ
entries are atomics with D = s31, `lives` the first live cycle of each touch entry, `lakes` the cause of FILLERR and the
outside revocation of each lake slot, `ivals` the INTERVAL at the start of each channel. -/
structure KeptCtx where
  halted : Bool
  hfirst : Bool
  relScope : Nat
  relReads : List RelRead
  seen : List Seen
  pend : List PendStatus
  rep : Option Repeat
  ivals : List Nat
  marks : List (Nat × Vec × List RelRead)
  counts : List Nat
  atomics : List Bool
  lives : List Nat
  lakes : List (Option Nat × Bool)
  ring : RingRegs
  msgArg : Nat
  cwArg : Nat
deriving DecidableEq, Repr

/-- What a saved image's gang holds beside its image (DESIGN CHOICE, log entry 11): its task, the effective budget and the
limit of its launch (R123), and its members' own. -/
structure Kept where
  task : Nat
  budget : Nat
  kbudget : Nat
  phaseBad : Bool
  calls : List (Nat × Word × Nat)
  members : List KeptCtx
deriving DecidableEq, Repr

/-- A copy that a new image still gathers (R320): the image and its task; KIND, member and block; and where the old copy
lies: device, descriptor, base of its group. -/
structure Gather where
  ibase : Nat
  task : Nat
  kind : Nat
  member : Nat
  index : Nat
  dev : Nat
  desc : Option Nat
  addr : Nat
  /-- the bytes of a scratchpad block that was never made present since its task's dispatch (R179, R309) -/
  bytes : Option (List Byte) := none
deriving DecidableEq, Repr

/-- A record for the supervisor ring (R342): code, class, and the 64 bytes of the record. -/
structure Record where
  code : Code
  cls : Nat
  body : List Byte
deriving DecidableEq, Repr

/-- An outstanding record a supervisor answers through kisvc (R324, R325). -/
structure Ticket where
  ticket : Nat
  code : Code
  ibase : Nat
  member : Nat
  kind : Nat
  index : Nat
  gang : Nat
deriving DecidableEq, Repr

/-- The supervisor ring (R342). -/
structure Ring where
  base : Nat
  nent : Nat
  desc : Nat
  put : Nat
deriving DecidableEq, Repr

/-- An invalidation in progress (R279), with its number. -/
structure Inval where
  no : Nat
  tenant : Nat
  gang : Nat
  member : Nat
  lo : Nat
  hi : Nat
deriving DecidableEq, Repr

/-- A watch-table entry of a pinned lake (R232): physical ranges, the source range (address and length), and the lake (of a
running gang, or of an image). -/
structure Watch where
  ranges : List (Nat × Nat)
  src : Nat × Nat
  tenant : Nat
  /-- core of the count (R235) -/
  core : Nat
  gang : Nat
  member : Nat
  lake : Nat
  /-- image base when saved -/
  ibase : Option Nat
  stale : Bool
deriving DecidableEq, Repr

/-- STATE of a command queue (R386). -/
inductive QState where
  | active | fenced | waiting
deriving DecidableEq, Repr

/-- A queue's position in a stream above the ring (R370). -/
structure Stream where
  base : Nat
  len : Nat
  pos : Nat
deriving DecidableEq, Repr

/-- The LOOP in progress of a queue (R372): start position, body, passes remaining, stream depth. -/
structure QLoop where
  start : Nat
  body : Nat
  left : Nat
  depth : Nat
deriving DecidableEq, Repr

/-- A blocked or asynchronous WAIT (R374). -/
structure WaitSt where
  queue : Nat
  word : Nat
  thresh : Int
  notify : Nat
  async : Bool
  task : Nat
  member : Nat
  tag : Nat
deriving DecidableEq, Repr

/-- A fetch buffer (R365): the address of its aligned 256 B block, the addresses `lo` to `hi` whose packets it holds valid,
TAIL at the read, and the block's bytes. -/
structure FetchBuf where
  addr : Nat
  lo : Nat
  hi : Nat
  tail : Nat
  bytes : List Byte
deriving DecidableEq, Repr

/-- A command queue (R361 to R372, R386). -/
structure Queue where
  head : Nat := 0
  tail : Nat := 0
  ring : Nat
  npkt : Nat
  state : QState := .active
  prio : Nat
  super : Bool
  cause : Nat := 0
  desc : Nat
  client : Nat
  tenant : Nat
  stack : List Stream := []
  loop : Option QLoop := none
  skip : Nat := 0
  wait : Option WaitSt := none
  /-- blocked on a LAUNCH, RESUME or RESHARD not yet done -/
  launch : Bool := false
  plan : Option Nat := none
  buf : Option FetchBuf := none
  destroy : Bool := false
deriving DecidableEq, Repr

/-- An entry of the ready list (R376, R377). -/
structure Ready where
  queue : Nat
  launch : Launch
  /-- a pre-empted task waits as its queue's first -/
  again : Bool
deriving DecidableEq, Repr

/-- A steering rule (R380) with its own counter (R198). -/
structure Steer where
  rule : Nat
  ports : Nat
  udp : Nat
  task : Nat
  base : Nat
  slotLog : Nat
  nslotLog : Nat
  member : Option Nat
  cluster : Nat
  dropped : Nat := 0
  /-- drops to count in DROP of the ring's header once the block that holds it is present (R198) -/
  owed : Nat := 0
deriving DecidableEq, Repr

/-- A packet held in an arrival buffer (R198): its port and rule, its length as received, the bytes kept of it, and the time
of its ingress (R197). -/
structure Arrival where
  port : Nat
  rule : Nat
  len : Nat
  bytes : List Byte
  time : Nat × Nat
deriving DecidableEq, Repr

/-- A granted window (R360). -/
structure Window where
  rkey : Nat
  client : Nat
  addr : Nat
  len : Nat
  write : Bool
  desc : Nat
  /-- a host window: its physical base -/
  host : Option Nat
deriving DecidableEq, Repr

/-- A loaded image (R100): instruction segments, scratchpad section, task record, lakes. -/
structure Image where
  id : Nat
  task : TaskRec
  segs : List (List Byte)
  spad : List Byte
  client : Nat
deriving DecidableEq, Repr

/-- A journal entry (R358). -/
structure JEntry where
  client : Nat
  seq : Nat
  reply : List Byte
deriving DecidableEq, Repr

/-- A link (R389 to R392). -/
inductive LinkSt where
  | down | training | up | dark | fenced
deriving DecidableEq, Repr

/-- A link's state, far end and allowances. -/
structure Link where
  st : LinkSt := .down
  peer : Nat := 0
  peerPort : Nat := 0
  epoch : Nat := 0
  allowReq : Nat := 0
  allowRsp : Nat := 0
  oweReq : Nat := 0
  oweRsp : Nat := 0
  /-- far end before a dark interval; none after DOWN -/
  heldPeer : Option (Nat × Nat) := none
  /-- retransmissions counted since reset, of which those of the last 1 ms are a part (R392) -/
  retrans : Nat := 0
  /-- flits of each class that this end still has to return to the far end (R391, R394) -/
  retReq : Nat := 0
  retRsp : Nat := 0
  /-- the link has brought messages since it last entered UP (R394) -/
  msgs : Bool := false
deriving DecidableEq, Repr

/-- A packet that stands in the buffer of the link it came in on, and its target (R390, R393); `stale` once that link holds
another far end than the one it came from (R391). -/
structure InPacket where
  pkt : Transit
  dst : Nat
  stale : Bool := false
deriving DecidableEq, Repr

/-- Kind of a remote operation (R397 to R408). -/
abbrev RKind := ReqKind

/-- A remote operation not yet resolved: sequence number, target, who issued it, what it carries. -/
structure RemOp where
  seq : Nat
  dev : Nat
  port : Nat
  gang : Nat
  member : Nat
  tenant : Nat
  kind : RKind
  /-- remote address, message header, or tag -/
  addr : Word
  words : List Word
  /-- reply words reserved in ibPORT -/
  nrep : Nat
  flits : Nat
  /-- outbound words it still occupies -/
  obw : Nat
  sent : Bool
  /-- logical cycle of its issue (R282) -/
  lc : Nat
  /-- resolved without an answer; waits to be reported by a drain -/
  lost : Bool
  /-- its reply words, held until earlier replies on the port have entered (R401) -/
  ans : Option (List FWord)
  /-- the issuing context's cluster, core and slot -/
  cl : Nat
  co : Nat
  sl : Nat
  /-- the group id of a message with a group (R411) -/
  group : Nat := 0
  /-- the link it was placed on last, and the device at its far end then (R408) -/
  via : Option (Nat × Nat) := none
  /-- the shadow entry its write leaves on this device (R301); not VALID where the detector does not cover the location -/
  ent : Lane := 0
  /-- number of the last earlier packet of its order that was unresolved when it was last placed (R409) -/
  after : Option Nat := none
  /-- the sender, for a packet of another device -/
  src : Option Nat := none
  /-- the RUNNING plan whose read it is (R426) -/
  plan : Option Nat := none
deriving DecidableEq, Repr

/-- A reply or acknowledgement that waits for a path and an allowance (R390): the device it goes to, the number of its
request, and, for a reply in transit, the device that answers. -/
structure PendReply where
  dev : Nat
  seq : Nat
  ok : Bool
  words : List Word
  src : Option Nat := none
deriving DecidableEq, Repr

/-- A packet a target has performed or refused, whose number it remembers, with its answer (R407; DEDUCED, log entry 109). -/
structure SeqMem where
  dev : Nat
  seq : Nat
  ok : Bool
  words : List Word
  op : RemOp
deriving DecidableEq, Repr

/-- A message waiting in the message buffer (R394). -/
structure MsgWait where
  gang : Nat
  member : Nat
  port : Nat
  words : List Word
deriving DecidableEq, Repr

/-- An edge of a collective group (R411): this end's context, group id, far end (device, cluster, core, slot, mport). -/
structure Edge where
  gang : Nat
  member : Nat
  group : Nat
  dev : Nat
  cluster : Nat
  core : Nat
  slot : Nat
  mport : Nat
deriving DecidableEq, Repr

/-- A piece of a plan (R417, R421). -/
structure Piece where
  sdev : Nat
  spos : Nat
  saddr : Nat
  daddr : Nat
  nrow : Nat
  lo : List Nat
  cnt : List Nat
  sbase : Nat
  sext : List Nat
  slo : List Nat
  dbase : Nat
  dext : List Nat
  dlo : List Nat
  esize : Nat
deriving DecidableEq, Repr

/-- A plan STARTING or RUNNING (R423): its area, descriptor, starter (gang and member, or none for a packet start with
its queue), cursor. -/
structure Plan where
  area : Nat
  desc : Nat
  starter : Option (Nat × Nat)
  queue : Option Nat
  running : Bool
  pieces : List Piece
  cpiece : Nat
  crow : Nat
  coff : Nat
  steps : Nat
  cw : Nat
  kill : Bool
  identity : Nat
  interval : Nat
  tenant : Nat
  /-- the read of the current step has been sent to another device (R426) -/
  asked : Bool := false
  /-- what that read came to -/
  got : Option StepOut := none
  /-- the shadow entry of the starting context at the start, and whether its detector then covered device memory (R301, R430) -/
  ent : Lane := 0
  far : Bool := false
deriving DecidableEq, Repr

/-- The RS status word of a context (R434), kept for the member. -/
structure RsStat where
  gang : Nat
  member : Nat
  /-- logical cycle of the rs.go -/
  lc : Nat
  state : Nat
  cause : Nat
  steps : Nat
  /-- the last rs.go was refused (R432) -/
  refused : Bool
deriving DecidableEq, Repr

/-- A start of rs.go that waits for its claim (R423, R433). -/
structure PlanStart where
  gang : Nat
  member : Nat
  area : Nat
  desc : Nat
  tenant : Nat
  interval : Nat
  /-- as of a plan (R430) -/
  ent : Lane := 0
  far : Bool := false
deriving DecidableEq, Repr

/-- A QUIESCE in progress, or done: its call, the save area, and the client's descriptor (R384). -/
structure Quiesce where
  client : Nat
  seq : Nat
  area : Nat
  desc : Nat
  done : Bool
deriving DecidableEq, Repr

/-- A stage (R437). -/
inductive Stage where
  | root | test | service
deriving DecidableEq, Repr

/-- A cause of reset (R444). -/
inductive ResetCause where
  | power | device | watchdog | thermal
deriving DecidableEq, Repr

/-- An SPDM session (R455, R457). -/
structure Session where
  id : Nat
  established : Bool
  /-- none before its first vendor-defined message declares a role -/
  mgmt : Bool
  tenant : Option Nat
  period : Nat
  keys : List (Nat × List Byte)
  /-- generation of the session keys, raised by KEY_UPDATE -/
  gen : Nat
  /-- the certificate its requester showed in FINISH -/
  cert : List Byte
deriving DecidableEq, Repr

/-- A firmware slot (R454). -/
structure FwSlot where
  bytes : List Byte := []
  valid : Bool := false
  /-- the image a module comes with, of which the spec gives no bytes -/
  factory : Bool := false
deriving DecidableEq, Repr

/-- The two slots of one firmware (R454). -/
structure Fw where
  a : FwSlot := { valid := true, factory := true }
  b : FwSlot := {}
  activeB : Bool := false
  pending : Bool := false
  minSvn : Nat := 0
  /-- a pending image has taken effect and has not come up yet -/
  trial : Bool := false
deriving DecidableEq, Repr

/-- A client entry of the provisioning table (R456). -/
structure Client where
  id : Nat
  tenant : Nat
  desc : Nat
  super : Bool
deriving DecidableEq, Repr

/-- Ochre (R450 to R459): what outlives a boot. -/
structure Ochre where
  log : List (List Byte) := []
  logSeq : Nat := 0
  sienna : Fw := {}
  own : Fw := {}
  sessions : List Session := []
  clients : List Client := []
  /-- certificates of the management peers that PROVISION listed (R455, R456) -/
  peers : List (List Byte) := []
  fabric : List (Nat × Nat) := []
  nextDev : Nat := 0
  cap : Nat := 2400
  clockMHz : Nat := 2500
  readings : List Nat := []
  /-- samples in a row with every sensor well below its level (R452) -/
  cool : Nat := 0
  /-- repair tables by cluster: 128 entries of 16 bits (R445) -/
  repair : SMap (List Nat) := []
  /-- register-file repair entries by core (R446): context slot, file, number, entry -/
  rfRepair : SMap (List (Nat × Nat × Nat × Nat)) := []
  retired : List Nat := []
  prot : List (Nat × Nat) := []
  /-- the save area of the last QUIESCE and the descriptor its address translates under (R384) -/
  saveArea : Option (Nat × Nat) := none
  serial : Word := 0
deriving DecidableEq, Repr

/-- A message sent outside: to the network, over a link, or on the side band. -/
inductive OutMsg where
  | deceo (client : Nat) (bytes : List Byte)
  | rdma (ok : Bool) (bytes : List Byte)
  | link (port : Nat) (op : RemOp)
  | reply (port : Nat) (r : PendReply)
  /-- flits of a class returned to the far end of a link (R390) -/
  | credit (port : Nat) (rsp : Bool) (n : Nat)
  | sideband (bytes : List Byte)
deriving DecidableEq, Repr

/-- The machine. `agenda` and `turn` say which agent moves next (DESIGN CHOICE, log entry 1). -/
structure State where
  agenda : List Instr := []
  turn : Nat := 0
  iss : Option Issue := none
  gangs : List Gang := []
  /-- by 8 · cluster + core -/
  cores : SMap Core := []
  clusters : SMap Cluster := []
  /-- device memory (R268) -/
  mem : Memory := []
  /-- shadow entries of device memory, by sector (R301) -/
  shadowFar : SMap Shadow := []
  watch : SMap (Option Watch) := []
  /-- lake quota limits by tenant; 16 where unlisted (R235) -/
  quota : SMap Nat := []
  kbudget : Nat := 4096
  ownedRegs : List OwnedRegs := []
  ownedTiles : List OwnedTile := []
  tickets : List Ticket := []
  nextTicket : Nat := 0
  /-- requests for storage not yet met, in the order in which they were made (R321): gang, KIND, member, block -/
  claims : List (Nat × Nat × Nat × Nat) := []
  gathers : List Gather := []
  invals : List Inval := []
  /-- invalidations written so far -/
  invalNo : Nat := 0
  ring : Option Ring := none
  recSeq : Nat := 0
  lost : Nat := 0
  /-- the ring could not be written at the last record, which is logged once with Ochre (R342) -/
  ringDown : Bool := false
  /-- records kept before a ring is installed (R342) -/
  early : List Record := []
  /-- records that wait for room (R342) -/
  waiting : List Record := []
  queues : SMap (Option Queue) := []
  /-- queue that took the first turn, by Sienna core (R364) -/
  firstTurn : SMap Nat := []
  ready : List Ready := []
  /-- last queue served at each priority (R377) -/
  served : SMap Nat := []
  watches : List WaitSt := []
  steers : List Steer := []
  /-- packets held in the arrival buffers (R198) -/
  arrivals : List Arrival := []
  windows : List Window := []
  nextRkey : Nat := 0
  images : List Image := []
  nextImage : Nat := 0
  /-- images saved on this device, by image base, with the loaded image each came from (R356) -/
  saved : SMap Nat := []
  /-- what saved images hold beside their bytes, by image base (DESIGN CHOICE, log entry 11) -/
  kept : SMap (Option Kept) := []
  /-- 64 B sectors of device memory that hold an uncorrectable error, which every access that carries no outcome of its
  own meets (R278, R461; DESIGN CHOICE, log entry 96) -/
  bad : List Nat := []
  /-- the register entry whose parity fails in the wall cycle in progress (R136; log entry 44) -/
  badReg : Option BadReg := none
  journal : List JEntry := []
  /-- highest SEQ performed by client (R358) -/
  lastSeq : SMap Nat := []
  eventSeq : SMap Nat := []
  dispatchNo : Nat := 0
  /-- the queue, plus one, that each task identity of this boot came from (R368, R379) -/
  dispatched : SMap Nat := []
  /-- tenants whose confidential tasks stand still until a session is open again (R459) -/
  confFence : List Nat := []
  boot : BitVec 32 := 0
  quiesce : Option Quiesce := none
  links : SMap Link := []
  /-- link state changes so far, after each of which the route table is computed again (R393) -/
  routeGen : Nat := 0
  /-- replies to other devices not yet placed on a link -/
  replies : List PendReply := []
  seqNo : SMap Nat := []
  remote : List RemOp := []
  seqMem : List SeqMem := []
  /-- packets that still stand in the buffers of their links, in order of arrival, each with its target (R390, R393) -/
  pendIn : List InPacket := []
  msgBuf : List MsgWait := []
  edges : List Edge := []
  plans : List Plan := []
  /-- starts of rs.go not yet claimed -/
  starts : List PlanStart := []
  rsStats : List RsStat := []
  clockSec : Nat := 0
  clockNs : Nat := 0
  ptpLock : Bool := false
  stage : Stage := .root
  devId : Nat := 0
  /-- the service code of segment 15 of every core and the ksvec of every context slot, as firmware installs them at
  bring-up (R331, R352) -/
  svcCode : List Byte := []
  svcVec : Word := 0
  /-- main power and reset: a device without power does nothing (R444) -/
  powered : Bool := false
  ochre : Ochre := {}
  outbox : List OutMsg := []
  /-- counter of free values (DESIGN CHOICE, log entry 5) -/
  free : Nat := 0
deriving DecidableEq, Repr

/-- The machine right after reset (R444): power applied, stage ROOT, nothing dispatched, every memory blank. -/
def State.reset : State := { powered := true }

/-- Reasons the machine stops with a fault. -/
inductive Fault where
  /-- Raised by every slot operation performed while no bundle is being issued (`iss = none`): a slot has a meaning
  only for an issuing context (R72). Safe: the hardware has no such step. -/
  | noIssuingContext
deriving DecidableEq, Repr

/-- Reasons the model refuses a step. -/
inductive Refusal where
  /-- Raised by an arm of exec whose instruction has no meaning yet, by its mnemonic. Safe: the model says nothing. -/
  | notModelled (mnemonic : String)
deriving DecidableEq, Repr

end Sys2Proof.Machine
end

