-- ==== Sys2Proof/Machine/Ops.lean ====
section
/-! DEFINITION. Ops: the named operations over memory, maps and the parts of the state, translation, records and
completion words, killing a task, and taking a trap or an interrupt and returning from it. -/

namespace Sys2Proof.Machine

/-! ### Sparse maps in canonical form -/

/-- What a key reads as. -/
def mapGet {α : Type} (dflt : α) : SMap α → Nat → α
  | [], _ => dflt
  | (k', v) :: r, k => if k' = k then v else mapGet dflt r k

/-- Insert an entry at its place among rising keys. -/
def mapIns {α : Type} (k : Nat) (v : α) : SMap α → SMap α
  | [] => [(k, v)]
  | (k', v') :: r => if k < k' then (k, v) :: (k', v') :: r else (k', v') :: mapIns k v r

/-- Remove a key. -/
def mapDel {α : Type} (m : SMap α) (k : Nat) : SMap α := m.filter fun e => e.1 != k

/-- Set a run of keys from `lo`; those set to what an unlisted key reads as are not listed. -/
def mapFill {α : Type} [DecidableEq α] (dflt : α) (m : SMap α) (lo : Nat) (vs : List α) : SMap α :=
  (m.filter fun e => e.1 < lo) ++ ((List.range vs.length).zip vs).filterMap (fun e =>
    if e.2 = dflt then none else some (lo + e.1, e.2)) ++ m.filter fun e => lo + vs.length ≤ e.1

/-- Set a key; setting what an unlisted key reads as removes the entry. -/
def mapSet {α : Type} [DecidableEq α] (dflt : α) (m : SMap α) (k : Nat) (v : α) : SMap α :=
  if v = dflt then mapDel m k else mapIns k v (mapDel m k)

/-- Keys strictly rise from above `lo`, and no entry is the default. -/
def mapWfFrom {α : Type} [DecidableEq α] (dflt : α) : Option Nat → SMap α → Bool
  | _, [] => true
  | lo, (k, v) :: r =>
    (match lo with
      | none => true
      | some l => decide (l < k)) && decide (v ≠ dflt) && mapWfFrom dflt (some k) r

/-- The canonical form of a sparse map. -/
def mapWf {α : Type} [DecidableEq α] (dflt : α) (m : SMap α) : Bool := mapWfFrom dflt none m

/-! ### Bytes and memories -/

/-- What a byte of memory that nothing has written reads as (DESIGN CHOICE, log entry 3). -/
def memBlank : Byte := 0

/-- The canonical form of a memory. -/
def Memory.wf (m : Memory) : Bool := mapWf memBlank m

/-- One byte. -/
def memRead (m : Memory) (a : Nat) : Byte := mapGet memBlank m a

/-- Write one byte. -/
def memWrite (m : Memory) (a : Nat) (b : Byte) : Memory := mapSet memBlank m a b

/-- `n` bytes from `a`. -/
def memReads (m : Memory) (a n : Nat) : List Byte := (List.range n).map fun i => memRead m (a + i)

/-- Write bytes from `a`. -/
def memWrites (m : Memory) (a : Nat) : List Byte → Memory
  | [] => m
  | b :: r => memWrites (memWrite m a b) (a + 1) r

/-- A little-endian number (R14). -/
def leNat : List Byte → Nat
  | [] => 0
  | b :: r => b.toNat + 256 * leNat r

/-- `n` little-endian bytes of a number. -/
def leBytes (n x : Nat) : List Byte := (List.range n).map fun i => BitVec.ofNat 8 (x / 256 ^ i)

/-- `n` zero bytes. -/
def zeros (n : Nat) : List Byte := List.replicate n 0

/-- The bytes of a list from `i`, `n` of them, zero where it ends. -/
def sliceBytes (bs : List Byte) (i n : Nat) : List Byte := ((bs.drop i).take n) ++ zeros (n - (bs.drop i).length)

/-- A little-endian field of a byte list. -/
def fieldLe (bs : List Byte) (i n : Nat) : Nat := leNat (sliceBytes bs i n)

/-- Overwrite bytes of a list from `i`. -/
def patchBytes (bs : List Byte) (i : Nat) (d : List Byte) : List Byte :=
  bs.take i ++ d ++ bs.drop (i + d.length)

/-- Bits h down to l of a number (R73). -/
def bitsOf (x h l : Nat) : Nat := x / 2 ^ l % 2 ^ (h + 1 - l)

/-- Σ g e · 2^(stride · e) for e < n. -/
def packNat (stride : Nat) (g : Nat → Nat) (n : Nat) : Nat :=
  (List.range n).foldr (fun e acc => g e * 2 ^ (stride * e) + acc) 0

/-- A number read as a signed one of `w` bits. -/
def toSigned (w x : Nat) : Int := if 2 ^ (w - 1) ≤ x % 2 ^ w then (x % 2 ^ w : Nat) - (2 ^ w : Int) else (x % 2 ^ w : Nat)

/-- An integer modulo 2^w (R21). -/
def wrapNat (w : Nat) (i : Int) : Nat := (i % (2 ^ w : Int)).toNat

/-- Entry `i` of a register file or table, `d` past its end. -/
def vget {α : Type} {n : Nat} (d : α) (v : Vector α n) (i : Nat) : α := (v[i]?).getD d

/-- Set entry `i`; nothing past the end. -/
def vset {α : Type} {n : Nat} (v : Vector α n) (i : Nat) (x : α) : Vector α n := v.setIfInBounds i x

/-- Change entry `i`; nothing past the end. -/
def vmod {α : Type} {n : Nat} (v : Vector α n) (i : Nat) (f : α → α) : Vector α n :=
  match v[i]? with
  | none => v
  | some x => v.setIfInBounds i (f x)

/-! ### Parts of the state -/

/-- Key of a core. -/
def coreKey (cl co : Nat) : Nat := 8 * cl + co

/-- A core's shared state. -/
def getCore (s : State) (cl co : Nat) : Core := mapGet {} s.cores (coreKey cl co)

/-- Replace a core's shared state. -/
def setCore (s : State) (cl co : Nat) (c : Core) : State := { s with cores := mapSet {} s.cores (coreKey cl co) c }

/-- A cluster's shared state. -/
def getCluster (s : State) (cl : Nat) : Cluster := mapGet {} s.clusters cl

/-- Replace a cluster's shared state. -/
def setCluster (s : State) (cl : Nat) (c : Cluster) : State := { s with clusters := mapSet {} s.clusters cl c }

/-- The gang of a task identity. -/
def findGang (s : State) (id : Nat) : Option Gang := s.gangs.find? fun g => g.id == id

/-- Replace a gang by its identity. -/
def putGang (s : State) (g : Gang) : State :=
  { s with gangs := s.gangs.map fun h => if h.id = g.id then g else h }

/-- A member of a gang, by number. -/
def getCtx (g : Gang) (m : Nat) : Ctx := g.members.getD m { core := 0 }

/-- Change one member of a gang. -/
def modCtx (g : Gang) (m : Nat) (f : Ctx → Ctx) : Gang := { g with members := g.members.modify m f }

/-- Change one member of a gang of the state; nothing where there is no such gang. -/
def modCtxOf (s : State) (id m : Nat) (f : Ctx → Ctx) : State :=
  match findGang s id with
  | none => s
  | some g => putGang s (modCtx g m f)

/-- Does the gang have this member? -/
def hasMember (g : Gang) (m : Nat) : Bool := decide (m < g.members.length)

/-- The outlier-ring registers of a context (R35). -/
def ringRegs (c : Ctx) : RingRegs := ⟨c.olfull, c.olbase, c.olcap, c.oltake, c.olput⟩

/-- A context with ring registers. -/
def setRing (c : Ctx) (r : RingRegs) : Ctx :=
  { c with olfull := r.full, olbase := r.base, olcap := r.cap, oltake := r.take, olput := r.put }

/-- The next free value, and the counter advanced (DESIGN CHOICE, log entry 5). -/
def takeFree (s : State) : Word × State := (Config.freeValue s.free, { s with free := s.free + 1 })

/-- Append a message to those sent outside. -/
def sendOut (s : State) (m : OutMsg) : State := { s with outbox := s.outbox ++ [m] }

/-! ### Codes (R339, R415) -/

/-- The number of a code. -/
def codeNum : Code → Nat
  | .illegalEncoding => 0x0001 | .privilege => 0x0002 | .scheduleViolation => 0x0003 | .nonuniformBranch => 0x0004
  | .instrAddress => 0x0005 | .budgetExceeded => 0x0006 | .registerParity => 0x0007 | .serviceCall => 0x0008
  | .doubleFault => 0x0009 | .kill => 0x000A | .preemptFailed => 0x000B
  | .localBounds => 0x0101 | .localAlign => 0x0102 | .touchFault => 0x0103 | .accessUntouched => 0x0104
  | .farAlign => 0x0105 | .farUncorrectable => 0x0106 | .race => 0x0107
  | .staleLake => 0x0201 | .lakeQuota => 0x0202 | .lakeSource => 0x0203 | .lakeRevoked => 0x0204
  | .lakeOperand => 0x0205 | .lakeLost => 0x0206
  | .copyProgram => 0x0301 | .copyTranslation => 0x0302 | .copyUncorrectable => 0x0303 | .keyExpired => 0x0304
  | .copyBounds => 0x0305 | .copyAuth => 0x0306 | .copyTarget => 0x0307
  | .pullPeerLost => 0x0401 | .pullUncorrectable => 0x0402 | .saveArea => 0x0403 | .pullArea => 0x0404
  | .resumeTranslation => 0x0405 | .phaseArea => 0x0406 | .completionWord => 0x0407
  | .collectiveAborted => 0x0501 | .fabricProtocol => 0x0502 | .remoteAddress => 0x0503
  | .fabricStateLost => 0x0504 | .linkFenced => 0x0505 | .linkDown => 0x0506
  | .spadUncorrectable => 0x0601 | .accUncorrectable => 0x0602

/-- Is the code replayable (R339)? -/
def codeReplayable : Code → Bool
  | .touchFault | .staleLake | .lakeQuota | .lakeSource => true
  | _ => false

/-- The kill code (R349). -/
def killCode (reason task arg code : Nat) : Word :=
  BitVec.ofNat 64 (2 ^ 63 + reason % 128 * 2 ^ 56 + task % 2 ^ 24 * 2 ^ 32 + arg % 2 ^ 16 * 2 ^ 16 + code % 2 ^ 16)

/-! ### Device memory and translation (R267 to R272) -/

/-- First address past device memory (R268). -/
def memTop : Nat := 0x8000000000
/-- First host window address (R268; DESIGN CHOICE, log entry 55). -/
def hostBase : Nat := 0x800000000000

/-- Is the address in a page retired by Ochre (R453)? -/
def isRetired (s : State) (pa : Nat) : Bool := s.ochre.retired.contains (pa / 4096)

/-- Does a physical address have a target: device memory that is not retired, or a granted host window (R268). -/
def hasTarget (s : State) (pa : Nat) : Bool :=
  (decide (pa < memTop) && !isRetired s pa) ||
  s.windows.any fun w => match w.host with
    | none => false
    | some b => decide (b ≤ pa) && decide (pa < b + w.len)

/-- Is the address in protected device memory (R458)? -/
def isProtected (s : State) (pa : Nat) : Bool :=
  s.ochre.prot.any fun r => decide (r.1 ≤ pa) && decide (pa < r.1 + r.2)

/-- A little-endian number in device memory. -/
def physNat (s : State) (pa n : Nat) : Nat := leNat (memReads s.mem pa n)

/-- FLAGS.CONF of a descriptor (R267). -/
def descConf (s : State) (desc : Nat) : Bool := bitAt (physNat s (desc + 10) 1) 0

/-- TENANT of a descriptor (R267). -/
def descTenant (s : State) (desc : Nat) : Nat := physNat s (desc + 8) 2 % 4096

/-- A translation: the physical address and its permissions. -/
structure Xlat where
  pa : Nat
  r : Bool
  w : Bool
deriving DecidableEq, Repr

/-- Causes of R271. -/
def causeNotMapped : Nat := 1
/-- PERM. -/
def causePerm : Nat := 2
/-- TABLE. -/
def causeTable : Nat := 3
/-- MEMERR. -/
def causeMemErr : Nat := 4
/-- RANGE. -/
def causeRange : Nat := 5
/-- A missing W, as R461 and R323 number it. -/
def causeNoW : Nat := 6
/-- An uncorrectable error, as R461 numbers it. -/
def causeUncorr : Nat := 7

/-- A table entry is well formed but for its place (R270): reserved bits 63:48, 11:6 and 3. -/
def pteReserved (e : Nat) : Bool := decide (bitsOf e 63 48 ≠ 0) || decide (bitsOf e 11 6 ≠ 0) || bitAt e 3

/-- A leaf that maps pages of 2^k bytes. -/
def leafXlat (e va k : Nat) : Except Nat Xlat :=
  let oa := bitsOf e 47 12 * 4096
  if oa % 2 ^ k = 0 then .ok ⟨oa + va % 2 ^ k, bitAt e 1, bitAt e 2⟩ else .error causeTable

/-- Is a sector of device memory one that holds an uncorrectable error (R278)? -/
def badRange (s : State) (rs : List (Nat × Nat)) : Bool :=
  s.bad.any fun k => rs.any fun r => decide (r.1 < 64 * k + 64) && decide (64 * k < r.1 + r.2)

/-- A table entry as the walk reads it, with the rights of a tenant whose descriptor has CONF `conf` (R270 to R272). -/
def tableEntry (s : State) (conf : Bool) (a : Nat) : Except Nat Nat :=
  if !hasTarget s a then .error causeTable
  else if isProtected s a && !conf then .error causePerm
  else if badRange s [(a, 8)] then .error causeMemErr
  else .ok (physNat s a 8)

/-- The first entry of a contiguous group, whose pages have 2^k bytes (R270). -/
def groupXlat (e0 : Except Nat Nat) (va k : Nat) : Except Nat Xlat :=
  match e0 with
  | .error c => .error c
  | .ok e => if bitAt e 0 && bitAt e 4 && bitAt e 5 && !pteReserved e then leafXlat e va k else .error causeTable

/-- The walk from the table at `tbl`, at level `n` (R270, R271; DEDUCED, log entry 86). -/
def walkTable (s : State) (conf : Bool) (va : Nat) : Nat → Nat → Except Nat Xlat
  | 0, tbl =>
    let idx := bitsOf va 20 12
    match tableEntry s conf (tbl + 8 * idx) with
    | .error c => .error c
    | .ok e =>
      if bitAt e 0 && (pteReserved e || !bitAt e 4) then .error causeTable
      else if bitAt e 5 then groupXlat (tableEntry s conf (tbl + 8 * (idx / 16 * 16))) va 16
      else if !bitAt e 0 then .error causeNotMapped
      else leafXlat e va 12
  | n + 1, tbl =>
    let idx := if n + 1 = 3 then bitsOf va 55 39 else bitsOf va (20 + 9 * (n + 1)) (12 + 9 * (n + 1))
    match tableEntry s conf (tbl + 8 * idx) with
    | .error c => .error c
    | .ok e =>
      if !bitAt e 0 then
        (if n + 1 = 2 ∧ bitAt e 5 then groupXlat (tableEntry s conf (tbl + 8 * (idx / 8 * 8))) va 33
         else .error causeNotMapped)
      else if pteReserved e then .error causeTable
      else if bitAt e 4 then
        (if n + 1 = 3 then .error causeTable
         else if n + 1 = 2 then
          (if bitAt e 5 then groupXlat (tableEntry s conf (tbl + 8 * (idx / 8 * 8))) va 33 else leafXlat e va 30)
         else if bitAt e 5 then .error causeTable
         else leafXlat e va 21)
      else if bitAt e 5 then .error causeTable
      else walkTable s conf va n (bitsOf e 47 12 * 4096)

/-- The range entry that supplies a translation (R269), lowest number first. -/
def rangeXlat (s : State) (desc va : Nat) : Nat → Option Xlat
  | 0 => none
  | n + 1 =>
    let b := desc + 64 + 32 * (15 - n)
    let base := physNat s b 8 / 4096 * 4096
    let lim := physNat s (b + 8) 8 / 4096 * 4096
    let off := physNat s (b + 16) 8 / 4096 * 4096
    let perm := physNat s (b + 24) 1
    if bitAt perm 0 && decide (base ≤ va) && decide (va < lim) then
      some ⟨(va + off) % 2 ^ 48, bitAt perm 1, bitAt perm 2⟩
    else rangeXlat s desc va n

/-- Translate a virtual address under a descriptor (R269 to R272). -/
def translate (s : State) (desc va : Nat) : Except Nat Xlat :=
  if 2 ^ 56 ≤ va then .error causeRange
  else
    let x := match rangeXlat s desc va 16 with
      | some t => Except.ok t
      | none => walkTable s (descConf s desc) va 3 (physNat s desc 8)
    match x with
    | .error c => .error c
    | .ok t =>
      if !hasTarget s t.pa then .error causeTable
      else if isProtected s t.pa && !descConf s desc then .error causePerm
      else .ok t

/-- Is a descriptor one that R267 accepts? -/
def descOk (s : State) (desc : Nat) : Bool :=
  let h := memReads s.mem desc 64
  decide (fieldLe h 0 8 % 2 ^ 20 = 0) && decide (fieldLe h 8 2 < 4096) && decide (fieldLe h 10 1 < 2) &&
  (h.drop 11).all (· == 0) &&
  (List.range 16).all fun j =>
    let b := desc + 64 + 32 * j
    decide (physNat s (b + 24) 1 < 8) && decide (physNat s (b + 25) 7 = 0)

/-- Parts of a virtual range that lie in one 4 KiB page each: address and length. -/
def pageParts (va len : Nat) : List (Nat × Nat) :=
  (List.range (len / 4096 + 2)).filterMap fun i =>
    let a := if i = 0 then va else (va / 4096 + i) * 4096
    let e := min (va + len) ((va / 4096 + i + 1) * 4096)
    if a < e then some (a, e - a) else none

/-- The physical ranges of a virtual range that needs R, or the cause of the first failure. -/
def xlatRange (s : State) (desc va len : Nat) (needW : Bool) : Except Nat (List (Nat × Nat)) :=
  (pageParts va len).foldr (fun p acc =>
    match acc with
    | .error c => (match translate s desc p.1 with
        | .error c' => .error c'
        | .ok t => if needW && !t.w then .error causeNoW else if !needW && !t.r then .error causePerm else .error c)
    | .ok l => match translate s desc p.1 with
        | .error c => .error c
        | .ok t => if needW && !t.w then .error causeNoW else if !needW && !t.r then .error causePerm
                   else .ok ((t.pa, p.2) :: l)) (.ok [])

/-- The bytes of physical ranges. -/
def physReads (s : State) (rs : List (Nat × Nat)) : List Byte := rs.flatMap fun r => memReads s.mem r.1 r.2

/-- Read far memory (R269): the bytes, or the cause. -/
def farRead (s : State) (desc va n : Nat) : Except Nat (List Byte) :=
  match xlatRange s desc va n false with
  | .error c => .error c
  | .ok rs => .ok (physReads s rs)

/-- Read far memory where an uncorrectable error has its own outcome: the bytes, or the cause. -/
def cleanRead (s : State) (desc va n : Nat) : Except Nat (List Byte) :=
  match xlatRange s desc va n false with
  | .error c => .error c
  | .ok rs => if badRange s rs then .error causeUncorr else .ok (physReads s rs)

/-- Do two ranges meet? -/
def rangesMeet (a n b m : Nat) : Bool := decide (a < b + m) && decide (b < a + n)

/-- Mark stale every pinned lake whose watched bytes meet a physical range (R232). -/
def staleHit (pa n : Nat) (w : Watch) : Bool := w.ranges.any fun r => rangesMeet pa n r.1 r.2

/-- Set STALE on a lake of a running gang. -/
def setLakeStale (s : State) (w : Watch) : State :=
  match w.ibase with
  | some _ => s
  | none => modCtxOf s w.gang w.member fun c =>
      { c with lakes := vmod c.lakes w.lake fun l => { l with stale := true } }

/-- A watch entry after a write. -/
def markWatch (hit : Watch → Bool) (s : State) (e : Nat × Option Watch) : State :=
  match e.2 with
  | none => s
  | some w =>
    if hit w then { setLakeStale s w with watch := mapSet none s.watch e.1 (some { w with stale := true }) } else s

/-- Mark stale the lakes a condition on the watch entries hits (R232). -/
def markStale (s : State) (hit : Watch → Bool) : State := s.watch.foldl (markWatch hit) s

/-- Write physical bytes: memory, and the staleness of pinned lakes (R232). -/
def physWrite (s : State) (pa : Nat) (bs : List Byte) : State :=
  markStale { s with mem := memWrites s.mem pa bs } (staleHit pa bs.length)

/-- The bytes of sector `sec` that a range touches, one bit each. -/
def byteMask (sec a n : Nat) : Word :=
  let lo := max a (64 * sec) - 64 * sec
  let hi := min (a + n) (64 * sec + 64) - 64 * sec
  if lo < hi then BitVec.ofNat 64 (2 ^ hi - 2 ^ lo) else 0

/-- The releases left once some bytes are overwritten. -/
def stripHeads (m : Word) (hs : List (Word × Lane)) : List (Word × Lane) :=
  (hs.map fun h => (h.1 &&& ~~~m, h.2)).filter fun h => h.1 ≠ 0

/-- Sectors after a write that names no context (R301): VALID is 0; an atomic (`keep`) continues the releases that its bytes
carry (R287, R291). -/
def clearSectors (sh : SMap Shadow) (a n : Nat) (keep : Bool) : SMap Shadow :=
  sh.filterMap fun e =>
    if rangesMeet a n (64 * e.1) 64 then
      let hs := stripHeads (if keep then 0 else byteMask e.1 a n) e.2.heads
      if hs.isEmpty then none else some (e.1, { heads := hs })
    else some e

/-- Clear VALID of the shadow entries of far sectors (R301). -/
def clearFarShadow (s : State) (pa n : Nat) (keep : Bool := false) : State :=
  { s with shadowFar := clearSectors s.shadowFar pa n keep }

/-- Clear VALID of the shadow entries of scratchpad sectors (R301). -/
def clearShadow (s : State) (cl a n : Nat) (keep : Bool := false) : State :=
  let c := getCluster s cl
  setCluster s cl { c with shadow := clearSectors c.shadow a n keep }

/-- Write consecutive parts. -/
def physWriteParts (s : State) : List (Nat × Nat) → List Byte → State
  | [], _ => s
  | (pa, n) :: r, bs => physWriteParts (physWrite s pa (bs.take n)) r (bs.drop n)

/-- Write far memory (R269): the state, or the cause. -/
def farWrite (s : State) (desc va : Nat) (bs : List Byte) : Except Nat State :=
  match xlatRange s desc va bs.length true with
  | .error c => .error c
  | .ok rs => .ok (physWriteParts s rs bs)

/-- Write far memory as Sienna or a host does: shadow entries lose their writer (R301). -/
def farWriteExt (s : State) (desc va : Nat) (bs : List Byte) : Except Nat State :=
  match xlatRange s desc va bs.length true with
  | .error c => .error c
  | .ok rs => .ok (rs.foldl (fun t r => clearFarShadow t r.1 r.2) (physWriteParts s rs bs))

/-- The physical ranges of a write that the device makes on its own account (R342, R461): it needs W, and an uncorrectable
error stops it. -/
def wordRange (s : State) (desc va n : Nat) : Except Nat (List (Nat × Nat)) :=
  match xlatRange s desc va n true with
  | .error c => .error c
  | .ok rs => if badRange s rs then .error causeUncorr else .ok rs

/-- Make such a write; shadow entries lose their writer (R301). -/
def deviceWrite (s : State) (desc va : Nat) (bs : List Byte) : Except Nat State :=
  match wordRange s desc va bs.length with
  | .error c => .error c
  | .ok rs => .ok (rs.foldl (fun t r => clearFarShadow t r.1 r.2) (physWriteParts s rs bs))

/-- Change bytes in place as such a write does: what they held, and the state. -/
def deviceUpdate (s : State) (desc va n : Nat) (f : List Byte → List Byte) : Except Nat State :=
  match wordRange s desc va n with
  | .error c => .error c
  | .ok rs => deviceWrite s desc va (f (physReads s rs))

/-! ### Scratchpad -/

/-- Bytes of a cluster's scratchpad. -/
def spadReads (s : State) (cl a n : Nat) : List Byte := memReads (getCluster s cl).spad a n

/-- Write bytes of a cluster's scratchpad. -/
def spadWrites (s : State) (cl a : Nat) (bs : List Byte) : State :=
  let c := getCluster s cl
  setCluster s cl { c with spad := memWrites c.spad a bs }

/-- Do `n` bytes at `a` lie in the gang's allocation (R178, R180)? -/
def inAlloc (g : Gang) (a n : Nat) : Bool :=
  decide (g.task.spadBase ≤ a) && decide (a + n ≤ g.task.spadBase + g.task.spadSize)

/-! ### Time -/

/-- The device clock read for a stamp (R383): it has advanced by a free number of nanoseconds (DESIGN CHOICE, log entry 5). -/
def stamp (s : State) : (Nat × Nat) × State :=
  let ns := s.clockNs + Config.clockAdvance s.free
  let t := (s.clockSec + ns / 1000000000, ns % 1000000000)
  (t, { s with clockSec := t.1, clockNs := t.2, free := s.free + 1 })

/-! ### Error log (R453) -/

/-- Append a record to Ochre's error log. -/
def logAppend (s : State) (kind loc addr code : Nat) : State :=
  let (t, s) := stamp s
  let seq := s.ochre.logSeq + 1
  let body := leBytes 8 seq ++ leBytes 6 t.1 ++ leBytes 2 kind ++ leBytes 4 t.2 ++ leBytes 4 s.boot.toNat ++
    leBytes 2 loc ++ zeros 6 ++ leBytes 8 addr ++ leBytes 8 code ++ zeros 16
  let l := s.ochre.log ++ [body]
  { s with ochre := { s.ochre with log := if 65536 < l.length then l.drop 1 else l, logSeq := seq } }

/-- Location word of a log record: die, cluster and core; die d holds clusters 10d to 10d + 9 (R1; DEDUCED, log entry 133). -/
def logLoc (cl core : Nat) : Nat := cl / 10 % 8 * 8192 + cl % 64 * 128 + core % 8 * 16

/-- Location of a log record of a link: its port (R453). -/
def logPort (port : Nat) : Nat := port % 64 * 128

/-- Retire the page of a physical address (R278). Its stack, two of which stand on each die (R1), is a free value, since the
spec gives no map of device memory onto stacks (DESIGN CHOICE, log entry 133). -/
def retirePage (s : State) (pa : Nat) : State :=
  let s := if s.ochre.retired.contains (pa / 4096) then s
    else { s with ochre := { s.ochre with retired := s.ochre.retired ++ [pa / 4096] } }
  let (v, s) := takeFree s
  let stack := v.toNat % 8
  logAppend s 2 (stack / 2 * 8192 + stack * 128) pa 0

/-! ### The supervisor ring (R342) -/

/-- Records that wait for room and are never dropped. -/
def codeWaits : Code → Bool
  | .saveArea | .pullArea | .resumeTranslation => true
  | _ => false

/-- Can the ring's header and its next entry be written? -/
def ringWritable (s : State) (r : Ring) : Bool :=
  (match wordRange s r.desc r.base 64 with | .error _ => false | .ok _ => true) &&
  (match wordRange s r.desc (r.base + 64 + 128 * (r.put % r.nent)) 128 with | .error _ => false | .ok _ => true)

/-- TAKE of a ring whose header can be written. -/
def ringTake (s : State) (r : Ring) : Nat :=
  match wordRange s r.desc (r.base + 4) 4 with
  | .error _ => 0
  | .ok rs => leNat (physReads s rs)

/-- Is there room for an entry? -/
def ringRoom (s : State) (r : Ring) : Bool :=
  ringWritable s r && decide ((r.put + 2 ^ 32 - ringTake s r) % 2 ^ 32 < r.nent)

/-- Add the drops counted so far to LOST of the header, where it can be written. -/
def ringLost (s : State) (r : Ring) : State :=
  if s.lost = 0 then s
  else
    match deviceUpdate s r.desc (r.base + 8) 4 fun b => leBytes 4 (leNat b + s.lost) with
    | .error _ => s
    | .ok t => { t with lost := 0 }

/-- Write one record into the ring and advance PUT; LOST takes the drops counted since the last write. -/
def ringPut (s : State) (r : Ring) (rec : Record) : State :=
  let (t, s) := stamp s
  let entry := leBytes 2 (codeNum rec.code) ++ leBytes 1 rec.cls ++ zeros 1 ++ leBytes 4 s.recSeq ++
    leBytes 6 t.1 ++ zeros 2 ++ leBytes 4 t.2 ++ zeros 12 ++ sliceBytes rec.body 0 64 ++ zeros 32
  let put := (r.put + 1) % 2 ^ 32
  match deviceWrite (ringLost s r) r.desc (r.base + 64 + 128 * (r.put % r.nent)) entry with
  | .error _ => s
  | .ok s1 =>
    match deviceWrite s1 r.desc r.base (leBytes 4 put) with
    | .error _ => s
    | .ok s2 => { s2 with ring := some { r with put := put }, recSeq := (s.recSeq + 1) % 2 ^ 32, ringDown := false }

/-- Log a period in which the ring cannot be written, once, at the first record that meets it; it ends when a record finds
the ring writable again (R342). The KIND of that log record, which R453 does not list, is a free value (DESIGN CHOICE, log
entry 97). -/
def ringPeriod (s : State) (r : Ring) : State :=
  if ringWritable s r then { s with ringDown := false }
  else if s.ringDown then s
  else
    let (k, s) := takeFree s
    logAppend { s with ringDown := true } (k.toNat % 65536) 0 r.base 0

/-- A record that finds no room: it waits, or is dropped and counted in LOST of the header, at once where the header can be
written. -/
def refuseRecord (s : State) (r : Ring) (rec : Record) : State :=
  let s := ringPeriod s r
  if codeWaits rec.code then { s with waiting := s.waiting ++ [rec] } else ringLost { s with lost := s.lost + 1 } r

/-- Deliver a record (R342): into the ring, or kept until one is installed, or waiting, or dropped. -/
def deliver (s : State) (rec : Record) : State :=
  match s.ring with
  | none =>
    if s.early.length < 256 then { s with early := s.early ++ [rec] }
    else if codeWaits rec.code then { s with waiting := s.waiting ++ [rec] }
    else { s with lost := s.lost + 1 }
  | some r =>
    if (s.waiting.isEmpty || !codeWaits rec.code) && ringRoom s r then ringPut s r rec else refuseRecord s r rec

/-- Deliver waiting records while there is room, at most as many as the fuel. -/
def deliverWaiting : Nat → State → State
  | 0, s => s
  | n + 1, s =>
    match s.ring, s.waiting with
    | some r, w :: ws => if ringRoom s r then deliverWaiting n (ringPut { s with waiting := ws } r w) else s
    | _, _ => s

/-! ### Completion words (R293, R461) -/

/-- The COMPLETION_WORD record (R461). -/
def cwRecord (kind cause addr task value : Nat) : Record :=
  ⟨.completionWord, 3, leBytes 2 (codeNum .completionWord) ++ leBytes 1 kind ++ leBytes 1 cause ++ zeros 4 ++
    leBytes 8 addr ++ leBytes 8 task ++ leBytes 8 value ++ zeros 32⟩

/-- Decrement a far completion word, or drop it with a record (R293, R461; DEDUCED, log entry 50). -/
def decFarWord (s : State) (desc va kind task : Nat) : State :=
  match wordRange s desc va 8 with
  | .error c => deliver s (cwRecord kind c va task 1)
  | .ok rs =>
    let t := physWriteParts s rs (leBytes 8 (leNat (physReads s rs) + (2 ^ 64 - 1)))
    { t with shadowFar := rs.foldl (fun sh r => clearSectors sh r.1 r.2 true) t.shadowFar }

/-- Write a release word with the kill code, or drop it with a record (R348 step 6). -/
def writeRelease (desc task : Nat) (kc : Word) (s : State) (va : Nat) : State :=
  match deviceWrite s desc va (leBytes 8 kc.toNat) with
  | .ok s' => s'
  | .error c => deliver s (cwRecord 4 c va task kc.toNat)

/-! ### Phase counters (R117, R118) -/

/-- Add to a 64-bit word. -/
def addWord (bs : List Byte) (i x : Nat) : List Byte := patchBytes bs i (leBytes 8 (fieldLe bs i 8 + x))

/-- Add the counters of member `m` into its entry of the phase area and zero them; never traps (R118). The body of the
PHASE_AREA record holds the code, the task and the address of the area (DESIGN CHOICE, log entry 125). -/
def phaseAdd (s : State) (g : Gang) (m : Nat) : State × Gang :=
  let c := getCtx g m
  let g' := modCtx g m fun c => { c with cnt := {} }
  if g.launch.phaseArea = 0 then (s, g')
  else
    let va := g.launch.phaseArea + 32 * (16 * m + c.phase)
    match deviceUpdate s g.launch.qdesc va 32 fun old =>
        addWord (addWord (addWord (addWord old 0 c.cnt.lbusy) 8 c.cnt.lidle) 16 c.cnt.wfrozen) 24 c.cnt.wsecond with
    | .ok s' => (s', g')
    | .error _ =>
      if g.phaseBad then (s, g')
      else (deliver s ⟨.phaseArea, 3, leBytes 2 (codeNum .phaseArea) ++ zeros 6 ++ leBytes 8 g.id ++
        leBytes 8 g.launch.phaseArea ++ zeros 40⟩, { g' with phaseBad := true })

/-- Add the counters of every member. -/
def phaseAddAll (s : State) (g : Gang) : State × Gang :=
  (List.range g.members.length).foldl (fun sg m => phaseAdd sg.1 sg.2 m) (s, g)

/-! ### Lakes (R238, R243) -/

/-- Release an array slot: free, or kept until its accepted operations complete (R243). -/
def releaseArr (gid m l : Nat) (a : Option ArrSlot) : Option ArrSlot :=
  match a with
  | none => none
  | some x =>
    if x.gang = gid ∧ x.member = m ∧ x.lake = l ∧ x.zombie = false then
      (if x.inuse = 0 then none else some { x with zombie := true })
    else some x

/-- Take lake `l` of a member from the core's array slots. -/
def dropArr (s : State) (g : Gang) (m l : Nat) : State :=
  let co := (getCtx g m).core
  let c := getCore s g.cluster co
  setCore s g.cluster co { c with arr := c.arr.map (releaseArr g.id m l) }

/-- lk.revk on lake slot `l` (R243); `ext` when it comes from outside the context (R238). -/
def revokeLake (s : State) (g : Gang) (m l : Nat) (ext : Bool) : State × Gang :=
  let c := getCtx g m
  let k := (vget {} c.lakes l)
  let s := if k.pinned then { s with watch := mapSet none s.watch k.watch none } else s
  (dropArr s g m l,
   modCtx g m fun c => { c with lakes := vmod c.lakes l fun k =>
    { k with bound := false, pinned := false, stale := false, fillErr := none, gen := k.gen + 1, fill := .none,
             pend := false, ext := ext } })

/-- Revoke every bound lake of a member (R238). -/
def revokeAll (s : State) (g : Gang) (m : Nat) : State × Gang :=
  (List.range 16).foldl (fun sg l =>
    if (vget {} (getCtx sg.2 m).lakes l).bound then revokeLake sg.1 sg.2 m l false else sg) (s, g)

/-! ### Frames and segments -/

/-- Free the frames a member holds, except those of busy tiles (R205). -/
def freeFrames (s : State) (g : Gang) (m : Nat) : State :=
  let c := getCtx g m
  let k := getCore s g.cluster c.core
  setCore s g.cluster c.core { k with frames := k.frames.map fun f =>
    match f with
    | .held g' m' t => if g' = g.id ∧ m' = m ∧ (vget {} c.tiles t).busy = 0 then .free else f
    | .free => .free
    | .retired => .retired
    | .owned a b d => .owned a b d }

/-- Free a member's instruction segments (R381) and its places in the channel order (R251). -/
def freeSegs (s : State) (g : Gang) (m : Nat) : State :=
  let c := getCtx g m
  let k := getCore s g.cluster c.core
  setCore s g.cluster c.core { k with
    segOwner := k.segOwner.map fun o => if o = some (g.id, m) then none else o
    chq := k.chq.map fun q => q.filter fun e => e != (g.id, m) }

/-! ### Links and routes (R388, R389, R393) -/

/-- A link of this device. -/
def linkOf (s : State) (port : Nat) : Link := mapGet {} s.links port

/-- Replace a link; a change of its state makes firmware compute the routes again. -/
def setLink (s : State) (port : Nat) (l : Link) : State :=
  { s with
    links := mapSet {} s.links port l
    routeGen := if l.st = (linkOf s port).st then s.routeGen else s.routeGen + 1 }

/-- Is the port one of a link (R414)? -/
def linkPort (port : Nat) : Bool := decide (port < 48) && decide (port ≠ 31)

/-- Ports whose link is UP. -/
def upPorts (s : State) : List Nat := (List.range 48).filter fun p => linkPort p && decide ((linkOf s p).st = .up)

/-- Ports on a minimal path to another device: those whose link ends there, else what the route table holds. -/
def routePorts (s : State) (dev : Nat) : List Nat :=
  let direct := (upPorts s).filter fun p => (linkOf s p).peer = dev
  if direct.isEmpty then (upPorts s).filter fun p => (Config.route s.routeGen dev).getLsbD p else direct

/-! ### Collective aborts (R411) -/

/-- The abort packet of an edge: the far endpoint in the layout of a message header, the group and the task. -/
def abortOp (g : Gang) (seq : Nat) (e : Edge) : RemOp where
  seq := seq
  dev := e.dev
  port := 31
  gang := g.id
  member := e.member
  tenant := g.tenant
  kind := .abort
  addr := BitVec.ofNat 64 (e.dev * 2 ^ 48 + e.cluster * 2 ^ 42 + e.core * 2 ^ 39 + e.slot * 2 ^ 37 + e.mport * 2 ^ 31)
  words := [BitVec.ofNat 64 e.group, BitVec.ofNat 64 g.id]
  nrep := 0
  flits := 2
  obw := 0
  sent := false
  lc := g.lc
  lost := false
  ans := none
  cl := g.cluster
  co := (getCtx g e.member).core
  sl := g.slot
  group := e.group

/-- Abort packets of a killed task, one for each recorded edge. -/
def sendAborts (s : State) (g : Gang) : State :=
  let es := s.edges.filter fun e => e.gang = g.id
  let s := { s with edges := s.edges.filter fun e => e.gang ≠ g.id }
  es.foldl (fun s e =>
    let n := mapGet 0 s.seqNo e.dev
    { s with
      seqNo := mapSet 0 s.seqNo e.dev (n + 1)
      remote := s.remote ++ [abortOp g n e] }) s

/-! ### Killing a task (R348) -/

/-- The trap record (R343). -/
def trapRecord (g : Gang) (m : Nat) (code : Code) (tval : Word) (kepc : Nat) (kc : Word) : List Byte :=
  let c := getCtx g m
  leBytes 2 (codeNum code) ++ leBytes 1 m ++ leBytes 1 g.cluster ++ leBytes 1 (c.core + 8 * g.slot) ++ zeros 3 ++
  leBytes 8 g.id ++ leBytes 8 tval.toNat ++ leBytes 8 kepc ++ leBytes 8 g.lc ++ leBytes 8 kc.toNat ++ zeros 16

/-- The members of a killed gang hold nothing more: results, writes, queues, messages are discarded (R143, R413). -/
def stopCtx (c : Ctx) : Ctx :=
  { c with halted := true, mode := 0, results := [], hresults := [], held := [], reads := [], pend := [], laq := [], ldq := [],
           vldq := [], saq := [], sdq := [], vsdq := [], rep := none, farq := c.farq.filter (·.store), kuip := 0,
           chans := c.chans.map fun ch => { ch with state := .idle },
           fifos := Vector.replicate 48 {} }

/-- Stop the plans a gang started, at the end of the step in progress (R436); a start not yet claimed is dropped. -/
def stopPlans (s : State) (gid : Nat) : State :=
  { s with starts := s.starts.filter (fun p => p.gang ≠ gid), plans := s.plans.map fun p => match p.starter with
      | none => p
      | some (g, _) => if g = gid then { p with kill := true } else p }

/-- Fill the second stored tile of an accepted mx.mms. -/
def secondTile (gid m t : Nat) (xs : List (List Byte)) (o : ArrayOp) : ArrayOp :=
  if o.gang = gid ∧ o.member = m ∧ o.tile = t ∧ o.wait then { o with x1 := xs, wait := false } else o

/-- Key of Acc[t][r][n]. -/
def accKey (t r n : Nat) : Nat := 2048 * t + 128 * r + n

/-- Write elements of a tile from a key. -/
def accFill (c : Ctx) (lo : Nat) (vs : List Lane) : Ctx := { c with acc := mapFill 0 c.acc lo vs }

/-- The second half of a tile, as an f32 mx.ld loads it a cycle later (R207). -/
def secondHalf (bs : List Byte) (t : Nat) (c : Ctx) : Ctx :=
  accFill c (accKey t 0 0 + 1024) ((List.range 1024).map fun i => BitVec.ofNat 32 (fieldLe bs (4 * i) 4))

/-- The second read of an accepted mx.mms (R207); nothing for the second half of an mx.ld. -/
def readPlanes (g : Gang) (m : Nat) (s : State) (r : PendRead) : State :=
  if r.planes = 0 then s
  else
    let xs := (List.range r.planes).map fun j => spadReads s g.cluster (r.addr + 256 * j) 256
    let co := (getCtx g m).core
    let k := getCore s g.cluster co
    setCore s g.cluster co { k with engine := k.engine.map (secondTile g.id m r.tile xs) }

/-- The second reads of a gang's accepted operations are made: those run on although the gang's clock stands (R205, R317). -/
def readAllPlanes (s : State) (g : Gang) : State :=
  (List.range g.members.length).foldl (fun s m => (getCtx g m).reads.foldl (readPlanes g m) s) s

/-- The second half of each tile whose load has read its first half only. -/
def finishHalves (s : State) (cl : Nat) (c : Ctx) : Ctx :=
  c.reads.foldl (fun c r => if r.planes = 0 then secondHalf (spadReads s cl r.addr 4096) r.tile c else c) { c with reads := [] }

/-- A gang stops for trap or interrupt service, or for its pre-emption: the tile writes still due are made, with the reads
they need (R207). -/
def stopReads (s : State) (g : Gang) : State × Gang :=
  (readAllPlanes s g, { g with members := g.members.map (finishHalves s g.cluster) })

/-- Kill a task (R348): the gang stops, its state is discarded, abort and release words are written, the trap record is
delivered; the completion (steps 8 and 9) follows when accepted array operations have ended. `kepc` is the address
the record shows. -/
def killGang (s : State) (g : Gang) (k : KillReq) (code : Code) (kepc : Nat) : State :=
  let kc := killCode k.reason g.id k.arg k.code
  let rec_ : Record := ⟨code, 0, trapRecord g k.member code k.tval kepc kc⟩
  let s := stopPlans (readAllPlanes { s with claims := s.claims.filter fun c => c.1 ≠ g.id } g) g.id
  let sg := (List.range g.members.length).foldl (fun sg m => revokeAll sg.1 sg.2 m) (s, g)
  let s := (List.range g.members.length).foldl (fun s m => freeSegs (freeFrames s sg.2 m) sg.2 m) sg.1
  let s := sendAborts s g
  let s := g.task.releases.foldl (writeRelease g.launch.xdesc g.id kc) s
  let pg := phaseAddAll s sg.2
  let s := deliver pg.1 rec_
  putGang s { pg.2 with members := pg.2.members.map stopCtx, killed := some kc, kill := none, calls := [],
                        preempt := none, claim := {}, yld := false, pulls := [] }

/-- The address a kill's record shows: the member's next bundle (R343). -/
def nextPc (c : Ctx) : Nat := if c.mode = 0 then c.pc else c.hpc

/-- Kill the task of an identity with a code, reason, argument and trap value; nothing when it has ended (DEDUCED, log entry 27). -/
def killTask (s : State) (gid : Nat) (code : Code) (reason arg : Nat) (tval : Word) (m : Nat) : State :=
  match findGang s gid with
  | none => s
  | some g =>
    if g.killed.isSome then s
    else killGang s g ⟨codeNum code, reason, arg, tval, m⟩ code (nextPc (getCtx g m))

/-- Kill the task for a fault that member `m` meets (R136, R278): in a service handler it is DOUBLE_FAULT, with the kepc of
service entry and the code as ktval (R338). -/
def faultTask (s : State) (gid : Nat) (code : Code) (reason arg : Nat) (tval : Word) (m : Nat) : State :=
  match findGang s gid with
  | none => s
  | some g =>
    if g.killed.isSome then s
    else if 2 ≤ (getCtx g m).mode then
      killGang s g ⟨codeNum .doubleFault, 0, 0, BitVec.ofNat 64 (codeNum code), m⟩ .doubleFault (getCtx g m).kepc.toNat
    else killTask s gid code reason arg tval m

/-! ### Taking a trap, and returning (R334 to R347) -/

/-- ksvec of a context slot of a core: as written since bring-up, else as firmware set it then (R352). -/
def ksvecOf (s : State) (cl co sl : Nat) : Word := (vget none (getCore s cl co).ksvec sl).getD s.svcVec

/-- Enter service mode on a member (R340). -/
def enterSvc (s : State) (g : Gang) (m : Nat) (cls : Nat) (code : Code) (tval : Word) (kepc : Nat) : State :=
  let c := getCtx g m
  let ksvec := ksvecOf s g.cluster c.core g.slot
  let r := stopReads s g
  let g' := modCtx r.2 m fun c => { c with
    kcause := BitVec.ofNat 64 (cls * 65536 + codeNum code)
    ktval := tval
    kepc := BitVec.ofNat 64 kepc
    mode := if c.mode = 1 then 3 else 2
    hfirst := false
    hpc := ksvec.toNat % 16384 / 4 * 4 }
  if ksvec.getLsbD 63 then putGang r.1 g'
  else killGang s g ⟨codeNum code, 0, 0, tval, m⟩ code kepc

/-- Take a trap of a bundle at its boundary (R334, R338 to R340): a fault of service code is DOUBLE_FAULT, a fatal code
kills the task, a replayable one enters service with kepc at the trapping bundle (DEDUCED, log entry 88). -/
def takeTrap (s : State) (gid : Nat) (t : TrapReq) : State :=
  match findGang s gid with
  | none => s
  | some g =>
    let c := getCtx g t.member
    if 2 ≤ c.mode then
      killGang s g ⟨codeNum .doubleFault, 0, 0, BitVec.ofNat 64 (codeNum t.code), t.member⟩ .doubleFault c.kepc.toNat
    else if codeReplayable t.code then enterSvc s g t.member 1 t.code t.val (nextPc c)
    else killGang s g ⟨codeNum t.code, 0, 0, t.val, t.member⟩ t.code (nextPc c)

/-- Take the service call of a tr.trap performed by the bundle before the boundary (R340); in a service handler the call
is a fault of service code (R338). -/
def takeCall (s : State) (gid m : Nat) (tval : Word) (kepc : Nat) : State :=
  match findGang s gid with
  | none => s
  | some g =>
    let g := { g with calls := g.calls.filter fun e => e.1 ≠ m }
    if 2 ≤ (getCtx g m).mode then
      killGang s g ⟨codeNum .doubleFault, 0, 0, BitVec.ofNat 64 (codeNum .serviceCall), m⟩ .doubleFault
        (getCtx g m).kepc.toNat
    else enterSvc s g m 2 .serviceCall tval kepc

/-- The lowest source bit pending and enabled (R345). -/
def pendingSrc (c : Ctx) : Option Nat :=
  if c.mode = 0 ∧ c.kuie.getLsbD 7 then
    (List.range 7).find? fun b => c.kuip.getLsbD b && c.kuie.getLsbD b
  else none

/-- Take a user-level interrupt on member `m` (R345, R346): kuepc takes the boundary's bundle, kucause the source, the
pending bit clears, and the handler at kuvec runs in MODE 1. -/
def takeUserInterrupt (g : Gang) (m b : Nat) : Gang :=
  modCtx g m fun c => { c with
    kuepc := BitVec.ofNat 64 c.pc
    kucause := BitVec.ofNat 64 ((b + 1) + 256 * ((if b = 4 then c.pktRings.foldl min 255 else if b = 5 then c.msgArg
      else if b = 6 then c.cwArg else 0) % 256))
    kuip := c.kuip &&& ~~~(BitVec.ofNat 64 (2 ^ b))
    pktRings := if b = 4 then [] else c.pktRings
    mode := 1
    hfirst := true
    hpc := c.kuvec.toNat }

/-- The gang stops, and the interrupt is taken (R207, R345). -/
def enterUser (s : State) (g : Gang) (m b : Nat) : State :=
  let r := stopReads s g
  putGang r.1 (takeUserInterrupt r.2 m b)

/-- A raise of a user-level interrupt source on a context (R344): nothing once it has halted, and nothing where the bit is
already set, but that a packet arrival (bit 4) keeps a flag per ring. -/
def raiseBit (b : Nat) (f : Ctx → Ctx) (c : Ctx) : Ctx :=
  if c.halted then c
  else if c.kuip.getLsbD b && decide (b ≠ 4) then c
  else f { c with kuip := c.kuip ||| BitVec.ofNat 64 (2 ^ b) }

/-- Raise a user-level interrupt source on a member (R344); nothing once it has halted or ended. -/
def raiseUser (s : State) (gid m b : Nat) (f : Ctx → Ctx) : State := modCtxOf s gid m (raiseBit b f)

/-- Return from service (tr.rft, R341, R354): the mode before entry; the bundle at kepc is next. -/
def returnSvc (c : Ctx) : Ctx :=
  if c.mode = 3 then { c with mode := 1, hpc := c.kepc.toNat, hret := 0 }
  else { c with mode := 0, pc := c.kepc.toNat, hret := 0 }

/-- Return from a user-level handler (tr.rfu, R347). -/
def returnUser (c : Ctx) : Ctx := { c with mode := 0, pc := c.kuepc.toNat, hret := 0 }

/-- A return that waited for handler results, once none is pending (R337). -/
def finishReturn (c : Ctx) : Ctx :=
  if c.hret = 0 ∨ c.hresults ≠ [] then c else if c.hret = 1 then returnSvc c else returnUser c

end Sys2Proof.Machine
end

