-- ==== Sys2Proof/Machine/Race.lean ====
section
/-! DEFINITION. Race: the race detector's shadow entries, intervals and seen tables (R301 to R305). -/

namespace Sys2Proof.Machine

/-- Identity of a writer: cluster, core, slot, as bits 31:21 of a shadow entry (R301). -/
def whoBits (cl co sl : Nat) : Nat := cl % 64 * 32 + co % 8 * 4 + sl % 4

/-- The identity of a member. -/
def whoOf (g : Gang) (m : Nat) : Nat := whoBits g.cluster (getCtx g m).core g.slot

/-- A shadow entry (R301). -/
def shadowEntry (who epoch interval scope : Nat) (sync : Bool) : Lane :=
  BitVec.ofNat 32 (who % 2048 * 2 ^ 21 + epoch % 256 * 2 ^ 13 + interval % 256 * 32 + scope % 8 * 4 +
    (if sync then 2 else 0) + 1)

/-- Fields of an entry. -/
def shWho (e : Lane) : Nat := e.toNat / 2 ^ 21
/-- EPOCH. -/
def shEpoch (e : Lane) : Nat := bitsOf e.toNat 20 13
/-- INTERVAL. -/
def shInterval (e : Lane) : Nat := bitsOf e.toNat 12 5
/-- SCOPE. -/
def shScope (e : Lane) : Nat := bitsOf e.toNat 4 2
/-- SYNC. -/
def shSync (e : Lane) : Bool := bitAt e.toNat 1
/-- VALID. -/
def shValid (e : Lane) : Bool := bitAt e.toNat 0

/-- Low 8 bits of a context slot's dispatch count (R301). -/
def epochOf (s : State) (cl co sl : Nat) : Nat := ((getCore s cl co).epoch.toList.getD sl 0) % 256

/-- The epoch of a writer as it stands. -/
def epochOfWho (s : State) (who : Nat) : Nat := epochOf s (who / 32) (who / 4 % 8) (who % 4)

/-- The entry a write of a member leaves. -/
def entryOf (s : State) (g : Gang) (m scope : Nat) (sync : Bool) : Lane :=
  let c := getCtx g m
  shadowEntry (whoOf g m) (epochOf s g.cluster c.core g.slot) c.interval scope sync

/-- Is a writer a member of the gang? -/
def whoInGang (g : Gang) (who : Nat) : Bool :=
  who / 32 = g.cluster && who % 4 = g.slot && g.members.any fun c => c.core = who / 4 % 8

/-- The seen-table entry for a writer. -/
def seenFor (c : Ctx) (who epoch : Nat) : Option Seen := c.seen.find? fun x => x.who = who && x.epoch = epoch

/-- OVF of kcfg (R304). -/
def cfgOvf (c : Ctx) : Bool := c.kcfg.getLsbD 0
/-- MODE of kcfg. -/
def cfgMode (c : Ctx) : Nat := bitsOf c.kcfg.toNat 2 1
/-- FAR of kcfg. -/
def cfgFar (c : Ctx) : Bool := c.kcfg.getLsbD 3

/-- Does an access (not an atomic or a wait read) by member `m` to bytes of a sector conflict with the write that the
sector's entry records, and is that write another gang's (R292, R303)? -/
def conflicts (s : State) (g : Gang) (m : Nat) (x : Shadow) (mask : Word) : Bool :=
  cfgMode (getCtx g m) ≠ 0 && shValid x.ent && shEpoch x.ent = epochOfWho s (shWho x.ent) && !whoInGang g (shWho x.ent) &&
  !shSync x.ent && x.mask &&& mask != 0

/-- Is such an access reported: the seen table does not show the recorded write to be before it (R303)? -/
def raceHit (s : State) (g : Gang) (m : Nat) (x : Shadow) (mask : Word) : Bool :=
  let c := getCtx g m
  conflicts s g m x mask &&
  (match seenFor c (shWho x.ent) (shEpoch x.ent) with
    | none => !cfgOvf c
    | some y =>
      let d := (y.interval + 256 - shInterval x.ent) % 256
      !(decide (1 ≤ d) && decide (d ≤ 128)))

/-- A use of the seen-table entry for a writer: it becomes the most recently used (R302; DEDUCED, log entry 103). -/
def useSeen (who epoch : Nat) (c : Ctx) : Ctx :=
  match seenFor c who epoch with
  | none => c
  | some x => { c with seen := c.seen.map fun y =>
      if y = x then { y with age := 0 } else if y.age < x.age then { y with age := y.age + 1 } else y }

/-- Does a scope code include another agent, seen from a member (R288)? -/
def scopeIncludes (scope : Nat) (g : Gang) (m who : Nat) : Bool :=
  if scope = 0 then who / 4 = whoOf g m / 4
  else if scope = 1 then whoInGang g who
  else if scope = 2 then who / 32 = g.cluster
  else scope = 3 || scope = 4

/-- Do the release's scope (from its writer) and the acquire's scope include each other (R291)? Both agents are on this
device, so the relation is the same from either end except for gang scope. -/
def scopesMeet (relScope acqScope : Nat) (g : Gang) (m who : Nat) : Bool :=
  scopeIncludes relScope g m who && scopeIncludes acqScope g m who

/-- Note a release read, for a later acquire fence (R289). -/
def noteRel (r : RelRead) (c : Ctx) : Ctx :=
  if c.relReads.contains r then c else { c with relReads := c.relReads ++ [r] }

/-- Record a releaser's interval after a release in the seen table, over the least recently used entry when it is full
(R302). -/
def seenAdd (c : Ctx) (who epoch interval : Nat) : Ctx :=
  let older := c.seen.filter fun x => x.who ≠ who
  let e : Seen := ⟨who, epoch, interval % 256, 0⟩
  let aged := older.map fun x => { x with age := x.age + 1 }
  if older.length < 8 then { c with seen := e :: aged }
  else
    let oldest := aged.foldl (fun a x => max a x.age) 0
    let keep := (aged.filter fun x => x.age ≠ oldest) ++ ((aged.filter fun x => x.age = oldest).drop 1)
    { c with seen := e :: keep, kcfg := c.kcfg ||| 1 }

/-- An acquire at a scope that reads a release's value, the gang's own releases among them: a release that synchronises is
recorded (R302); the flag says that its scopes fail R291 (R303). -/
def acquireEntry (s : State) (g : Gang) (m acqScope : Nat) (e : Lane) : Gang × Bool :=
  if shValid e && shEpoch e = epochOfWho s (shWho e) && shScope e ≠ 7 then
    if scopesMeet (shScope e) acqScope g m (shWho e) then
      (modCtx g m fun c => seenAdd c (shWho e) (shEpoch e) (shInterval e + 1), false)
    else (g, true)
  else (g, false)

/-- The scope of a write that stands after two release fences, or of a release after one (R289): the wider of the two
codes (DESIGN CHOICE, log entry 128). -/
def widerScope (a b : Nat) : Nat := if a = 7 then b else if b = 7 then a else max a b

/-- A release performed by a member raises its INTERVAL (R302). -/
def bumpInterval (g : Gang) (m : Nat) : Gang :=
  modCtx g m fun c => { c with interval := (c.interval + 1) % 256 }

/-- The race record (R305): sector, flags, accessor, entry, logical cycle, task. -/
def raceRecord (g : Gang) (m addr : Nat) (far write scope : Bool) (path : Nat) (e : Lane) : Record :=
  let who := whoOf g m
  ⟨.race, 3, leBytes 8 addr ++ leBytes 1 ((if far then 1 else 0) + (if write then 2 else 0) + (if scope then 4 else 0) +
      8 * path) ++ zeros 1 ++ leBytes 2 (who / 32 * 128 + who / 4 % 8 * 16 + who % 4 * 4) ++ leBytes 4 e.toNat ++
      leBytes 8 g.lc ++ leBytes 8 g.id ++ zeros 32⟩

/-- The sectors of a range. -/
def sectorsOf (a n : Nat) : List Nat :=
  (List.range (n / 64 + 2)).filterMap fun i =>
    if a / 64 * 64 + 64 * i < a + n then some (a / 64 + i) else none

/-- A sector of scratchpad. -/
def shadowAt (s : State) (cl sec : Nat) : Shadow := mapGet {} (getCluster s cl).shadow sec

/-- A sector of device memory. -/
def shadowFarAt (s : State) (sec : Nat) : Shadow := mapGet {} s.shadowFar sec

/-- Is the recorded write a release (R289)? -/
def isRelease (e : Lane) : Bool := shValid e && decide (shScope e ≠ 7)

/-- The releases whose values a read of bytes of a sector returns (R291). -/
def relsAt (x : Shadow) (mask : Word) (addr : Nat) (far slot : Bool) (path : Nat) : List RelRead :=
  (x.heads.filter fun h => h.1 &&& mask != 0).map fun h => ⟨h.2, x.ent, addr, far, slot, path⟩

/-- A sector after a write of some bytes (R303: every write updates the entry). A write that leaves the entry as it is adds
its bytes; a plain write ends the releases of the bytes it overwrites, and an atomic continues them (R291). -/
def noteWrite (atomic : Bool) (mask : Word) (e : Lane) (x : Shadow) : Shadow :=
  { ent := e
    mask := mask ||| if x.ent = e then x.mask else 0
    heads :=
      (if atomic then x.heads.filter fun h => !(shWho h.2 = shWho e && h.1 &&& ~~~mask = 0) else stripHeads mask x.heads) ++
      if isRelease e then [(mask, e)] else [] }

/-- Give the sectors of a range an entry. -/
def noteSectors (atomic : Bool) (a n : Nat) (e : Lane) (sh : SMap Shadow) : SMap Shadow :=
  (sectorsOf a n).foldl (fun m sec => mapSet {} m sec (noteWrite atomic (byteMask sec a n) e (mapGet {} m sec))) sh

/-- Give the sectors of a local range an entry. -/
def shadowSet (s : State) (cl a n : Nat) (atomic : Bool) (e : Lane) : State :=
  let c := getCluster s cl
  setCluster s cl { c with shadow := noteSectors atomic a n e c.shadow }

/-- Give the sectors of a physical range an entry, for a writer whose kcfg.FAR is 1. -/
def shadowFarSet (s : State) (pa n : Nat) (atomic : Bool) (e : Lane) : State :=
  { s with shadowFar := noteSectors atomic pa n e s.shadowFar }

/-- The releases that a read of a range of scratchpad returns (R289). -/
def spadRels (s : State) (cl a n : Nat) (slot : Bool) (path : Nat) : List RelRead :=
  (sectorsOf a n).flatMap fun sec => relsAt (shadowAt s cl sec) (byteMask sec a n) (sec * 64) false slot path

/-- The releases that a read of a far range returns, where the member's detector covers device memory (R289). -/
def farRels (s : State) (c : Ctx) (pa va n : Nat) (slot : Bool) (path : Nat) : List RelRead :=
  if !cfgFar c then []
  else (sectorsOf pa n).flatMap fun sec =>
    relsAt (shadowFarAt s sec) (byteMask sec pa n) (va / 64 * 64 + 64 * (sec - pa / 64)) true slot path

/-- Write device memory for a member: its entry stands where kcfg.FAR is 1, and no writer is known otherwise (R301; DEDUCED, log entry 46). -/
def farWriteBy (s : State) (c : Ctx) (pa : Nat) (bs : List Byte) (ent : Lane) : State :=
  let s := physWrite s pa bs
  if cfgFar c then shadowFarSet s pa bs.length false ent else clearFarShadow s pa bs.length

/-- The entry a far store leaves: the INTERVAL is its context's when it is performed (R295, R301). -/
def farEntry (c : Ctx) (o : FarOp) : Lane :=
  shadowEntry (shWho o.ent) (shEpoch o.ent) c.interval (shScope o.ent) (shSync o.ent)

/-- Perform a far store of a member (R277): one that is a release raises INTERVAL (R302). -/
def farStore (s : State) (c : Ctx) (o : FarOp) : State × Ctx :=
  (farWriteBy s c o.pa (leBytes o.bytes o.data.toNat) (farEntry c o),
    if shScope o.ent = 7 then c else { c with interval := (c.interval + 1) % 256 })

/-- Write consecutive parts of device memory for a member. -/
def farPartsBy (c : Ctx) (ent : Lane) : List (Nat × Nat) → List Byte → State → State
  | [], _, s => s
  | r :: rs, bs, s => farPartsBy c ent rs (bs.drop r.2) (farWriteBy s c r.1 (bs.take r.2) ent)

/-! ### Accesses that engines make for a context (R301, R303, R304) -/

/-- The entry an engine's write leaves for the context it acts for (R301). -/
def engineEntry (s : State) (g : Gang) (m ival scope : Nat) (sync : Bool) : Lane :=
  shadowEntry (whoOf g m) (epochOf s g.cluster (getCtx g m).core g.slot) ival scope sync

/-- Check an engine's access to bytes of a sector for a member: a report is a record and no trap. -/
def engineSector (s : State) (gid m : Nat) (x : Shadow) (mask : Word) (addr : Nat) (far write : Bool) (path : Nat) : State :=
  match findGang s gid with
  | none => s
  | some g =>
    let t := if conflicts s g m x mask then modCtxOf s gid m (useSeen (shWho x.ent) (shEpoch x.ent)) else s
    if raceHit s g m x mask then deliver t (raceRecord g m addr far write false path x.ent) else t

/-- Check an engine's access to the local space of a cluster. -/
def engineRaceAt (s : State) (g : Gang) (m cl a n : Nat) (write : Bool) (path : Nat) : State :=
  (sectorsOf a n).foldl (fun s sec =>
    engineSector s g.id m (shadowAt s cl sec) (byteMask sec a n) (sec * 64) false write path) s

/-- Check an engine's access to the gang's local space. -/
def engineRace (s : State) (g : Gang) (m a n : Nat) (write : Bool) (path : Nat) : State :=
  engineRaceAt s g m g.cluster a n write path

/-- Check an engine's access to device memory, where the detector covers it. -/
def engineFarRace (s : State) (g : Gang) (m pa va n : Nat) (write : Bool) (path : Nat) : State :=
  if !cfgFar (getCtx g m) then s
  else (sectorsOf pa n).foldl (fun s sec =>
    engineSector s g.id m (shadowFarAt s sec) (byteMask sec pa n) (va / 64 * 64 + 64 * (sec - pa / 64)) true write path) s

/-- Check an engine's access to consecutive parts of device memory. -/
def engineFarRaces (s : State) (g : Gang) (m va : Nat) (rs : List (Nat × Nat)) (write : Bool) (path : Nat) : State :=
  (rs.foldl (fun x r => (engineFarRace x.1 g m r.1 x.2 r.2 write path, x.2 + r.2)) (s, va)).1

/-- Decrement a far completion word as a release of a member, with the entry `ent` where its detector covers device memory
(R262, R293, R302). -/
def releaseFarWord (s : State) (desc : Nat) (g : Gang) (m va kind : Nat) (ent : Lane) : State :=
  let t := decFarWord s desc va kind g.id
  match cfgFar (getCtx g m), wordRange s desc va 8 with
  | true, .ok rs => rs.foldl (fun t r => shadowFarSet t r.1 r.2 true ent) t
  | _, _ => t

end Sys2Proof.Machine
end

