-- ==== Sys2Proof/Machine/Operands.lean ====
section
/-! DEFINITION. Operands: how a slot reads and writes every operand form. A slot runs on a tentative state beside its
gang's issue record (`Perf`): it reads the gang as it stood before the bundle, and changes the working copy (R54). A
trap or a freeze is recorded, and the whole attempt is dropped by Issue.lean when there is one (R71, R113). -/

namespace Sys2Proof.Machine

/-- A slot being performed: the tentative state and the issue record of its gang. -/
structure Perf where
  st : State
  is : Issue
deriving DecidableEq, Repr

/-- The member's context as every slot of the bundle reads it. -/
def oldCtx (p : Perf) : Ctx := getCtx p.is.old p.is.m

/-- The member's working copy. -/
def workCtx (p : Perf) : Ctx := getCtx p.is.work p.is.m

/-- LogicalCycle() (R73, R337). -/
def logicalCycle (p : Perf) : Nat := p.is.old.lc

/-- The cluster of the issuing gang. -/
def clusterOf (p : Perf) : Nat := p.is.old.cluster

/-- The wall cycle of the cluster. -/
def wallOf (p : Perf) : Nat := (getCluster p.st (clusterOf p)).wall

/-- Change the member's working copy. -/
def modWork (p : Perf) (f : Ctx → Ctx) : Perf := { p with is := { p.is with work := modCtx p.is.work p.is.m f } }

/-- Record a trap of this slot (R334). -/
def raise (p : Perf) (code : Code) (val : Word) : Perf :=
  { p with is := { p.is with traps := p.is.traps ++ [⟨p.is.m, p.is.slot, code, val⟩] } }

/-- SCHEDULE_VIOLATION, whose trap value is the slot index (R339). -/
def violate (p : Perf) : Perf := raise p .scheduleViolation (BitVec.ofNat 64 p.is.slot)

/-- Record a freeze cause (R112). -/
def freezeOn (p : Perf) (c : Freeze) : Perf := { p with is := { p.is with freezes := p.is.freezes ++ [c] } }

/-- Record a storage action, which stays in force even if the bundle does not issue (R71). -/
def addAct (p : Perf) (a : Act) : Perf := { p with is := { p.is with acts := p.is.acts ++ [a] } }

/-- Record a scratchpad write or atomic, performed when the bundle issues (R54, R185). -/
def addOp (p : Perf) (o : MemOp) : Perf := { p with is := { p.is with ops := p.is.ops ++ [o] } }

/-- A free value (DESIGN CHOICE, log entry 5). -/
def freeWord (p : Perf) : Word × Perf := ((takeFree p.st).1, { p with st := (takeFree p.st).2 })

/-- Is the code at service privilege (R331, R333)? -/
def privileged (p : Perf) : Bool := p.is.old.svc || decide (2 ≤ (oldCtx p).mode)

/-! ### Words, lanes and masks -/

/-- A scalar as a result value. -/
def ofWord (w : Word) : Vec := w.setWidth 2048
/-- The bits of a scalar register. -/
def wordMask : Vec := ofWord (BitVec.allOnes 64)
/-- Every bit of a vector register. -/
def fullMask : Vec := BitVec.allOnes 2048

/-- Lane `i` of a vector register (R134). -/
def lane (v : Vec) (i : Nat) : Lane := v.extractLsb' (32 * i) 32

/-- A vector register from its lanes; `f i` gives lane i. -/
def ofLanes (f : Nat → Lane) : Vec :=
  BitVec.ofNat 2048 ((List.range 64).foldr (fun i acc => (f i).toNat * 2 ^ (32 * i) + acc) 0)

/-- The bits of the lanes whose predicate bit is 1 (R58). -/
def laneMask (q : Word) : Vec := ofLanes fun i => if q.getLsbD i then BitVec.allOnes 32 else 0

/-- The bytes of a vector register, little-endian. -/
def vecBytes (v : Vec) : List Byte := (List.range 256).map fun i => v.extractLsb' (8 * i) 8

/-- A vector register from 256 bytes. -/
def ofBytes (bs : List Byte) : Vec := BitVec.ofNat 2048 (leNat (bs.take 256))

/-! ### Presence of register blocks (R138, R309, R310) -/

/-- Touch a register block: 0 the scalar block, 1 + j vector block j. An absent one freezes the gang and asks for it. -/
def touchBlock (p : Perf) (b : Nat) : Perf :=
  let c := workCtx p
  let here := if b = 0 then c.presS else vget true c.presV (b - 1)
  if here then
    modWork p fun c => if b = 0 then { c with touchS := true } else { c with touchV := vset c.touchV (b - 1) true }
  else
    let p := addAct (freezeOn p .absent) (.block p.is.m b)
    { p with is := { p.is with away := p.is.away || decide (b = 0) && c.touchS } }

/-- Block of a vector register. -/
def vecBlock (n : Nat) : Nat := 1 + n / 4

/-! ### Results (R9, R114, R115, R337) -/

/-- Results in flight at a logical cycle (R114). -/
def inFlight (c : Ctx) (t : Nat) : Nat := (c.results.filter fun r => decide (t < r.due)).length

/-- Bind a result to a register: visible `lat` logical cycles later, or, in a handler, wall cycles later; a seventeenth
result in flight is a violation. -/
def pushResult (p : Perf) (lat : Nat) (file : RFile) (num : Nat) (mask val : Vec) : Perf :=
  if p.is.handler then
    modWork p fun c => { c with hresults := c.hresults ++ [⟨wallOf p + lat, file, num, mask, val, none, []⟩] }
  else
    let p := modWork p fun c => { c with results := c.results ++ [⟨logicalCycle p + lat, file, num, mask, val, none, []⟩] }
    if 16 < inFlight (workCtx p) (logicalCycle p + 1) then violate p else p

/-! ### The compiler-timed queues (R139 to R142) -/

/-- Entries counted toward the LDQ or the VLDQ: those arrived, and the loads that will arrive (R140). -/
def loadCount (c : Ctx) (vec : Bool) : Nat :=
  (c.laq.filter fun e => e.vec == vec && !e.atomic).length + (if vec then c.vldq.length else c.ldq.length)

/-- Does a queue hold more than its 16 entries (R140)? -/
def queueOver (c : Ctx) : Bool :=
  decide (16 < c.laq.length) || decide (16 < loadCount c false) || decide (16 < loadCount c true) ||
  decide (16 < c.saq.length) || decide (16 < c.sdq.length) || decide (16 < c.vsdq.length)

/-- Change the queues by a push; a queue made to hold more than 16 entries is a violation (DEDUCED, log entry 84). -/
def pushQueue (p : Perf) (f : Ctx → Ctx) : Perf :=
  let p := modWork p f
  if queueOver (workCtx p) then violate p else p

/-- Pop the LDQ (R140). -/
def popLdq (p : Perf) : Word × Perf :=
  match (workCtx p).ldq with
  | [] => (0, violate p)
  | w :: r => (w, modWork p fun c => { c with ldq := r })

/-- Pop the VLDQ (R140). -/
def popVldq (p : Perf) : Vec × Perf :=
  match (workCtx p).vldq with
  | [] => (0, violate p)
  | v :: r => (v, modWork p fun c => { c with vldq := r })

/-- Push the SDQ, present `lat` logical cycles later (R149). -/
def pushSdq (p : Perf) (lat : Nat) (v : Word) : Perf :=
  pushQueue p fun c => { c with sdq := c.sdq ++ [⟨logicalCycle p + lat, ofWord v⟩] }

/-- Push the VSDQ. -/
def pushVsdq (p : Perf) (lat : Nat) (v : Vec) : Perf :=
  pushQueue p fun c => { c with vsdq := c.vsdq ++ [⟨logicalCycle p + lat, v⟩] }

/-! ### Parity (R136) -/

/-- A read of register `n` of a file: an entry whose parity fails in this wall cycle raises REGISTER_PARITY. -/
def readReg (p : Perf) (f : RFile) (n : Nat) : Perf :=
  match p.is.par with
  | none => p
  | some b => if b.file = some f ∧ b.num = n then raise p .registerParity b.tval else p

/-- The first entry of an inbound FIFO is read (R134). -/
def readFifo (p : Perf) (port : Nat) : Perf :=
  match p.is.par with
  | none => p
  | some b => if b.file = none ∧ b.num = port then raise p .registerParity b.tval else p

/-! ### Scalar registers (R56, R57, R332) -/

/-- Where a scalar register number leads in a mode. -/
inductive SPlace where
  | zero | port | user (n : Nat) | shadow (n : Nat) | service (n : Nat)
deriving DecidableEq, Repr

/-- The register a scalar number names: s0 is 0; s31 is the port in RUN mode only; 24 to 31 name the shadow registers
in a user-level handler; service code names its bank. -/
def placeS (mode n : Nat) : SPlace :=
  if n = 0 then .zero
  else if mode = 0 then (if n = 31 then .port else .user n)
  else if mode = 1 then (if 24 ≤ n then .shadow (n - 24) else .user n)
  else .service n

/-- Sreg[n] (R72). -/
def readS (p : Perf) (n : Nat) : Word × Perf :=
  match placeS (oldCtx p).mode n with
  | .zero => (0, p)
  | .port => popLdq p
  | .user n => (vget 0 (oldCtx p).s n, readReg (touchBlock p 0) .s n)
  | .shadow n => (vget 0 (oldCtx p).h n, readReg (touchBlock p 0) .h n)
  | .service n => (vget 0 (oldCtx p).ss n, readReg p .ss n)

/-- Assign Sreg[n], visible `lat` cycles later. -/
def writeS (p : Perf) (n lat : Nat) (v : Word) : Perf :=
  match placeS (oldCtx p).mode n with
  | .zero => p
  | .port => pushSdq p lat v
  | .user n => pushResult (touchBlock p 0) lat .s n wordMask (ofWord v)
  | .shadow n => pushResult (touchBlock p 0) lat .h n wordMask (ofWord v)
  | .service n => pushResult p lat .ss n wordMask (ofWord v)

/-- The register a scalar destination is bound for, if it is one. -/
def destS (p : Perf) (n : Nat) : Option (RFile × Nat) :=
  match placeS (oldCtx p).mode n with
  | .zero | .port => none
  | .user n => some (.s, n)
  | .shadow n => some (.h, n)
  | .service n => some (.ss, n)

/-- Is a scalar number the queue port here? -/
def isPort (p : Perf) (n : Nat) : Bool := placeS (oldCtx p).mode n = .port

/-! ### Address, predicate, scale and vector registers -/

/-- Areg[n]. -/
def readA (p : Perf) (n : Nat) : Word × Perf :=
  if 2 ≤ (oldCtx p).mode then (vget 0 (oldCtx p).sa n, readReg p .sa n)
  else (vget 0 (oldCtx p).a n, readReg (touchBlock p 0) .a n)

/-- Assign Areg[n]. -/
def writeA (p : Perf) (n lat : Nat) (v : Word) : Perf :=
  if 2 ≤ (oldCtx p).mode then pushResult p lat .sa n wordMask (ofWord v)
  else pushResult (touchBlock p 0) lat .a n wordMask (ofWord v)

/-- Qreg[n]: q0 reads all ones (DEDUCED, log entry 25). -/
def readQ (p : Perf) (n : Nat) : Word × Perf :=
  if n = 0 then (BitVec.allOnes 64, p)
  else if 2 ≤ (oldCtx p).mode then (vget 0 (oldCtx p).sq n, readReg p .sq n)
  else (vget 0 (oldCtx p).q n, readReg (touchBlock p 0) .q n)

/-- Assign the bits of Qreg[n] that `mask` names; a write to q0 is discarded. -/
def writeQ (p : Perf) (n lat : Nat) (mask v : Word) : Perf :=
  if n = 0 then p
  else if 2 ≤ (oldCtx p).mode then pushResult p lat .sq n (ofWord mask) (ofWord v)
  else pushResult (touchBlock p 0) lat .q n (ofWord mask) (ofWord v)

/-- Ereg[n]: e0 reads 0. -/
def readE (p : Perf) (n : Nat) : BitVec 8 × Perf :=
  if n = 0 then (0, p) else (vget 0 (oldCtx p).e n, readReg (touchBlock p 0) .e n)

/-- Assign Ereg[n]. -/
def writeE (p : Perf) (n lat : Nat) (v : BitVec 8) : Perf :=
  if n = 0 then p else pushResult (touchBlock p 0) lat .e n (BitVec.ofNat 2048 255) (v.setWidth 2048)

/-- Vreg[n]: v31 is the port. In handler code, which has no queues, v31 reads as free values (DESIGN CHOICE, log entry 8). -/
def readV (p : Perf) (n : Nat) : Vec × Perf :=
  if n = 31 then
    (if p.is.handler then
      (ofLanes fun i => (Config.freeValue (p.st.free + i)).setWidth 32, { p with st := { p.st with free := p.st.free + 64 } })
     else popVldq p)
  else (vget 0 (oldCtx p).v n, readReg (touchBlock p (vecBlock n)) .v n)

/-- Assign the bits of Vreg[n] that `mask` names; a push holds 0 in the other lanes (R142). -/
def writeV (p : Perf) (n lat : Nat) (mask v : Vec) : Perf :=
  if n = 31 then (if p.is.handler then p else pushVsdq p lat (v &&& mask))
  else pushResult (touchBlock p (vecBlock n)) lat .v n mask v

/-! ### Slots and predicates (R58, R130) -/

/-- The record moved to the next slot. -/
def nextSlot (i : Issue) : Issue := { i with slot := i.slot + 1, cond := true, rep := 0, away := false }

/-- Perform a slot of the bundle being issued: it has a meaning only while one is (R72). -/
def slotOp (s : State) (f : Perf → Perf) : Host.Outcome State Fault Refusal :=
  match s.iss with
  | none => .fault .noIssuingContext
  | some i =>
    let p := f ⟨{ s with iss := none }, i⟩
    .next { p.st with iss := some (nextSlot p.is) }

/-- Perform a px slot: what it sets stays for the slot it modifies (R53). -/
def prefixOp (s : State) (f : Perf → Perf) : Host.Outcome State Fault Refusal :=
  match s.iss with
  | none => .fault .noIssuingContext
  | some i =>
    let p := f ⟨{ s with iss := none }, i⟩
    .next { p.st with iss := some { p.is with slot := p.is.slot + 1 } }

/-- A slot that no predicate governs: performed unless a px.first or px.last forbids it (R130). -/
def always (f : Perf → Perf) (p : Perf) : Perf := if p.is.cond then f p else p

/-- Is the scalar block's saved copy needed to know a predicate: it is absent, and has one (R309)? -/
def predicateAway (p : Perf) (n : Nat) : Bool :=
  decide (n ≠ 0) && decide ((oldCtx p).mode < 2) && !(workCtx p).presS && (workCtx p).touchS

/-- A slot performed only when bit 0 of Qreg[q] is 1 (R58). One that is not performed touches no block (R138); a predicate
whose saved copy is away must be pulled before it is known (DEDUCED, log entry 25). -/
def gated (q : QReg) (f : Perf → Perf) (p : Perf) : Perf :=
  if !p.is.cond then p
  else if predicateAway p q.val then touchBlock p 0
  else
    let (m, p') := readQ p q.val
    if m.getLsbD 0 then f p' else { p with is := { p.is with traps := p'.is.traps } }

/-- A lane slot: always performed, with the predicate of its lanes (R58). -/
def laned (q : QReg) (f : Word → Perf → Perf) (p : Perf) : Perf :=
  if p.is.cond then
    let (m, p) := readQ p q.val
    f m p
  else p

/-! ### Local space (R180, R183, R188, R257, R258, R303, R308) -/

/-- Scratchpad blocks of the allocation that a range meets (R307). -/
def blocksOf (g : Gang) (a n : Nat) : List Nat :=
  (List.range (n / 4096 + 2)).filterMap fun i =>
    let b := (a - g.task.spadBase) / 4096 + i
    if g.task.spadBase + 4096 * b < a + n then some b else none

/-- What follows reads no register that an earlier slot read: a held write, a reissue, a store pair (R310). -/
def clearAway (p : Perf) : Perf := { p with is := { p.is with away := false } }

/-- Presence of the scratchpad blocks of an access (R310). An address made from a register of the scalar block is not known
while that block's saved copy is still to be pulled, and no scratchpad block is asked for. -/
def touchSpad (p : Perf) (a n : Nat) : Perf :=
  (blocksOf p.is.old a n).foldl (fun p b =>
    if !p.is.old.absent.contains b then p
    else if p.is.away then freezeOn p .absent
    else addAct (freezeOn p .absent) (.spad b)) p

/-- Presence of the scratchpad blocks of an access whose address no slot's register makes: a held write's, a ring's. -/
def touchKnown (p : Perf) (a n : Nat) : Perf :=
  let q := touchSpad (clearAway p) a n
  { q with is := { q.is with away := p.is.away } }

/-- DLO and DHI of a channel's transfer (R257). -/
def chanLo (ch : ChanSt) : Int :=
  ch.levels.toList.foldl (fun x l => x + min 0 (((l.count : Int) - 1) * l.dstr)) (ch.dbase.toNat : Int)
/-- DHI. -/
def chanHi (ch : ChanSt) : Int :=
  ch.levels.toList.foldl (fun x l => x + max 0 (((l.count : Int) - 1) * l.dstr)) (ch.dbase.toNat : Int) + ch.size

/-- Does a channel hold back an access (R258)? -/
def chanHolds (ch : ChanSt) (a n : Nat) : Bool :=
  ch.state != .idle && !ch.dfar && decide (max (a : Int) (max (chanLo ch) ch.wmk) < min ((a + n : Nat) : Int) (chanHi ch))

/-- The watermark check (R258). -/
def checkWatermark (p : Perf) (a n : Nat) : Perf :=
  if (oldCtx p).chans.toList.any fun ch => chanHolds ch a n then freezeOn p .watermark else p

/-- Need a bank row in this logical cycle; the gang's own rows may not meet (R183). -/
def needRow (p : Perf) (bank row : Nat) : Perf :=
  let p := if p.is.rows.any fun r => r.1 = bank && r.2 != row then violate p else p
  { p with is := { p.is with rows := if p.is.rows.contains (bank, row) then p.is.rows else p.is.rows ++ [(bank, row)] } }

/-- The bank rows of a range (R181). -/
def needRows (p : Perf) (a n : Nat) : Perf :=
  (sectorsOf a n).foldl (fun p sec => needRow p (sec % 64) (sec / 64 % 2048)) p

/-- The race detector's report on a local access by this member: trapped in trap mode when the access is of an address
slot or a wait, recorded otherwise (R303, R304). -/
def reportRace (p : Perf) (addr : Nat) (far write scope trap : Bool) (path : Nat) (e : Lane) : Perf :=
  if trap && decide (cfgMode (oldCtx p) = 1) then raise p .race (BitVec.ofNat 64 addr)
  else { p with st := deliver p.st (raceRecord p.is.old p.is.m addr far write scope path e) }

/-- Note a release whose value an AS read saw, for a later acquire fence (R289). -/
def noteRelease (p : Perf) (r : RelRead) : Perf := modWork p (noteRel r)

/-- Check an access to bytes of a sector against what the detector keeps of it, at address `addr` of its space (R303). -/
def checkSector (p : Perf) (x : Shadow) (mask : Word) (addr : Nat) (far write trap : Bool) (path : Nat) : Perf :=
  let p := if conflicts p.st p.is.old p.is.m x mask then modWork p (useSeen (shWho x.ent) (shEpoch x.ent)) else p
  if raceHit p.st p.is.old p.is.m x mask then reportRace p addr far write false trap path x.ent else p

/-- Check an access to bytes of a sector of scratchpad, and note the releases an AS read returns (R289, R303). -/
def checkBytes (p : Perf) (sec : Nat) (mask : Word) (write trap : Bool) (path : Nat) : Perf :=
  let x := shadowAt p.st (clusterOf p) sec
  let p := checkSector p x mask (sec * 64) false write trap path
  if !write && decide (path = 0) then (relsAt x mask (sec * 64) false trap 0).foldl noteRelease p else p

/-- Check an access to a range of scratchpad. -/
def checkRace (p : Perf) (a n : Nat) (write trap : Bool) (path : Nat) : Perf :=
  (sectorsOf a n).foldl (fun p sec => checkBytes p sec (byteMask sec a n) write trap path) p

/-- Note the releases that an AS read of a range returns which the detector does not check (R289). -/
def noteRange (p : Perf) (a n : Nat) (slot : Bool) : Perf :=
  (spadRels p.st (clusterOf p) a n slot 0).foldl noteRelease p

/-- Alignment and bounds of a local access: alignment first (R180). `none` when a trap is raised. -/
def checkLocal (p : Perf) (ea n align : Nat) : Option Code :=
  if ea % align ≠ 0 then some .localAlign
  else if inAlloc p.is.old ea n then none else some .localBounds

/-- Checks 2 to 4 of an access of an address slot or the bus (R188), and the race check. -/
def accessLocal (p : Perf) (ea n : Nat) (write trap : Bool) (path : Nat) : Perf :=
  checkRace (needRows (checkWatermark (touchSpad p ea n) ea n) ea n) ea n write trap path

/-- Perform `f` where the access passes R180, else raise the fault with the effective address. -/
def withLocal (p : Perf) (ea n align : Nat) (f : Perf → Perf) : Perf :=
  match checkLocal p ea n align with
  | some c => raise p c (BitVec.ofNat 64 ea)
  | none => f p

/-- The shadow entry a plain AS write of this member leaves: a release at the scope of its last release fence
(R289, R301). -/
def writeEntry (p : Perf) : Lane := entryOf p.st p.is.old p.is.m (oldCtx p).relScope false

/-- A write after a release fence is a release, which raises INTERVAL (R302). -/
def releaseWrite (p : Perf) : Perf :=
  if (oldCtx p).relScope = 7 then p else { p with is := { p.is with work := bumpInterval p.is.work p.is.m } }

/-- Bytes of scratchpad as the bundle's reads see them (R54). -/
def localBytes (p : Perf) (ea n : Nat) : List Byte := spadReads p.st (clusterOf p) ea n

end Sys2Proof.Machine
end

