-- ==== Sys2Proof/Machine/Flags.lean ====
section
/-! DEFINITION. Flags: integer types and every computed truth value and status: TypeRead and TypeExt (R144), the
integer operations and compares of R145, bit counts, and the tile status word (R42). -/

namespace Sys2Proof.Machine

/-- Width of an integer type (R61). -/
def tyWidth : IntTy → Nat
  | .i64 | .n64 => 64 | .i32 | .n32 => 32 | .i16 | .n16 => 16 | .i8 | .n8 => 8

/-- Is the type signed (R144)? -/
def tySigned : IntTy → Bool
  | .i64 | .i32 | .i16 | .i8 => true
  | .n64 | .n32 | .n16 | .n8 => false

/-- The w-bit pattern of an operand. -/
def tyBits (ty : IntTy) (x : Word) : Nat := x.toNat % 2 ^ tyWidth ty

/-- TypeRead (R144). -/
def typeRead (ty : IntTy) (x : Word) : Int :=
  if tySigned ty then toSigned (tyWidth ty) x.toNat else (tyBits ty x : Int)

/-- A number as a 64-bit word, modulo 2^64. -/
def wordOfInt (i : Int) : Word := BitVec.ofInt 64 i

/-- TypeExt (R144): wrapped to w bits, then extended. -/
def typeExt (ty : IntTy) (v : Int) : Word :=
  wordOfInt (typeRead ty (wordOfInt v))

/-- Quotient (R22): by zero −1, which wraps to all ones. -/
def divInt (x y : Int) : Int := if y = 0 then -1 else x.tdiv y

/-- Remainder (R22): by zero the dividend. -/
def remInt (x y : Int) : Int := if y = 0 then x else x.tmod y

/-- 1 or 0. -/
def ofBool (b : Bool) : Int := if b then 1 else 0

/-- Zeros above the highest 1 of a w-bit pattern (R145). -/
def countLeadZero (w x : Nat) : Nat := if x = 0 then w else w - 1 - Nat.log2 x

/-- Zeros below the lowest 1, counted up to `w`. -/
def countTrailZero (x : Nat) : Nat → Nat
  | 0 => 0
  | w + 1 => if x % 2 = 1 then 0 else 1 + countTrailZero (x / 2) w

/-- Number of 1 bits among the low `w`. -/
def countOnes (x : Nat) : Nat → Nat
  | 0 => 0
  | w + 1 => x % 2 + countOnes (x / 2) w

/-- Shift left of a w-bit pattern (R146). -/
def shlBits (w x amt : Nat) : Nat := if w ≤ amt then 0 else x * 2 ^ amt % 2 ^ w
/-- Shift right, zeros in (R146). -/
def shrBits (w x amt : Nat) : Nat := if w ≤ amt then 0 else x / 2 ^ amt
/-- Arithmetic shift right (R146). -/
def sraBits (w x amt : Nat) : Nat :=
  if w ≤ amt then (if bitAt x (w - 1) then 2 ^ w - 1 else 0) else wrapNat w (toSigned w x / 2 ^ amt)
/-- Bit-field extract from a 64-bit word (R146). -/
def extBits (w x pos : Nat) : Nat := if 64 ≤ pos then 0 else x / 2 ^ pos % 2 ^ w

/-- Bitwise operations on patterns. -/
def andInt (w : Nat) (x y : Int) : Int := (Nat.land (wrapNat w x) (wrapNat w y) : Nat)
/-- Bitwise or. -/
def orInt (w : Nat) (x y : Int) : Int := (Nat.lor (wrapNat w x) (wrapNat w y) : Nat)
/-- Bitwise exclusive or. -/
def xorInt (w : Nat) (x y : Int) : Int := (Nat.xor (wrapNat w x) (wrapNat w y) : Nat)

/-- Is a predicate the same over all 64 lanes (R121)? -/
def uniformQ (m : Word) : Bool := m == 0 || m == BitVec.allOnes 64

/-- The tile status word (R42): outlier count, and the OLF, INF and NAN bits. -/
def tileStatus (outc : Nat) (olf inf nan : Bool) : Word :=
  BitVec.ofNat 64 (outc % 4096 * 65536 + olf.toNat * 4 + inf.toNat * 2 + nan.toNat)

/-- The status of elements read, before any conversion (R42). -/
def elemStatus (es : List Lane) (outc : Nat) (olf : Bool) : Word :=
  tileStatus outc olf (es.any fun e => fIsInf f32F e.toNat) (es.any fun e => fIsNan f32F e.toNat)

end Sys2Proof.Machine
end

