-- ==== Sys2Proof/Machine/Copy.lean ====
section
/-! DEFINITION. Copy: the cp operations on copy channels and the broadcast bus (R194, R195, R251 to R264). -/

namespace Sys2Proof.Machine

/-- A channel of the member as the bundle sees it. -/
def chanOf (p : Perf) (n : Nat) : ChanSt := vget {} (oldCtx p).chans n

/-- Change a channel of the member. -/
def modChan (p : Perf) (n : Nat) (f : ChanSt → ChanSt) : Perf :=
  modWork p fun c => { c with chans := vmod c.chans n f }

/-- COPY_PROGRAM, whose trap value is the channel (R339). -/
def copyProgram (p : Perf) (ch : Nat) : Perf := raise p .copyProgram (BitVec.ofNat 64 ch)

/-- A programming slot: it freezes while its channel is not IDLE (R259). -/
def progSlot (ch : Chan) (q : QReg) (f : Perf → Perf) : Perf → Perf :=
  gated q fun p => if (chanOf p ch.val).state ≠ .idle then freezeOn p .watermark else f p

/-- A level word is valid (R260). -/
def levelWordOk (w : Nat) : Bool :=
  !bitAt w 39 && decide (bitsOf w 38 36 ≠ 6) && !bitAt w 35 && decide (bitsOf w 34 32 < 6) && decide (bitsOf w 31 21 = 0) &&
  decide (1 ≤ bitsOf w 20 0) && decide (bitsOf w 20 0 ≤ 2 ^ 20)

/-- `cp.lvl.chN sD, sA, sB` (R260). -/
def execCpLvl (d a b : SReg) (ch : Chan) (q : QReg) (s : State) : Host.Outcome State Fault Refusal :=
  slotOp s (progSlot ch q fun p =>
    let (x, p) := readS p a.val
    let (y, p) := readS p b.val
    let (w, p) := readS p d.val
    if !levelWordOk w.toNat then copyProgram p ch.val
    else
      let l : ChLevel := ⟨bitsOf w.toNat 20 0, bitsOf w.toNat 38 36, toSigned 24 (bitsOf w.toNat 63 40),
        toSigned 64 x.toNat, toSigned 64 y.toNat⟩
      modChan p ch.val fun c => { c with levels := vset c.levels (bitsOf w.toNat 34 32) l })

/-- `cp.src.chN[.far] sA` (R260). -/
def execCpSrc (a : SReg) (ch : Chan) (far : Bool) (q : QReg) (s : State) : Host.Outcome State Fault Refusal :=
  slotOp s (progSlot ch q fun p =>
    let (x, p) := readS p a.val
    modChan p ch.val fun c => { c with sbase := x, sfar := far })

/-- `cp.dst.chN[.far] sA` (R260). -/
def execCpDst (a : SReg) (ch : Chan) (far : Bool) (q : QReg) (s : State) : Host.Outcome State Fault Refusal :=
  slotOp s (progSlot ch q fun p =>
    let (x, p) := readS p a.val
    modChan p ch.val fun c => { c with dbase := x, dfar := far })

/-- A coordinate word and its origin are valid (R260). -/
def coordWordOk (w : Nat) (org : Int) : Bool :=
  decide (bitsOf w 63 53 = 0) && decide (bitsOf w 52 32 ≤ 2 ^ 20) && decide (bitsOf w 31 3 = 0) &&
  decide (bitsOf w 2 0 < 6) && decide (-2 ^ 31 ≤ org) && decide (org ≤ 2 ^ 31 - 1)

/-- `cp.bnd.chN sD, sA, sB` (R260). -/
def execCpBnd (d a b : SReg) (ch : Chan) (q : QReg) (s : State) : Host.Outcome State Fault Refusal :=
  slotOp s (progSlot ch q fun p =>
    let (x, p) := readS p a.val
    let (y, p) := readS p b.val
    let (w, p) := readS p d.val
    if !coordWordOk w.toNat (toSigned 64 x.toNat) then copyProgram p ch.val
    else modChan p ch.val fun c => { c with
      coords := vset c.coords (bitsOf w.toNat 2 0) ⟨toSigned 64 x.toNat, bitsOf w.toNat 52 32⟩, fill := y })

/-- Bases and the strides of levels with more than one index are multiples of `n` (R261). -/
def strideOk (c : ChanSt) (n : Nat) : Bool :=
  decide (c.sbase.toNat % n = 0) && decide (c.dbase.toNat % n = 0) &&
  c.levels.toList.all fun l => decide (l.count ≤ 1) || (decide (l.sstr % n = 0) && decide (l.dstr % n = 0))

/-- The requirements of decrypt mode (R266). -/
def decryptOk (conf : Bool) (c : ChanSt) : Bool :=
  conf && c.sfar && c.dfar && decide (c.size = 4096) && decide (c.dbase.toNat % 4096 = 0) &&
  (c.levels.toList.all fun l => decide (l.dstr % 4096 = 0)) && c.coords.toList.all fun d => decide (d.ext = 0)

/-- Does a go word hold 0 in its reserved bits and a legal size (R261)? -/
def goWordOk (w : Nat) : Bool :=
  decide (bitsOf w 63 18 = 0) && decide (bitsOf w 15 13 = 0) && decide (8 ≤ bitsOf w 12 0) &&
  decide (bitsOf w 12 0 ≤ 4096) && decide (bitsOf w 12 0 % 8 = 0)

/-- A channel as a start leaves it (R261). -/
def startedChan (c : ChanSt) (lo : Nat) : ChanSt :=
  { c with state := .running, index := Vector.replicate 6 0, offset := 0, wmk := lo, begun := false }

/-- Put a context's transfer last in the order of a core's channel (R251). -/
def queueChan (k : Core) (ch gid m : Nat) : Core := { k with chq := vmod k.chq ch fun l => l ++ [(gid, m)] }

/-- Start a transfer of the member (R261). -/
def startChan (p : Perf) (ch : Nat) (c : ChanSt) : Perf :=
  let p := modChan p ch (fun _ => c)
  let co := (oldCtx p).core
  { p with st := setCore p.st (clusterOf p) co (queueChan (getCore p.st (clusterOf p) co) ch p.is.old.id p.is.m) }

/-- `cp.go.chN[.dec] sA, sB` (R261). -/
def execCpGo (a b : SReg) (ch : Chan) (dec : Bool) (q : QReg) (s : State) : Host.Outcome State Fault Refusal :=
  slotOp s (progSlot ch q fun p =>
    let (w, p) := readS p a.val
    let (cw, p) := readS p b.val
    let c := { chanOf p ch.val with
      size := bitsOf w.toNat 12 0, irq := w.getLsbD 16, cwfar := w.getLsbD 17, cw := cw.toNat, dec := dec }
    let lo := chanLo c
    let hi := chanHi c
    let g := p.is.old
    if !goWordOk w.toNat then copyProgram p ch.val
    else if !strideOk c 8 then copyProgram p ch.val
    else if !c.dfar && !(decide ((g.task.spadBase : Int) ≤ lo) && decide (hi ≤ g.task.spadBase + g.task.spadSize)) then
      raise p .localBounds (wordOfInt lo)
    else if c.dfar && (decide (lo < 0) || decide (2 ^ 56 < hi)) then copyProgram p ch.val
    else if decide (c.cw % 8 ≠ 0) then copyProgram p ch.val
    else if decide (c.cw ≠ 0) && !c.cwfar && !inAlloc g c.cw 8 then raise p .localBounds cw
    else if dec && !decryptOk g.conf c then copyProgram p ch.val
    else
      startChan p ch.val { startedChan c lo.toNat with ival := (oldCtx p).interval })

/-- The status word of cp.wmk (R263). -/
def chanStatus (c : ChanSt) : Word :=
  BitVec.ofNat 64 ((match c.state with | .idle => 0 | .running => 1 | .suspended => 2) * 2 ^ 62 + c.wmk % 2 ^ 56)

/-- `cp.wmk.chN sD` (R263): never freezes, never traps. -/
def execCpWmk (d : SReg) (ch : Chan) (q : QReg) (s : State) : Host.Outcome State Fault Refusal :=
  slotOp s (gated q fun p => writeS p d.val 1 (chanStatus (chanOf p ch.val)))

/-- A channel as a cancel leaves it (R263, R264). -/
def cancelChan (c : ChanSt) : ChanSt := { c with state := .idle, wmk := 0, begun := false }

/-- Take a context's transfer off a core's channel. -/
def dropChan (k : Core) (ch gid m : Nat) : Core :=
  { k with chq := vmod k.chq ch fun l => l.filter fun e => e != (gid, m) }

/-- `cp.cncl.chN` (R264): chunks are single steps of the model, so that none is in progress at an issue. -/
def execCpCncl (ch : Chan) (q : QReg) (s : State) : Host.Outcome State Fault Refusal :=
  slotOp s (gated q fun p =>
    if (chanOf p ch.val).state = .idle then p
    else
      let co := (oldCtx p).core
      let k := getCore p.st (clusterOf p) co
      modChan { p with st := setCore p.st (clusterOf p) co (dropChan k ch.val p.is.old.id p.is.m) } ch.val cancelChan)

/-- Restart a suspended transfer of a context (R264): a replay counts as a start. -/
def replayChan (g : Gang) (m ch : Nat) : Gang :=
  modCtx g m fun c => { c with chans := vmod c.chans ch fun x => { x with state := .running, begun := false } }

/-- The gang and member that hold a context slot of a core. -/
def gangAt (s : State) (cl co sl : Nat) : Option (Gang × Nat) :=
  (s.gangs.filter fun g => g.cluster = cl && g.slot = sl && g.killed.isNone).findSome? fun g =>
    ((List.range g.members.length).find? fun m => (getCtx g m).core = co).map fun m => (g, m)

/-- Replay a suspended channel of a cluster's context; nothing where it is not SUSPENDED (R264). -/
def replayAt (s : State) (cl co sl ch : Nat) : State :=
  match gangAt s cl co sl with
  | none => s
  | some (g, m) =>
    if (vget {} (getCtx g m).chans ch).state = .suspended then
      setCore (putGang s (replayChan g m ch)) cl co (queueChan (getCore s cl co) ch g.id m)
    else s

/-- `cp.rpl sA` (R264): service privilege. -/
def execCpRpl (a : SReg) (q : QReg) (s : State) : Host.Outcome State Fault Refusal :=
  slotOp s (gated q fun p =>
    if !privileged p then raise p .privilege 0
    else
      let (x, p) := readS p a.val
      let n := x.toNat
      if bitsOf n 63 7 ≠ 0 then copyProgram p (n % 4)
      else
        let co := bitsOf n 6 4
        let sl := bitsOf n 3 2
        match gangAt p.st (clusterOf p) co sl with
        | none => p
        | some (g, m) =>
          if g.id = p.is.old.id then
            (if (vget {} (getCtx p.is.work m).chans (n % 4)).state = .suspended then
              let k := queueChan (getCore p.st (clusterOf p) co) (n % 4) g.id m
              { st := setCore p.st (clusterOf p) co k, is := { p.is with work := replayChan p.is.work m (n % 4) } }
            else p)
          else { p with st := replayAt p.st (clusterOf p) co sl (n % 4) })

/-! ### The broadcast bus (R194, R195) -/

/-- The bus counts as a 65th bank that one gang holds for a wall cycle (R182, R195). -/
def needBus (p : Perf) : Perf :=
  { p with is := { p.is with rows := p.is.rows ++ [(64, p.is.old.id)] } }

/-- `cp.bput sA` (R194): the bus takes the bytes read at c. -/
def execCpBput (a : SReg) (q : QReg) (s : State) : Host.Outcome State Fault Refusal :=
  slotOp s (gated q fun p =>
    let (x, p) := readS p a.val
    let ea := x.toNat
    withLocal p ea 256 256 fun p =>
      let p := needBus (accessLocal p ea 256 false false 1)
      if p.is.bput.isSome then violate p
      else { p with is := { p.is with bput := some (localBytes p ea 256) } })

/-- `cp.blat sA` (R194): the latch is performed at the commit, where its gang's bput is known. -/
def execCpBlat (a : SReg) (q : QReg) (s : State) : Host.Outcome State Fault Refusal :=
  slotOp s (gated q fun p =>
    let (x, p) := readS p a.val
    let ea := x.toNat
    withLocal p ea 256 256 fun p =>
      addOp (accessLocal p ea 256 true false 1)
        (.latch ea p.is.m p.is.slot (entryOf p.st p.is.old p.is.m 7 false)))

end Sys2Proof.Machine
end

