-- ==== Sys2Proof/Machine/Address.lean ====
section
/-! DEFINITION. Address: local loads and stores, the moves of the address file, and bank atomics (R187 to R193). -/

namespace Sys2Proof.Machine

/-- The effective address of an ad slot, with its post-increment (R188). -/
def slotAddr (p : Perf) (post : Bool) (a : AReg) (b : SReg) : Nat × Perf :=
  let (base, p) := readA p a.val
  let (off, p) := readS p b.val
  if post then (base.toNat, writeA p a.val 1 (base + off)) else ((base + off).toNat, p)

/-- A load's LAQ entry (R190): its data, read at issue, arrive six cycles later. -/
def pushLaq (p : Perf) (vec : Bool) (data : Vec) (atomic : Bool) : Perf :=
  pushQueue p fun c => { c with laq := c.laq ++ [⟨vec, logicalCycle p + 6, data, atomic⟩] }

/-- A store's SAQ entry (R190). -/
def pushSaq (p : Perf) (vec : Bool) (bytes ea : Nat) (lanes : Word) : Perf :=
  pushQueue p fun c => { c with saq := c.saq ++ [⟨vec, bytes, ea, lanes⟩] }

/-- `ad.ld.Z sD, aA, sB` (R189, R190). -/
def execAdLd (d : SReg) (post : Bool) (a : AReg) (b : SReg) (z : ASize) (q : QReg) (s : State) :
    Host.Outcome State Fault Refusal :=
  slotOp s (gated q fun p =>
    let (ea, p) := slotAddr p post a b
    withLocal p ea z.bytes z.bytes fun p =>
      let p := accessLocal p ea z.bytes false true 0
      let v := BitVec.ofNat 64 (leNat (localBytes p ea z.bytes))
      if isPort p d.val then pushLaq p false (ofWord v) false else writeS p d.val 6 v)

/-- A scalar store of the bundle: performed at issue, after its reads (R189). -/
def storeLocal (p : Perf) (ea n : Nat) (v : Word) : Perf :=
  releaseWrite (addOp (accessLocal p ea n true true 0) (.store ea (leBytes n v.toNat) (writeEntry p)))

/-- `ad.st.Z sD, aA, sB` (R189, R190). -/
def execAdSt (d : SReg) (post : Bool) (a : AReg) (b : SReg) (z : ASize) (q : QReg) (s : State) :
    Host.Outcome State Fault Refusal :=
  slotOp s (gated q fun p =>
    let (ea, p) := slotAddr p post a b
    withLocal p ea z.bytes z.bytes fun p =>
      if isPort p d.val then pushSaq p false z.bytes ea 0
      else
        let (v, p) := readS p d.val
        storeLocal p ea z.bytes v)

/-- The bytes of sector `j` of a 256 B access that its active lanes touch. -/
def laneBytes (m : Word) (j : Nat) : Word :=
  BitVec.ofNat 64 (packNat 4 (fun i => if m.getLsbD (16 * j + i) then 15 else 0) 16)

/-- Checks of a vector access: presence, watermark and rows on all of it, races on its active lanes (R58, R188). -/
def accessLanes (p : Perf) (ea : Nat) (m : Word) (write : Bool) : Perf :=
  (List.range 4).foldl (fun p j => if laneBytes m j = 0 then p else checkBytes p (ea / 64 + j) (laneBytes m j) write true 0)
    (needRows (checkWatermark (touchSpad p ea 256) ea 256) ea 256)

/-- `ad.vld vD, aA, sB` (R189, R190). -/
def execAdVld (d : VReg) (post : Bool) (a : AReg) (b : SReg) (q : QReg) (s : State) :
    Host.Outcome State Fault Refusal :=
  slotOp s (laned q fun m p =>
    let (ea, p) := slotAddr p post a b
    withLocal p ea 256 256 fun p =>
      let p := accessLanes p ea m false
      let v := ofBytes (localBytes p ea 256)
      if d.val = 31 ∧ p.is.handler = false then pushLaq p true (v &&& laneMask m) false
      else writeV p d.val 6 (laneMask m) v)

/-- The active lanes of a vector store, one write for each (R189). -/
def storeLanes (p : Perf) (ea : Nat) (m : Word) (v : Vec) : Perf :=
  let e := writeEntry p
  let p := (List.range 64).foldl (fun p i =>
    if m.getLsbD i then addOp p (.store (ea + 4 * i) (leBytes 4 (lane v i).toNat) e) else p) p
  if m = 0 then p else releaseWrite p

/-- `ad.vst vD, aA, sB` (R189, R190). -/
def execAdVst (d : VReg) (post : Bool) (a : AReg) (b : SReg) (q : QReg) (s : State) :
    Host.Outcome State Fault Refusal :=
  slotOp s (laned q fun m p =>
    let (ea, p) := slotAddr p post a b
    withLocal p ea 256 256 fun p =>
      if d.val = 31 ∧ p.is.handler = false then pushSaq p true 256 ea m
      else
        let (v, p) := readV p d.val
        storeLanes (accessLanes p ea m true) ea m v)

/-- `ad.add aD, aA, sB` (R191). -/
def execAdAdd (d a : AReg) (b : SReg) (q : QReg) (s : State) : Host.Outcome State Fault Refusal :=
  slotOp s (gated q fun p =>
    let (x, p) := readA p a.val
    let (y, p) := readS p b.val
    writeA p d.val 1 (x + y))

/-- `ad.mov aD, sB` (R191). -/
def execAdMov (d : AReg) (b : SReg) (q : QReg) (s : State) : Host.Outcome State Fault Refusal :=
  slotOp s (gated q fun p =>
    let (y, p) := readS p b.val
    writeA p d.val 1 y)

/-- `ad.get sD, aA` (R191). -/
def execAdGet (d : SReg) (a : AReg) (q : QReg) (s : State) : Host.Outcome State Fault Refusal :=
  slotOp s (gated q fun p =>
    let (x, p) := readA p a.val
    writeS p d.val 1 x)

/-! ### Bank atomics (R192) -/

/-- Is the ordering a release? -/
def ordRel : AOrd → Bool
  | .rel | .acqrel => true
  | .rlx | .acq => false
/-- Is the ordering an acquire? -/
def ordAcq : AOrd → Bool
  | .acq | .acqrel => true
  | .rlx | .rel => false

/-- Op(old, y) of R192 on words of `w` bits; `cmp` is the comparand of cas. -/
def atomOp (op : AtomOp) (w old y cmp : Nat) : Nat :=
  match op with
  | .add => (old + y) % 2 ^ w
  | .and => Nat.land old y
  | .or => Nat.lor old y
  | .xor => Nat.xor old y
  | .min => if toSigned w old ≤ toSigned w y then old else y
  | .max => if toSigned w old ≤ toSigned w y then y else old
  | .nmin => min old y
  | .nmax => max old y
  | .xchg => y
  | .cas => if old = cmp then y else old
  | .fadd => fAdd f32F .rne old y
  | .badd => fAdd bf16F .rne (old % 65536) (y % 65536) + 65536 * fAdd bf16F .rne (old / 65536) (y / 65536)

/-- Ret(old) of R192: sign-extended for amin and amax. -/
def atomRet (op : AtomOp) (w old : Nat) : Word :=
  match op with
  | .min | .max => wordOfInt (toSigned w old)
  | .add | .and | .or | .xor | .nmin | .nmax | .xchg | .cas | .fadd | .badd => BitVec.ofNat 64 old

/-- An acquire at a scope of a release that a read returned (R302, R303): it is recorded where it synchronises; where its
scopes fail R291 it is reported while the detector is on, and stands for a later fence of a wider scope (R289). -/
def acquireOne (scope : Nat) (p : Perf) (r : RelRead) : Perf :=
  let a := acquireEntry p.st p.is.work p.is.m scope r.ent
  let p := { p with is := { p.is with work := a.1 } }
  if !a.2 then modWork p fun c => { c with relReads := c.relReads.filter fun x => x != r }
  else noteRelease (if cfgMode (oldCtx p) = 0 then p else reportRace p r.addr r.far false true r.slot r.path r.cur) r

/-- An acquire at a scope that reads these bytes of scratchpad. -/
def acquireLocal (p : Perf) (ea n scope : Nat) : Perf :=
  (spadRels p.st (clusterOf p) ea n true 0).foldl (acquireOne scope) p

/-- A bank atomic (R192): performed in its bank's order when the bundle issues; its old value comes at c + 6. The read of
one that is no acquire is noted for a later fence, and its write is a release at cluster scope, or at that of an earlier
release fence where that is wider (R289). -/
def atomicSlot (op : AtomOp) (w : Nat) (d : SReg) (a : AReg) (b : SReg) (o : AOrd) (p : Perf) : Perf :=
  let (base, p) := readA p a.val
  let (y, p) := readS p b.val
  let (cmp, p) := if op = .cas then readS p d.val else (0, p)
  let ea := base.toNat
  withLocal p ea (w / 8) (w / 8) fun p =>
    let p := needRows (checkWatermark (touchSpad p ea (w / 8)) ea (w / 8)) ea (w / 8)
    let p := if ordAcq o then acquireLocal p ea (w / 8) 2 else noteRange p ea (w / 8) true
    let e := entryOf p.st p.is.old p.is.m (widerScope (if ordRel o then 2 else 7) (oldCtx p).relScope) true
    let due := if p.is.handler then wallOf p + 6 else logicalCycle p + 6
    let p :=
      if isPort p d.val then
        addOp (pushSdq (pushLaq p false 0 true) 6 0)
          (.atomic op (w / 8) ea (BitVec.ofNat 64 (y.toNat % 2 ^ w)) (BitVec.ofNat 64 (cmp.toNat % 2 ^ w)) p.is.m none
            (some (workCtx p).sdq.length) due e)
      else
        addOp (writeS p d.val 6 0)
          (.atomic op (w / 8) ea (BitVec.ofNat 64 (y.toNat % 2 ^ w)) (BitVec.ofNat 64 (cmp.toNat % 2 ^ w)) p.is.m
            (destS p d.val) none due e)
    if ordRel o then { p with is := { p.is with work := bumpInterval p.is.work p.is.m } } else releaseWrite p

/-- Width of an atomic (R192): 64 bits where F bit 0 is 1. -/
def atomWidth (w : Bool) : Nat := if w then 64 else 32

/-- `ad.aadd.ORD.W sD, aA, sB` (R192). -/
def execAdAadd (d : SReg) (a : AReg) (b : SReg) (o : AOrd) (w : Bool) (q : QReg) (s : State) :
    Host.Outcome State Fault Refusal :=
  slotOp s (gated q (atomicSlot .add (atomWidth w) d a b o))

/-- `ad.aand.ORD.W sD, aA, sB` (R192). -/
def execAdAand (d : SReg) (a : AReg) (b : SReg) (o : AOrd) (w : Bool) (q : QReg) (s : State) :
    Host.Outcome State Fault Refusal :=
  slotOp s (gated q (atomicSlot .and (atomWidth w) d a b o))

/-- `ad.aor.ORD.W sD, aA, sB` (R192). -/
def execAdAor (d : SReg) (a : AReg) (b : SReg) (o : AOrd) (w : Bool) (q : QReg) (s : State) :
    Host.Outcome State Fault Refusal :=
  slotOp s (gated q (atomicSlot .or (atomWidth w) d a b o))

/-- `ad.axor.ORD.W sD, aA, sB` (R192). -/
def execAdAxor (d : SReg) (a : AReg) (b : SReg) (o : AOrd) (w : Bool) (q : QReg) (s : State) :
    Host.Outcome State Fault Refusal :=
  slotOp s (gated q (atomicSlot .xor (atomWidth w) d a b o))

/-- `ad.amin.ORD.W sD, aA, sB` (R192). -/
def execAdAmin (d : SReg) (a : AReg) (b : SReg) (o : AOrd) (w : Bool) (q : QReg) (s : State) :
    Host.Outcome State Fault Refusal :=
  slotOp s (gated q (atomicSlot .min (atomWidth w) d a b o))

/-- `ad.amax.ORD.W sD, aA, sB` (R192). -/
def execAdAmax (d : SReg) (a : AReg) (b : SReg) (o : AOrd) (w : Bool) (q : QReg) (s : State) :
    Host.Outcome State Fault Refusal :=
  slotOp s (gated q (atomicSlot .max (atomWidth w) d a b o))

/-- `ad.nmin.ORD.W sD, aA, sB` (R192). -/
def execAdNmin (d : SReg) (a : AReg) (b : SReg) (o : AOrd) (w : Bool) (q : QReg) (s : State) :
    Host.Outcome State Fault Refusal :=
  slotOp s (gated q (atomicSlot .nmin (atomWidth w) d a b o))

/-- `ad.nmax.ORD.W sD, aA, sB` (R192). -/
def execAdNmax (d : SReg) (a : AReg) (b : SReg) (o : AOrd) (w : Bool) (q : QReg) (s : State) :
    Host.Outcome State Fault Refusal :=
  slotOp s (gated q (atomicSlot .nmax (atomWidth w) d a b o))

/-- `ad.xchg.ORD.W sD, aA, sB` (R192). -/
def execAdXchg (d : SReg) (a : AReg) (b : SReg) (o : AOrd) (w : Bool) (q : QReg) (s : State) :
    Host.Outcome State Fault Refusal :=
  slotOp s (gated q (atomicSlot .xchg (atomWidth w) d a b o))

/-- `ad.cas.ORD.W sD, aA, sB` (R192). -/
def execAdCas (d : SReg) (a : AReg) (b : SReg) (o : AOrd) (w : Bool) (q : QReg) (s : State) :
    Host.Outcome State Fault Refusal :=
  slotOp s (gated q (atomicSlot .cas (atomWidth w) d a b o))

/-- `ad.fadd.ORD.w32 sD, aA, sB` (R192). -/
def execAdFadd (d : SReg) (a : AReg) (b : SReg) (o : AOrd) (q : QReg) (s : State) :
    Host.Outcome State Fault Refusal :=
  slotOp s (gated q (atomicSlot .fadd 32 d a b o))

/-- `ad.badd.ORD.w32 sD, aA, sB` (R192). -/
def execAdBadd (d : SReg) (a : AReg) (b : SReg) (o : AOrd) (q : QReg) (s : State) :
    Host.Outcome State Fault Refusal :=
  slotOp s (gated q (atomicSlot .badd 32 d a b o))

end Sys2Proof.Machine
end

