-- ==== Sys2Proof/Machine/Fabric.lean ====
section
/-! DEFINITION. Fabric: the fx operations (R394 to R406), which hand packets to the fabric engine. -/

namespace Sys2Proof.Machine

/-- FABRIC_PROTOCOL, whose trap value is the port (R415). -/
def fabricProtocol (p : Perf) (port : Port) : Perf := raise p .fabricProtocol (BitVec.ofNat 64 port.val)

/-- The member's FIFO pair of a port. -/
def fifoOf (p : Perf) (port : Port) : Fifo := vget {} (oldCtx p).fifos port.val

/-- Change the member's FIFO pair of a port. -/
def modFifo (p : Perf) (port : Port) (f : Fifo → Fifo) : Perf :=
  modWork p fun c => { c with fifos := vmod c.fifos port.val f }

/-- Words free in an outbound FIFO (R394). -/
def obFree (f : Fifo) : Nat := 64 - (f.ob.length + f.obBusy)

/-- Words of an inbound FIFO neither occupied nor reserved (R394). -/
def ibFree (f : Fifo) : Nat := 64 - (f.ib.length + f.resv)

/-- Does an access of `w` words at a remote address keep every rule of R395? -/
def remoteOk (x w : Nat) : Bool :=
  !bitAt x 63 && decide (x % 8 = 0) && decide (x % 4096 + 8 * w ≤ 4096) &&
  (!bitAt x 47 || (!bitAt x 46 && decide (bitsOf x 45 40 < 40) && decide (bitsOf x 39 23 = 0)))

/-- Flits of a packet of `w` data words (R390). -/
def flitsOf (w : Nat) : Nat := 1 + (w + 7) / 8

/-- The shadow entry that a write of the member's to this device leaves (R301): none beyond the detector's reach. -/
def remoteEntry (p : Perf) (dev : Nat) (kind : RKind) (addr : Word) : Lane :=
  if dev ≠ p.st.devId ∨ (addr.getLsbD 47 = false ∧ cfgFar (oldCtx p) = false) then 0
  else
    match kind with
    | .store => writeEntry p
    | .atomic _ => entryOf p.st p.is.old p.is.m (oldCtx p).relScope true
    | _ => 0

/-- Hand a packet to the fabric engine, numbered for its target (R407), holding `obw` words of the outbound FIFO and
reserving `nrep` words of the inbound one. -/
def sendRemote (p : Perf) (port : Port) (dev : Nat) (kind : RKind) (addr : Word) (words : List Word) (data nrep obw : Nat)
    (group : Nat := 0) : Perf :=
  let n := mapGet 0 p.st.seqNo dev
  let g := p.is.old
  let op : RemOp :=
    { seq := n, dev := dev, port := port.val, gang := g.id, member := p.is.m, tenant := g.tenant, kind := kind, addr := addr,
      words := words, nrep := nrep, flits := flitsOf data, obw := obw, sent := false, lc := logicalCycle p, lost := false,
      ans := none, cl := g.cluster, co := (oldCtx p).core, sl := g.slot, group := group,
      ent := remoteEntry p dev kind addr }
  let st := { p.st with seqNo := mapSet 0 p.st.seqNo dev (n + 1), remote := p.st.remote ++ [op] }
  modFifo { p with st := st } port fun f => { f with obBusy := f.obBusy + obw, resv := f.resv + nrep }

/-- A slot that may not stand in an open message (R397). -/
def closedPort (port : Port) (f : Perf → Perf) (p : Perf) : Perf :=
  if 0 < (fifoOf p port).openLen then fabricProtocol p port else f p

/-- Check a remote address, then the room both FIFOs need. -/
def withRemote (port : Port) (x w ob ib : Nat) (f : Perf → Perf) (p : Perf) : Perf :=
  if !remoteOk x w then raise p .remoteAddress (BitVec.ofNat 64 x)
  else if obFree (fifoOf p port) < ob ∨ ibFree (fifoOf p port) < ib then freezeOn p .fifo
  else f p

/-- Data words of a vector register (R400). -/
def vecWords (v : Vec) (w : Nat) : List Word := (List.range w).map fun j => v.extractLsb' (64 * j) 64

/-- `fx.st.SZ port, aA, vR or sR` (R400). -/
def execFxSt (port : Port) (a : AReg) (b : Fin 32) (w : Fin 7) (q : QReg) (s : State) : Host.Outcome State Fault Refusal :=
  slotOp s (gated q (closedPort port fun p =>
    let (x, p) := readA p a.val
    let n := if w.val = 6 then 1 else 2 ^ w.val
    withRemote port x.toNat n (1 + n) 0 (fun p =>
      let (ws, p) := if w.val = 6 then (let (v, p) := readS p b.val; ([v], p))
        else (let (v, p) := readV p b.val; (vecWords v n, p))
      releaseWrite (sendRemote p port (bitsOf x.toNat 62 48) .store x ws n 0 (1 + n))) p))

/-- `fx.ld.SZ port, aA` (R401). -/
def execFxLd (port : Port) (a : AReg) (w : Fin 6) (q : QReg) (s : State) : Host.Outcome State Fault Refusal :=
  slotOp s (gated q (closedPort port fun p =>
    let (x, p) := readA p a.val
    let n := 2 ^ w.val
    withRemote port x.toNat n 1 n (fun p =>
      sendRemote p port (bitsOf x.toNat 62 48) .load x [] 0 n 1) p))

/-- `fx.at.OP port, aA, sR` (R402): cas reads its compare value from sR and the new value from the next register. -/
def execFxAt (port : Port) (a : AReg) (b : SReg) (op : FxOp) (q : QReg) (s : State) : Host.Outcome State Fault Refusal :=
  slotOp s (gated q (closedPort port fun p =>
    let (x, p) := readA p a.val
    withRemote port x.toNat 1 (if op = .cas then 3 else 2) 1 (fun p =>
      let (y, p) := readS p b.val
      let (ws, p) := if op = .cas then (let (z, p) := readS p (b.val + 1); ([y, z], p)) else ([y], p)
      releaseWrite (sendRemote p port (bitsOf x.toNat 62 48) (.atomic op) x ws ws.length 1 (1 + ws.length))) p))

/-- The remote addresses of a replication list, or the list word at fault (R403). -/
def repTargets (p : Perf) (ea n addr : Nat) : Nat → List Nat → Except Nat (List Nat)
  | 0, acc => .ok acc.reverse
  | k + 1, acc =>
    let d := leNat (localBytes p (ea + 8 + 2 * (n - (k + 1))) 2)
    if bitAt d 15 then .error d else repTargets p ea n addr k ((d * 2 ^ 48 + addr) :: acc)

/-- Send one store to each destination; the words of obPORT are held until the last is placed on a link. -/
def sendEach (port : Port) (ws : List Word) : List Nat → Perf → Perf
  | [], p => p
  | x :: r, p =>
    sendEach port ws r (sendRemote p port (bitsOf x 62 48) .store (BitVec.ofNat 64 x) ws ws.length 0
      (if r.isEmpty then 1 + ws.length else 0))

/-- `fx.rep.SZ port, aA, vR` (R403; DEDUCED, log entry 23). -/
def execFxRep (port : Port) (a : AReg) (b : VReg) (w : Fin 6) (q : QReg) (s : State) : Host.Outcome State Fault Refusal :=
  slotOp s (gated q (closedPort port fun p =>
    let (x, p) := readA p a.val
    let ea := x.toNat
    let n := 2 ^ w.val
    withLocal p ea 8 8 fun p =>
      let h := leNat (localBytes p ea 8)
      let cnt := bitsOf h 53 48 + 1
      let seen := checkWatermark (touchSpad p ea 8) ea 8
      if p.is.freezes.length < seen.is.freezes.length then seen
      else withLocal p ea (8 + 2 * cnt) 8 fun p =>
        let p := accessLocal p ea (8 + 2 * cnt) false false 0
        if bitsOf h 63 54 ≠ 0 then raise p .remoteAddress (BitVec.ofNat 64 h)
        else
          match repTargets p ea cnt (bitsOf h 47 0) cnt [] with
          | .error d => raise p .remoteAddress (BitVec.ofNat 64 d)
          | .ok xs =>
            match xs.find? fun y => !remoteOk y n with
            | some y => raise p .remoteAddress (BitVec.ofNat 64 y)
            | none =>
              if obFree (fifoOf p port) < 1 + n then freezeOn p .fifo
              else
                let (v, p) := readV p b.val
                releaseWrite (sendEach port (vecWords v n) xs p)))

/-! ### Messages (R398, R399, R411) -/

/-- The message header check (R398). -/
def headerOk (h ngroup : Nat) : Bool :=
  !bitAt h 63 && decide (bitsOf h 47 42 < 40) && decide (bitsOf h 36 31 < 48) &&
  (decide (bitsOf h 30 28 = 7) || (decide (bitsOf h 30 28 < 4) && decide (bitsOf h 30 28 < ngroup))) &&
  decide (bitsOf h 7 6 = 0) && decide (bitsOf h 5 0 ≤ 32)

/-- Record an edge of a collective group, at most 256 for a group of a task; an overflow is logged with its location (R411, R453). -/
def addEdge (s : State) (loc : Nat) (e : Edge) : State :=
  if s.edges.contains e then s
  else if 256 ≤ (s.edges.filter fun x => x.gang = e.gang && x.group = e.group).length then logAppend s 9 loc 0 0
  else { s with edges := s.edges ++ [e] }

/-- The group id a header names, if any. -/
def headerGroup (g : Gang) (h : Nat) : Option Nat := if bitsOf h 30 28 = 7 then none else g.task.groups[bitsOf h 30 28]?

/-- A complete message: its packet, and the edge of its group. -/
def sendMessage (p : Perf) (port : Port) (h : Word) (ws : List Word) : Perf :=
  let n := h.toNat
  let p := sendRemote p port (bitsOf n 62 48) .msg h ws ws.length 0 (1 + ws.length) ((headerGroup p.is.old n).getD 0)
  let p := modFifo p port fun f => { f with ob := [], openLen := 0 }
  match headerGroup p.is.old n with
  | none => p
  | some gr =>
    let e : Edge :=
      ⟨p.is.old.id, p.is.m, gr, bitsOf n 62 48, bitsOf n 47 42, bitsOf n 41 39, bitsOf n 38 37, bitsOf n 36 31⟩
    { p with st := addEdge p.st (logLoc p.is.old.cluster (oldCtx p).core) e }

/-- `fx.msg port, sR` (R398). -/
def execFxMsg (port : Port) (b : SReg) (q : QReg) (s : State) : Host.Outcome State Fault Refusal :=
  slotOp s (gated q (closedPort port fun p =>
    let (h, p) := readS p b.val
    if !headerOk h.toNat p.is.old.task.groups.length then raise p .remoteAddress h
    else if obFree (fifoOf p port) < 1 then freezeOn p .fifo
    else if bitsOf h.toNat 5 0 = 0 then sendMessage p port h []
    else modFifo p port fun f => { f with ob := [h], openLen := bitsOf h.toNat 5 0 }))

/-- `fx.push port, sR` (R398). -/
def execFxPush (port : Port) (b : SReg) (q : QReg) (s : State) : Host.Outcome State Fault Refusal :=
  slotOp s (gated q fun p =>
    let f := fifoOf p port
    if f.openLen = 0 then fabricProtocol p port
    else if obFree f < 1 then freezeOn p .fifo
    else
      let (w, p) := readS p b.val
      if f.openLen = 1 then sendMessage p port (f.ob.headD 0) (f.ob.drop 1 ++ [w])
      else modFifo p port fun f => { f with ob := f.ob ++ [w], openLen := f.openLen - 1 })

/-- One more failure word popped: kfst.NRFAIL, which saturates (R406). -/
def countFail (c : Ctx) : Ctx :=
  if bitsOf c.kfst.toNat 63 48 = 65535 then c else { c with kfst := c.kfst + BitVec.ofNat 64 (2 ^ 48) }

/-- `fx.pop port, sR` (R399). -/
def execFxPop (port : Port) (b : SReg) (q : QReg) (s : State) : Host.Outcome State Fault Refusal :=
  slotOp s (gated q (closedPort port fun p =>
    match (fifoOf p port).ib with
    | [] => freezeOn p .fifo
    | .abort g :: _ => raise p .collectiveAborted (BitVec.ofNat 64 g)
    | .fail :: r => writeS (modWork (modFifo p port fun f => { f with ib := r }) countFail) b.val 1 0
    | .data w :: r => writeS (modFifo (readFifo p port.val) port fun f => { f with ib := r }) b.val 1 w))

/-! ### Markers and link status (R404, R405) -/

/-- The device at the far end of a port; this device on port 31. -/
def farEnd (s : State) (port : Nat) : Nat := if port = 31 then s.devId else (mapGet {} s.links port).peer

/-- `fx.mark port, sR` (R404): a drain marker on the link itself, with one reply word reserved. -/
def execFxMark (port : Port) (b : SReg) (q : QReg) (s : State) : Host.Outcome State Fault Refusal :=
  slotOp s (gated q (closedPort port fun p =>
    if ibFree (fifoOf p port) < 1 then freezeOn p .fifo
    else
      let (t, p) := readS p b.val
      sendRemote p port (farEnd p.st port.val) .mark t [] 0 1 0))

/-- STATE of a link (R389). -/
def linkCode : LinkSt → Nat
  | .down => 0 | .training => 1 | .up => 2 | .dark => 3 | .fenced => 4

/-- The status word of fx.lst (R405): port 31 is always UP, and its send allowance is a free value (DEDUCED, log entry 51). -/
def linkStatus (s : State) (port : Nat) (allow : Nat) : Word :=
  if port = 31 then BitVec.ofNat 64 (s.devId % 32768 * 2 ^ 48 + 31 * 2 ^ 42 + 2 * 2 ^ 32 + allow % 65536)
  else
    let l := mapGet {} s.links port
    BitVec.ofNat 64 ((if l.st = .down then 0 else l.peer % 32768) * 2 ^ 48 +
      (if l.st = .down then 0 else l.peerPort % 64) * 2 ^ 42 + linkCode l.st * 2 ^ 32 + l.epoch % 65536 * 2 ^ 16 +
      l.allowReq % 65536)

/-- `fx.lst port, sR` (R405): never freezes, never traps. -/
def execFxLst (port : Port) (b : SReg) (q : QReg) (s : State) : Host.Outcome State Fault Refusal :=
  slotOp s (gated q fun p =>
    if port.val = 31 then
      let (v, p) := freeWord p
      writeS p b.val 1 (linkStatus p.st 31 v.toNat)
    else writeS p b.val 1 (linkStatus p.st port.val 0))

end Sys2Proof.Machine
end

