-- ==== Sys2Proof/Machine/Translation.lean ====
section
/-! DEFINITION. Translation: touches and far loads and stores (R273 to R277), and invalidation (R279). -/

namespace Sys2Proof.Machine

/-- The trap value of TOUCH_FAULT (R274). -/
def touchVal (va cause : Nat) : Word := BitVec.ofNat 64 (va % 2 ^ 56 / 4096 * 4096 + cause % 256)

/-- Is a touch entry live for a bundle of logical cycle `t` (R273)? -/
def touchLive (e : Touch) (t : Nat) : Bool := decide (e.live ≤ t) && decide (t ≤ e.exp)

/-- The live entry of a region. -/
def liveTouch (c : Ctx) (region t : Nat) : Option Touch :=
  (c.touches.toList.filterMap id).find? fun e => e.region = region && touchLive e t

/-- The entry a touch uses (R274): the one that holds the region, else the lowest not live at c + 1. -/
def touchSlot (c : Ctx) (region t : Nat) : Option Nat :=
  match (List.range 8).find? fun i => match vget none c.touches i with
    | none => false
    | some e => e.region = region with
  | some i => some i
  | none => (List.range 8).find? fun i => match vget none c.touches i with
    | none => true
    | some e => !touchLive e (t + 1)

/-- `ad.tch aA, sB` (R274); its walk ends within the cycle of its issue (DESIGN CHOICE, log entry 101). -/
def execAdTch (post : Bool) (a : AReg) (b : SReg) (q : QReg) (s : State) : Host.Outcome State Fault Refusal :=
  slotOp s (gated q fun p =>
    let (ea, p) := slotAddr p post a b
    let g := ea / 4096 * 4096
    let t := logicalCycle p
    match translate p.st p.is.old.launch.xdesc g with
    | .error c => raise p .touchFault (touchVal g c)
    | .ok x =>
      if !x.r then raise p .touchFault (touchVal g causePerm)
      else
        match touchSlot (workCtx p) g t with
        | none => violate p
        | some i =>
          let e : Touch := ⟨g, x.pa, x.w, if p.is.handler then t else t + 1, t + 256, p.st.invalNo⟩
          modWork p fun c => { c with touches := vset c.touches i (some e) })

/-- Checks of a far access (R275): alignment, a live entry of its region with W for a store, room in the far-data
queue. -/
def withFar (p : Perf) (ea n : Nat) (store : Bool) (f : Touch → Perf → Perf) : Perf :=
  if ea % n ≠ 0 then raise p .farAlign (BitVec.ofNat 64 ea)
  else
    match liveTouch (oldCtx p) (ea / 4096 * 4096) (logicalCycle p) with
    | none => raise p .accessUntouched (BitVec.ofNat 64 ea)
    | some e =>
      if store && !e.w then raise p .accessUntouched (BitVec.ofNat 64 ea)
      else if 16 ≤ (workCtx p).farq.length then freezeOn p .farQueue
      else f e p

/-- Tie the last result bound to a register to the far load whose data it awaits. -/
def awaitFar (id : Nat) : List Result → List Result
  | [] => []
  | [r] => [{ r with far := some id }]
  | r :: rs => r :: awaitFar id rs

/-- Queue a far access (R276). -/
def pushFar (p : Perf) (o : FarOp) : Perf :=
  modWork p fun c => { c with farq := c.farq ++ [{ o with id := c.farId }], farId := c.farId + 1 }

/-- Race check of a far access, where the detector covers device memory (R303, R304). -/
def checkFarRace (p : Perf) (pa va n : Nat) (write : Bool) : Perf :=
  if !cfgFar (oldCtx p) then p
  else checkSector p (shadowFarAt p.st (pa / 64)) (byteMask (pa / 64) pa n) (va / 64 * 64) true write true 0

/-- `ad.fld.Z sD, aA, sB` (R275, R276): visible kfdlat.LAT cycles after its issue, once its data have arrived. A load into
s0 awaits its data only. -/
def execAdFld (d : SReg) (post : Bool) (a : AReg) (b : SReg) (z : ASize) (q : QReg) (s : State) :
    Host.Outcome State Fault Refusal :=
  slotOp s (gated q fun p =>
    let (ea, p) := slotAddr p post a b
    withFar p ea z.bytes false fun e p =>
      let pa := e.page + ea % 4096
      let id := (workCtx p).farId
      let p := pushFar (checkFarRace p pa ea z.bytes false)
        ⟨0, false, pa, ea, z.bytes, 0, false, 0, decide (2 ≤ (oldCtx p).mode), e.inv⟩
      let n := (workCtx p).results.length
      let h := (workCtx p).hresults.length
      let p := writeS p d.val (oldCtx p).kfdlat 0
      modWork p fun c => { c with
        results := if n < c.results.length then awaitFar id c.results else c.results
        hresults := if h < c.hresults.length then awaitFar id c.hresults else c.hresults })

/-- `ad.fst.Z sD, aA, sB` (R275, R277): the data are read at issue, the store is performed in wall time, and is then the
release that an earlier fence makes of it (R295). -/
def execAdFst (d : SReg) (post : Bool) (a : AReg) (b : SReg) (z : ASize) (q : QReg) (s : State) :
    Host.Outcome State Fault Refusal :=
  slotOp s (gated q fun p =>
    let (ea, p) := slotAddr p post a b
    withFar p ea z.bytes true fun e p =>
      let (v, p) := readS p d.val
      let pa := e.page + ea % 4096
      pushFar (checkFarRace p pa ea z.bytes true)
        ⟨0, true, pa, ea, z.bytes, BitVec.ofNat 64 (v.toNat % 2 ^ (8 * z.bytes)), false, writeEntry p,
          decide (2 ≤ (oldCtx p).mode), e.inv⟩)

/-! ### Invalidation (R279) -/

/-- Bytes of an invalidation by its SIZE code; none for the codes that have no effect. -/
def invalSize : Nat → Option Nat
  | 0 => some 4096 | 1 => some 65536 | 2 => some (2 ^ 21) | 3 => some (2 ^ 30) | 4 => some (2 ^ 33)
  | 15 => some (2 ^ 64) | _ => none

/-- Does an invalidation cover part of a watched lake's source (R232)? -/
def invalHits (tenant lo hi : Nat) (w : Watch) : Bool :=
  w.tenant = tenant && rangesMeet w.src.1 w.src.2 lo (hi - lo)

/-- Record an invalidation and mark stale the tenant's pinned lakes it covers, those of saved images among them. -/
def invalidate (s : State) (tenant gid m lo hi : Nat) : State :=
  let no := s.invalNo + 1
  markStale { s with invals := s.invals ++ [⟨no, tenant, gid, m, lo, hi⟩], invalNo := no } (invalHits tenant lo hi)

/-- A write of kxinv (R279). -/
def writeKxinv (p : Perf) (v : Word) : Perf :=
  match invalSize (bitsOf v.toNat 11 8) with
  | none => p
  | some n =>
    let lo := if n = 2 ^ 64 then 0 else bitsOf v.toNat 55 12 * 4096 / n * n
    let g := p.is.old
    { p with st := invalidate p.st g.tenant g.id p.is.m lo (lo + n) }

end Sys2Proof.Machine
end

