-- ==== Sys2Proof/Machine/Order.lean ====
section
/-! DEFINITION. Order: the sy operations and fx.drn (R294 to R300, R406). -/

namespace Sys2Proof.Machine

/-! ### Fences (R289, R295) -/

/-- `sy.fence.ORD.SCOPE` (R289, R295): the reads before it are acquires, the writes after it releases. -/
def execSyFence (ord : FOrd) (sc : Scope) (q : QReg) (s : State) : Host.Outcome State Fault Refusal :=
  slotOp s (gated q fun p =>
    let p := if ord = .rel then p else (oldCtx p).relReads.foldl (acquireOne sc.code) p
    if ord = .acq then p else modWork p fun c => { c with relScope := widerScope sc.code c.relScope })

/-- `sy.xf PATHS` (R296): the model performs every access in one order (DESIGN CHOICE, log entry 6), so that it only advances. -/
def execSyXf (_paths : BitVec 6) (q : QReg) (s : State) : Host.Outcome State Fault Refusal :=
  slotOp s (gated q fun p => p)

/-! ### Drains (R297, R298, R432) -/

/-- Is a device reachable (R393)? -/
def reachable (s : State) (dev : Nat) : Bool := decide (dev = s.devId) || !(routePorts s dev).isEmpty

/-- Remote operations of this member issued before this bundle (DEDUCED, log entry 52). -/
def coveredOps (p : Perf) (o : RemOp) : Bool :=
  o.gang = p.is.old.id && o.member = p.is.m && decide (o.lc < logicalCycle p) && o.kind != .abort

/-- The RS status of the member. -/
def rsStatOf (s : State) (gid m : Nat) : Option RsStat := s.rsStats.find? fun r => r.gang = gid && r.member = m

/-- Is a plan of the member STARTING or RUNNING (R433)? -/
def ownPlan (s : State) (gid m : Nat) : Bool :=
  (s.starts.any fun x => x.gang = gid && x.member = m) || s.plans.any fun p => p.starter = some (gid, m)

/-- Does a rule store packets for the gang's task? -/
def ruleOfTask (s : State) (task rule : Nat) : Bool := s.steers.any fun t => t.rule = rule && t.task = task

/-- Is a named path complete (R297)? Paths by bit: 5 AS, 4 CP, 3 MX, 2 FB, 1 RS, 0 HP. -/
def pathDone (p : Perf) (bit : Nat) : Bool :=
  let c := oldCtx p
  if bit = 5 then c.farq.all fun o => !o.store && o.done
  else if bit = 4 then c.chans.toList.all fun ch => ch.state != .running
  else if bit = 3 then c.lakes.toList.all fun l => l.fill != .filling
  else if bit = 2 then p.st.remote.all fun o => !coveredOps p o || o.lost
  else if bit = 1 then
    (match rsStatOf p.st p.is.old.id p.is.m with
      | none => true
      | some r => !ownPlan p.st p.is.old.id p.is.m || decide (logicalCycle p ≤ r.lc))
  else p.st.arrivals.all fun a => !ruleOfTask p.st p.is.old.id a.rule

/-- Unresolved operations a drain reports. -/
def lostOps (p : Perf) : List RemOp := p.st.remote.filter fun o => coveredOps p o && o.lost

/-- FAB of a drain (R408). -/
def fabOf (p : Perf) : Nat :=
  if (lostOps p).isEmpty then 0 else if (lostOps p).any fun o => !reachable p.st o.dev then 1 else 2

/-- Devices in increasing order without repeats. -/
def sortedDevs (l : List Nat) : List Nat := (List.range 32768).filter fun d => l.contains d

/-- The fence status record (R298). -/
def statusRecord (devs : List Nat) : List Byte :=
  leBytes 2 devs.length ++ zeros 6 ++ (List.range 28).flatMap fun i => leBytes 2 (devs.getD i 65535)

/-- Report the unresolved operations: kfst.FAB, the status record, and each operation reported once. -/
def reportFab (p : Perf) : Perf :=
  let fab := fabOf p
  let lost := lostOps p
  let p := modWork p fun c => { c with kfst := c.kfst / 4 * 4 + BitVec.ofNat 64 fab }
  let p := { p with st := { p.st with remote := p.st.remote.filter fun o => !(coveredOps p o && o.lost) } }
  let base := bitsOf (oldCtx p).kfsr.toNat 22 6 * 64
  if fab ≠ 0 ∧ (oldCtx p).kfsr.getLsbD 0 ∧ inAlloc p.is.old base 64 then
    releaseWrite (addOp (accessLocal p base 64 true false 0)
      (.store base (statusRecord (sortedDevs (lost.map (·.dev)))) (writeEntry p)))
  else p

/-- The drain status (R297). -/
def drainStatus (p : Perf) (paths : BitVec 6) : Word :=
  let rs := match rsStatOf p.st p.is.old.id p.is.m with
    | none => false
    | some r => r.refused || decide (r.state = 3) || decide (r.state = 5)
  let susp := (oldCtx p).chans.toList.any fun ch => ch.state = .suspended
  BitVec.ofNat 64 ((paths.getLsbD 1 && rs).toNat * 8 + (paths.getLsbD 4 && susp).toNat * 4 +
    (if paths.getLsbD 2 then fabOf p else 0))

/-- A drain: it freezes until every named path is complete (R297). -/
def drain (d : SReg) (paths : BitVec 6) (p : Perf) : Perf :=
  if (List.range 6).all fun b => !paths.getLsbD b || pathDone p b then
    let v := drainStatus p paths
    writeS (if paths.getLsbD 2 then reportFab p else p) d.val 1 v
  else freezeOn p .drain

/-- `sy.drn.SCOPE sD, PATHS` (R297): every access is performed with respect to every agent at once (DESIGN CHOICE, log entry 6). -/
def execSyDrn (d : SReg) (paths : BitVec 6) (_sc : Scope) (q : QReg) (s : State) : Host.Outcome State Fault Refusal :=
  slotOp s (gated q (drain d paths))

/-- `fx.drn sR` (R406): as sy.drn.domain naming FB. -/
def execFxDrn (b : SReg) (q : QReg) (s : State) : Host.Outcome State Fault Refusal :=
  slotOp s (gated q (drain b 4))

/-! ### Waits (R299) -/

/-- An acquire of a far word, where the detector covers device memory. -/
def acquireFar (p : Perf) (pa va scope : Nat) : Perf :=
  (farRels p.st (oldCtx p) pa va 8 true 0).foldl (acquireOne scope) p

/-- Is a far access of the member's own to a sector still to be performed, which an access issued later may not overtake
(R277, R285, R286)? -/
def ownAccessDue (c : Ctx) (pa : Nat) : Bool := c.farq.any fun o => !o.done && decide (o.pa / 64 = pa / 64)

/-- A satisfied wait: the word, as i64, is 0 or less. -/
def waitOver (v : Nat) : Bool := decide (toSigned 64 v ≤ 0)

/-- `sy.wait.SCOPE sD` (R299). -/
def execSyWait (d : SReg) (sc : Scope) (q : QReg) (s : State) : Host.Outcome State Fault Refusal :=
  slotOp s (gated q fun p =>
    let (x, p) := readS p d.val
    let va := bitsOf x.toNat 62 0
    if x.getLsbD 63 then
      if va % 8 ≠ 0 then raise p .farAlign (BitVec.ofNat 64 va)
      else
        match translate p.st p.is.old.launch.xdesc va with
        | .error c => raise p .touchFault (touchVal va c)
        | .ok t =>
          if !t.r then raise p .touchFault (touchVal va causePerm)
          else if ownAccessDue (workCtx p) t.pa then freezeOn p .drain
          else if waitOver (physNat p.st t.pa 8) then
            writeS (acquireFar p t.pa va sc.code) d.val 1 (BitVec.ofNat 64 (physNat p.st t.pa 8))
          else freezeOn p .drain
    else withLocal p va 8 8 fun p =>
      let p := checkWatermark (touchSpad p va 8) va 8
      let v := leNat (localBytes p va 8)
      if waitOver v then writeS (acquireLocal (needRows p va 8) va 8 sc.code) d.val 1 (BitVec.ofNat 64 v)
      else freezeOn p .drain)

/-- `sy.phase sD` (R300): the phase changes after the bundle. -/
def execSyPhase (d : SReg) (q : QReg) (s : State) : Host.Outcome State Fault Refusal :=
  slotOp s (gated q fun p =>
    let (x, p) := readS p d.val
    { p with is := { p.is with phases := p.is.phases ++ [(p.is.m, x.toNat % 16)] } })

/-- `sy.lcr sD` (R300). -/
def execSyLcr (d : SReg) (q : QReg) (s : State) : Host.Outcome State Fault Refusal :=
  slotOp s (gated q fun p => writeS p d.val 1 (BitVec.ofNat 64 (logicalCycle p)))

end Sys2Proof.Machine
end

