-- ==== Sys2Proof/Machine/Vector.lean ====
section
/-! DEFINITION. Vector: elements of vector registers and the vx operations (R154 to R169). -/

namespace Sys2Proof.Machine

/-! ### Elements (R155) -/

/-- Bits from one element to the next. -/
def elemStride : VFmt → Nat
  | .f32 | .i32 | .n32 => 32 | .bf16 | .i16 => 16 | .i8 | .t8 | .t6 => 8

/-- Width of an element. -/
def elemWidth : VFmt → Nat
  | .f32 | .i32 | .n32 => 32 | .bf16 | .i16 => 16 | .i8 | .t8 => 8 | .t6 => 6

/-- Elements per lane, the k of R155. -/
def perLane (f : VFmt) : Nat := f.count / 64

/-- Elem(v, e). -/
def elem (f : VFmt) (v : Vec) (e : Nat) : Nat := v.toNat / 2 ^ (elemStride f * e) % 2 ^ elemWidth f

/-- A register from its elements. -/
def ofElems (f : VFmt) (g : Nat → Nat) : Vec := BitVec.ofNat 2048 (packNat (elemStride f) g f.count)

/-- The IEEE format of a vector format. -/
def vfF : VFmt → FFmt
  | .bf16 => bf16F
  | .f32 | .i32 | .n32 | .i16 | .i8 | .t8 | .t6 => f32F

/-- An integer element by its type (R161): i formats signed, n32 unsigned. -/
def vInt (f : VFmt) (x : Nat) : Int := if f = .n32 then (x : Int) else toSigned (elemWidth f) x

/-- Least value of an integer format. -/
def vLo (f : VFmt) : Int := if f = .n32 then 0 else -(2 ^ (elemWidth f - 1) : Int)
/-- Greatest value of an integer format. -/
def vHi (f : VFmt) : Int := if f = .n32 then 2 ^ 32 - 1 else 2 ^ (elemWidth f - 1) - 1

/-- Wrap(v, w) as a pattern (R21). -/
def vWrap (f : VFmt) (v : Int) : Nat := wrapNat (elemWidth f) v
/-- Clamped to the type's range (R161). -/
def vClamp (f : VFmt) (v : Int) : Nat := vWrap f (clampInt (vLo f) (vHi f) v)

/-! ### The shared shapes (R58, R159) -/

/-- A lane operation on two vector registers. -/
def vecOp2 (lat : Nat) (g : Vec → Vec → Vec) (d a b : VReg) (q : QReg) : Perf → Perf :=
  laned q fun m p =>
    let (x, p) := readV p a.val
    let (y, p) := readV p b.val
    writeV p d.val lat (laneMask m) (g x y)

/-- A lane operation on one vector register. -/
def vecOp1 (lat : Nat) (g : Vec → Vec) (d a : VReg) (q : QReg) : Perf → Perf :=
  laned q fun m p =>
    let (x, p) := readV p a.val
    writeV p d.val lat (laneMask m) (g x)

/-- Element by element, two operands. -/
def elems2 (f : VFmt) (g : Nat → Nat → Nat) (x y : Vec) : Vec := ofElems f fun e => g (elem f x e) (elem f y e)
/-- Element by element, one operand. -/
def elems1 (f : VFmt) (g : Nat → Nat) (x : Vec) : Vec := ofElems f fun e => g (elem f x e)

/-- Latency by format: floating point or integer (R158). -/
def vLat (f : VFmt) (fp int : Nat) : Nat := if f.isFp then fp else int

/-- Arithmetic of R160 and R161 on elements: floating point rounded by the mode, integers wrapped. -/
def vArith (f : VFmt) (r : Rnd) (fp : FFmt → Rnd → Nat → Nat → Nat) (int : Int → Int → Int) (x y : Nat) : Nat :=
  if f.isFp then fp (vfF f) r x y else vWrap f (int (vInt f x) (vInt f y))

/-- `vx.add.F.M` (R160, R161). -/
def execVxAdd (d a b : VReg) (f : VFmt) (q : QReg) (r : Rnd) (s : State) : Host.Outcome State Fault Refusal :=
  slotOp s (vecOp2 (vLat f 4 1) (elems2 f (vArith f r fAdd (fun x y => x + y))) d a b q)

/-- `vx.sub.F.M` (R160, R161). -/
def execVxSub (d a b : VReg) (f : VFmt) (q : QReg) (r : Rnd) (s : State) : Host.Outcome State Fault Refusal :=
  slotOp s (vecOp2 (vLat f 4 1) (elems2 f (vArith f r fSub (fun x y => x - y))) d a b q)

/-- `vx.mul.F.M` (R160, R161). -/
def execVxMul (d a b : VReg) (f : VFmt) (q : QReg) (r : Rnd) (s : State) : Host.Outcome State Fault Refusal :=
  slotOp s (vecOp2 (vLat f 4 3) (elems2 f (vArith f r fMul (fun x y => x * y))) d a b q)

/-- x × y + d on elements (R160, R161). -/
def vFma (f : VFmt) (r : Rnd) (x y z : Nat) : Nat :=
  if f.isFp then fFma (vfF f) r x y z else vWrap f (vInt f x * vInt f y + vInt f z)

/-- `vx.fma.F.M` (R160, R161): the addend is the old vD. -/
def execVxFma (d a b : VReg) (f : VFmt) (q : QReg) (r : Rnd) (s : State) : Host.Outcome State Fault Refusal :=
  slotOp s (laned q fun m p =>
    let (x, p) := readV p a.val
    let (y, p) := readV p b.val
    let (z, p) := readV p d.val
    writeV p d.val 4 (laneMask m) (ofElems f fun e => vFma f r (elem f x e) (elem f y e) (elem f z e)))

/-- `vx.min.F` (R162). -/
def execVxMin (d a b : VReg) (f : VFmt) (q : QReg) (s : State) : Host.Outcome State Fault Refusal :=
  slotOp s (vecOp2 1 (elems2 f (vArith f .rne (fun k _ => fMin k) min)) d a b q)

/-- `vx.max.F` (R162). -/
def execVxMax (d a b : VReg) (f : VFmt) (q : QReg) (s : State) : Host.Outcome State Fault Refusal :=
  slotOp s (vecOp2 1 (elems2 f (vArith f .rne (fun k _ => fMax k) max)) d a b q)

/-- `vx.abs.F` (R161, R162). -/
def execVxAbs (d a : VReg) (f : VFmt) (q : QReg) (s : State) : Host.Outcome State Fault Refusal :=
  slotOp s (vecOp1 1 (elems1 f fun x => if f.isFp then fAbs (vfF f) x else vWrap f ((vInt f x).natAbs)) d a q)

/-- `vx.neg.F` (R161, R162). -/
def execVxNeg (d a : VReg) (f : VFmt) (q : QReg) (s : State) : Host.Outcome State Fault Refusal :=
  slotOp s (vecOp1 1 (elems1 f fun x => if f.isFp then fNeg (vfF f) x else vWrap f (-(vInt f x))) d a q)

/-- `vx.and` (R163). -/
def execVxAnd (d a b : VReg) (q : QReg) (s : State) : Host.Outcome State Fault Refusal :=
  slotOp s (vecOp2 1 (fun x y => x &&& y) d a b q)

/-- `vx.or` (R163). -/
def execVxOr (d a b : VReg) (q : QReg) (s : State) : Host.Outcome State Fault Refusal :=
  slotOp s (vecOp2 1 (fun x y => x ||| y) d a b q)

/-- `vx.xor` (R163). -/
def execVxXor (d a b : VReg) (q : QReg) (s : State) : Host.Outcome State Fault Refusal :=
  slotOp s (vecOp2 1 (fun x y => x ^^^ y) d a b q)

/-- `vx.not` (R163). -/
def execVxNot (d a : VReg) (q : QReg) (s : State) : Host.Outcome State Fault Refusal :=
  slotOp s (vecOp1 1 (fun x => ~~~x) d a q)

/-- `vx.shl.F` (R161). -/
def execVxShl (d a b : VReg) (f : VFmt) (q : QReg) (s : State) : Host.Outcome State Fault Refusal :=
  slotOp s (vecOp2 1 (elems2 f (shlBits (elemWidth f))) d a b q)

/-- `vx.shr.F` (R161). -/
def execVxShr (d a b : VReg) (f : VFmt) (q : QReg) (s : State) : Host.Outcome State Fault Refusal :=
  slotOp s (vecOp2 1 (elems2 f (shrBits (elemWidth f))) d a b q)

/-- `vx.sra.F` (R161). -/
def execVxSra (d a b : VReg) (f : VFmt) (q : QReg) (s : State) : Host.Outcome State Fault Refusal :=
  slotOp s (vecOp2 1 (elems2 f (sraBits (elemWidth f))) d a b q)

/-- `vx.mulh.F` (R161). -/
def execVxMulh (d a b : VReg) (f : VFmt) (q : QReg) (s : State) : Host.Outcome State Fault Refusal :=
  slotOp s (vecOp2 3 (elems2 f fun x y => vWrap f (vInt f x * vInt f y / 2 ^ elemWidth f)) d a b q)

/-- `vx.adds.F` (R161). -/
def execVxAdds (d a b : VReg) (f : VFmt) (q : QReg) (s : State) : Host.Outcome State Fault Refusal :=
  slotOp s (vecOp2 1 (elems2 f fun x y => vClamp f (vInt f x + vInt f y)) d a b q)

/-- `vx.subs.F` (R161). -/
def execVxSubs (d a b : VReg) (f : VFmt) (q : QReg) (s : State) : Host.Outcome State Fault Refusal :=
  slotOp s (vecOp2 1 (elems2 f fun x y => vClamp f (vInt f x - vInt f y)) d a b q)

/-- `vx.mov` (R163). -/
def execVxMov (d a : VReg) (q : QReg) (s : State) : Host.Outcome State Fault Refusal :=
  slotOp s (vecOp1 1 id d a q)

/-- `vx.sel` (R163): always performed; Q is the selector. -/
def execVxSel (d a b : VReg) (q : QReg) (s : State) : Host.Outcome State Fault Refusal :=
  slotOp s (always fun p =>
    let (x, p) := readV p a.val
    let (y, p) := readV p b.val
    let (c, p) := readQ p q.val
    writeV p d.val 1 fullMask ((x &&& laneMask c) ||| (y &&& ~~~(laneMask c))))

/-! ### Compares and predicates (R166, R167) -/

/-- A predicate of 64 bits. -/
def ofBits (f : Nat → Bool) : Word := BitVec.ofNat 64 ((List.range 64).foldr (fun i acc => (f i).toNat * 2 ^ i + acc) 0)

/-- A compare of elements; inactive lanes keep their bit. -/
def vecCmp (f : VFmt) (fp : Nat → Nat → Bool) (int : Int → Int → Bool) (d : QReg) (a b : VReg) (q : QReg) : Perf → Perf :=
  laned q fun m p =>
    let (x, p) := readV p a.val
    let (y, p) := readV p b.val
    writeQ p d.val 1 m (ofBits fun i =>
      if f.isFp then fp (elem f x i) (elem f y i) else int (vInt f (elem f x i)) (vInt f (elem f y i)))

/-- `vx.ceq.F` (R166). -/
def execVxCeq (d : QReg) (a b : VReg) (f : VFmt) (q : QReg) (s : State) : Host.Outcome State Fault Refusal :=
  slotOp s (vecCmp f (fEq f32F) (fun x y => x == y) d a b q)

/-- `vx.cne.F` (R166). -/
def execVxCne (d : QReg) (a b : VReg) (f : VFmt) (q : QReg) (s : State) : Host.Outcome State Fault Refusal :=
  slotOp s (vecCmp f (fun x y => !fEq f32F x y) (fun x y => x != y) d a b q)

/-- `vx.clt.F` (R166). -/
def execVxClt (d : QReg) (a b : VReg) (f : VFmt) (q : QReg) (s : State) : Host.Outcome State Fault Refusal :=
  slotOp s (vecCmp f (fLt f32F) (fun x y => decide (x < y)) d a b q)

/-- `vx.cle.F` (R166). -/
def execVxCle (d : QReg) (a b : VReg) (f : VFmt) (q : QReg) (s : State) : Host.Outcome State Fault Refusal :=
  slotOp s (vecCmp f (fLe f32F) (fun x y => decide (x ≤ y)) d a b q)

/-- Predicate logic on active lanes (R167). -/
def predOp (g : Word → Word → Word) (d a b q : QReg) : Perf → Perf :=
  laned q fun m p =>
    let (x, p) := readQ p a.val
    let (y, p) := readQ p b.val
    writeQ p d.val 1 m (g x y)

/-- `vx.qand` (R167). -/
def execVxQand (d a b q : QReg) (s : State) : Host.Outcome State Fault Refusal :=
  slotOp s (predOp (fun x y => x &&& y) d a b q)

/-- `vx.qor` (R167). -/
def execVxQor (d a b q : QReg) (s : State) : Host.Outcome State Fault Refusal :=
  slotOp s (predOp (fun x y => x ||| y) d a b q)

/-- `vx.qxor` (R167). -/
def execVxQxor (d a b q : QReg) (s : State) : Host.Outcome State Fault Refusal :=
  slotOp s (predOp (fun x y => x ^^^ y) d a b q)

/-- `vx.qnot` (R167). -/
def execVxQnot (d a q : QReg) (s : State) : Host.Outcome State Fault Refusal :=
  slotOp s (laned q fun m p =>
    let (x, p) := readQ p a.val
    writeQ p d.val 1 m (~~~x))

/-! ### Lane moves (R164, R165) -/

/-- `vx.perm` (R164). -/
def execVxPerm (d a b : VReg) (q : QReg) (s : State) : Host.Outcome State Fault Refusal :=
  slotOp s (vecOp2 2 (fun x y => ofLanes fun i => lane x ((lane y i).toNat % 64)) d a b q)

/-- A lane move by a scalar amount, read as i64. -/
def laneMove (g : Vec → Int → Nat → Lane) (d a : VReg) (b : SReg) (q : QReg) : Perf → Perf :=
  laned q fun m p =>
    let (x, p) := readV p a.val
    let (t, p) := readS p b.val
    writeV p d.val 2 (laneMask m) (ofLanes (g x (toSigned 64 t.toNat)))

/-- `vx.lsh` (R164): lanes from outside are 0. -/
def execVxLsh (d a : VReg) (b : SReg) (q : QReg) (s : State) : Host.Outcome State Fault Refusal :=
  slotOp s (laneMove (fun x t i => if 0 ≤ (i : Int) - t ∧ (i : Int) - t < 64 then lane x ((i : Int) - t).toNat else 0) d a b q)

/-- `vx.lrot` (R164). -/
def execVxLrot (d a : VReg) (b : SReg) (q : QReg) (s : State) : Host.Outcome State Fault Refusal :=
  slotOp s (laneMove (fun x t i => lane x (((i : Int) - t) % 64).toNat) d a b q)

/-- `vx.bcast.F` (R165). -/
def execVxBcast (d : VReg) (a : SReg) (f : VFmt) (q : QReg) (s : State) : Host.Outcome State Fault Refusal :=
  slotOp s (laned q fun m p =>
    let (x, p) := readS p a.val
    writeV p d.val 1 (laneMask m) (ofElems f fun _ => x.toNat % 2 ^ elemWidth f))

/-- An element as a scalar: sign-extended for i formats, else zero-extended (R165). -/
def elemWord (f : VFmt) (x : Nat) : Word := if f.isInt then wordOfInt (vInt f x) else BitVec.ofNat 64 x

/-- A scalar result that a predicate bit decides: kept when it is 0, but counted, and pushed as 0 (R165). -/
def writeSIf (p : Perf) (n lat : Nat) (c : Bool) (v : Word) : Perf :=
  match placeS (oldCtx p).mode n with
  | .zero => p
  | .port => pushSdq p lat (if c then v else 0)
  | .user n => pushResult (touchBlock p 0) lat .s n (if c then wordMask else 0) (ofWord v)
  | .shadow n => pushResult (touchBlock p 0) lat .h n (if c then wordMask else 0) (ofWord v)
  | .service n => pushResult p lat .ss n (if c then wordMask else 0) (ofWord v)

/-- `vx.ext.F` (R165). -/
def execVxExt (d : SReg) (a : VReg) (b : SReg) (f : VFmt) (q : QReg) (s : State) : Host.Outcome State Fault Refusal :=
  slotOp s (laned q fun m p =>
    let (x, p) := readV p a.val
    let (y, p) := readS p b.val
    let e := y.toNat % f.count
    writeSIf p d.val 2 (m.getLsbD (e / perLane f)) (elemWord f (elem f x e)))

/-! ### Reductions (R168) -/

/-- A reduction of vA under the predicate into a scalar register, eight cycles later. -/
def reduceOp (g : Vec → Word → Word) (d : SReg) (a : VReg) (q : QReg) : Perf → Perf :=
  laned q fun m p =>
    let (x, p) := readV p a.val
    writeS p d.val 8 (g x m)

/-- The elements of the active lanes. -/
def activeElems (f : VFmt) (x : Vec) (m : Word) : List Nat :=
  (List.range f.count).filterMap fun e => if m.getLsbD (e / perLane f) then some (elem f x e) else none

/-- An element widened exactly to FP32 (R34). -/
def widenF32 (f : VFmt) (x : Nat) : Nat := f32F.write .rne ((vfF f).read x)

/-- One level of the pairing of R168. -/
def pairSums : List Nat → List Nat
  | a :: b :: r => fAdd f32F .rne a b :: pairSums r
  | l => l

/-- The levels of the pairing. -/
def pairTree : Nat → List Nat → List Nat
  | 0, l => l
  | n + 1, l => pairTree n (pairSums l)

/-- vx.radd's value (R168): excluded floating-point elements count as −0. -/
def raddValue (f : VFmt) (x : Vec) (m : Word) : Word :=
  if f.isFp then
    let t := (List.range f.count).map fun e =>
      if m.getLsbD (e / perLane f) then widenF32 f (elem f x e) else f32F.signBit
    BitVec.ofNat 64 ((pairTree 7 t).headD 0)
  else wordOfInt ((activeElems f x m).foldl (fun acc e => acc + vInt f e) 0)

/-- vx.rmax's value (R168). -/
def rmaxValue (f : VFmt) (x : Vec) (m : Word) : Word :=
  if f.isFp then
    BitVec.ofNat 64 ((activeElems f x m).foldl (fun acc e => fMax f32F acc (widenF32 f e)) (f32F.signBit + f32F.infCode))
  else wordOfInt ((activeElems f x m).foldl (fun acc e => max acc (vInt f e)) (vLo f))

/-- vx.rmin's value (R168). -/
def rminValue (f : VFmt) (x : Vec) (m : Word) : Word :=
  if f.isFp then BitVec.ofNat 64 ((activeElems f x m).foldl (fun acc e => fMin f32F acc (widenF32 f e)) f32F.infCode)
  else wordOfInt ((activeElems f x m).foldl (fun acc e => min acc (vInt f e)) (vHi f))

/-- `vx.radd.F` (R168). -/
def execVxRadd (d : SReg) (a : VReg) (f : VFmt) (q : QReg) (s : State) : Host.Outcome State Fault Refusal :=
  slotOp s (reduceOp (raddValue f) d a q)

/-- `vx.rmax.F` (R168). -/
def execVxRmax (d : SReg) (a : VReg) (f : VFmt) (q : QReg) (s : State) : Host.Outcome State Fault Refusal :=
  slotOp s (reduceOp (rmaxValue f) d a q)

/-- `vx.rmin.F` (R168). -/
def execVxRmin (d : SReg) (a : VReg) (f : VFmt) (q : QReg) (s : State) : Host.Outcome State Fault Refusal :=
  slotOp s (reduceOp (rminValue f) d a q)

/-! ### Approximation functions (R169) -/

/-- A function on FP32 codes by element, through FP32 for bf16. -/
def approx (f : VFmt) (g : Nat → Nat) (x : Nat) : Nat := if f = .bf16 then viaF32 g x else g x

/-- `vx.rcp.F` (R169). -/
def execVxRcp (d a : VReg) (f : VFmt) (q : QReg) (s : State) : Host.Outcome State Fault Refusal :=
  slotOp s (vecOp1 6 (elems1 f (approx f rcpF32)) d a q)

/-- `vx.rsq.F` (R169). -/
def execVxRsq (d a : VReg) (f : VFmt) (q : QReg) (s : State) : Host.Outcome State Fault Refusal :=
  slotOp s (vecOp1 6 (elems1 f (approx f rsqF32)) d a q)

/-- `vx.exp2.F` (R169). -/
def execVxExp2 (d a : VReg) (f : VFmt) (q : QReg) (s : State) : Host.Outcome State Fault Refusal :=
  slotOp s (vecOp1 6 (elems1 f (approx f exp2F32)) d a q)

/-- `vx.log2.F` (R169). -/
def execVxLog2 (d a : VReg) (f : VFmt) (q : QReg) (s : State) : Host.Outcome State Fault Refusal :=
  slotOp s (vecOp1 6 (elems1 f (approx f log2F32)) d a q)

end Sys2Proof.Machine
end

