-- ==== Sys2Proof/Machine/Convert.lean ====
section
/-! DEFINITION. Convert: the vy operations: conversions (R170 to R174) and plane packing (R175); the outlier ring
(R35 to R37). -/

namespace Sys2Proof.Machine

/-- Magnitude bits of a tapered format: 7 for t8, 5 for t6 (R30, R31). -/
def taperBits : VFmt → Nat
  | .t6 => 5
  | .f32 | .bf16 | .i32 | .n32 | .i16 | .i8 | .t8 => 7

/-- Is the format tapered? -/
def isTaper : VFmt → Bool
  | .t8 | .t6 => true
  | .f32 | .bf16 | .i32 | .n32 | .i16 | .i8 => false

/-- The exact value of a floating-point or tapered element. -/
def elemVal (f : VFmt) (x : Nat) : FVal := if isTaper f then taperedRead x (taperBits f) else (vfF f).read x

/-- The code of a conversion to a tapered format that saturates (R33). -/
def taperCode (w : Nat) (v : FVal) : Nat :=
  match toTapered w false v with
  | .code c => c
  | .outlier => 0

/-- Convert of vy.cvt (R171, R34). -/
def cvtElem (sf f : VFmt) (r : Rnd) (x : Nat) : Nat :=
  if sf.isInt then
    (if f.isInt then vWrap f (vInt sf x) else (vfF f).write r (FVal.ofInt (vInt sf x) 0 false))
  else if f.isInt then vWrap f ((elemVal sf x).toInt r (vLo f) (vHi f))
  else if isTaper f then taperCode (taperBits f) (elemVal sf x)
  else (vfF f).write r (elemVal sf x)

/-- Convert of vy.cvs (R171, R173): saturating. -/
def cvsElem (sf f : VFmt) (x : Nat) : Nat :=
  if sf.isInt then vClamp f (vInt sf x) else taperCode (taperBits f) (elemVal sf x)

/-- First source element of a part (R170). -/
def partSrc (part : Fin 4) (sf : VFmt) : Nat := 64 * (part.val % (sf.count / 64))
/-- First destination element of a part (R170). -/
def partDst (part : Fin 4) (f : VFmt) : Nat := 64 * (part.val % (f.count / 64))

/-- The bits of the destination elements whose predicate bit is 1 (R170). -/
def partMask (f : VFmt) (dst : Nat) (m : Word) : Vec :=
  BitVec.ofNat 2048 (packNat (elemStride f) (fun j => if m.getLsbD j then 2 ^ elemStride f - 1 else 0) 64 *
    2 ^ (elemStride f * dst))

/-- The destination elements of a part. -/
def partVal (f : VFmt) (dst : Nat) (g : Nat → Nat) : Vec :=
  BitVec.ofNat 2048 (packNat (elemStride f) g 64 * 2 ^ (elemStride f * dst))

/-- A conversion of 64 elements, three cycles later (R170). -/
def convOp (g : Nat → Nat) (d a : VReg) (part : Fin 4) (sf f : VFmt) (q : QReg) : Perf → Perf :=
  laned q fun m p =>
    let (x, p) := readV p a.val
    let (_, p) := readV p d.val
    writeV p d.val 3 (partMask f (partDst part f) m)
      (partVal f (partDst part f) fun j => g (elem sf x (partSrc part sf + j)))

/-- `vy.cvt.S.F.M` (R170, R171). -/
def execVyCvt (d a : VReg) (part : Fin 4) (sf f : VFmt) (q : QReg) (r : Rnd) (s : State) :
    Host.Outcome State Fault Refusal :=
  slotOp s (convOp (cvtElem sf f r) d a part sf f q)

/-- `vy.cvs.S.F` (R170, R171). -/
def execVyCvs (d a : VReg) (part : Fin 4) (sf f : VFmt) (q : QReg) (s : State) : Host.Outcome State Fault Refusal :=
  slotOp s (convOp (cvsElem sf f) d a part sf f q)

/-! ### The outlier ring (R35 to R37) -/

/-- Entries free in a ring (R36). -/
def ringFree (c : Ctx) : Nat := c.olcap - (c.olput.toNat + 2 ^ 32 - c.oltake.toNat) % 2 ^ 32

/-- Local address of ring entry `n` (R36). -/
def ringAddr (c : Ctx) (n : Nat) : Nat := c.olbase * 8 + 8 * (n % c.olcap)

/-- The checks an OUT-mode slot makes of the blocks that hold the next ring entries, at most `n` (R174, R219): presence
and watermarks. -/
def checkRing (p : Perf) (n : Nat) : Perf :=
  let c := oldCtx p
  if c.olcap = 0 then p
  else (List.range (min n (ringFree c))).foldl (fun p i =>
    let a := ringAddr c (c.olput.toNat + i)
    if inAlloc p.is.old a 8 then checkWatermark (touchKnown p a 8) a 8 else p) p

/-- What OUT mode makes of a value (R33): its code, with 0 at the place of an outlier. -/
def outCode (w : Nat) (v : FVal) : Nat :=
  match toTapered w true v with
  | .code c => c
  | .outlier => 0

/-- Is the value an outlier? -/
def isOutlier (w : Nat) (v : FVal) : Bool := toTapered w true v = .outlier

/-- A source value as FP32 (R36): FP32 unchanged, others widened exactly. -/
def asF32 (sf : VFmt) (x : Nat) : Nat := if sf = .f32 then x else f32F.write .rne (elemVal sf x)

/-- `vy.cvo.S.F` (R174): out-of-range elements land as 0 and are appended to the ring at c + 3, which decides each. -/
def execVyCvo (d a : VReg) (part : Fin 4) (sf f : VFmt) (q : QReg) (s : State) : Host.Outcome State Fault Refusal :=
  slotOp s (laned q fun m p =>
    let (x, p) := readV p a.val
    let (_, p) := readV p d.val
    let src := partSrc part sf
    let dst := partDst part f
    let p := checkRing p 64
    let p := writeV p d.val 3 (partMask f dst m)
      (partVal f dst fun j => outCode (taperBits f) (elemVal sf (elem sf x (src + j))))
    let apps := (List.range 64).filterMap fun j =>
      if m.getLsbD j && isOutlier (taperBits f) (elemVal sf (elem sf x (src + j))) then
        some (⟨logicalCycle p + 3, .app (dst + j) (BitVec.ofNat 32 (asF32 sf (elem sf x (src + j)))) (128 + d.val) 0
          (f = .t6), false⟩ : Held)
      else none
    modWork p fun c => { c with held := c.held ++ apps })

/-! ### Plane packing (R175) -/

/-- Codes per register of a packed format. -/
def planeCodes (sf : VFmt) : Nat := if sf = .bf16 then 128 else 256

/-- vy.ppk's value: vD shifted down, its top bits from plane n of vA's codes. -/
def ppkValue (sf : VFmt) (n : Nat) (x old : Vec) : Vec :=
  let c := planeCodes sf
  let bits := packNat 1 (fun j => (bitAt (elem sf x j) (sf.planes - 1 - n)).toNat) c
  BitVec.ofNat 2048 (old.toNat / 2 ^ c + bits * 2 ^ (2048 - c))

/-- `vy.ppk.S` (R175). -/
def execVyPpk (d a : VReg) (n3 : Bool) (sf : VFmt) (n : Fin 8) (q : QReg) (s : State) :
    Host.Outcome State Fault Refusal :=
  slotOp s (laned q fun m p =>
    let (x, p) := readV p a.val
    let (old, p) := readV p d.val
    writeV p d.val 2 (laneMask m) (ppkValue sf (planeNo n3 n) x old))

/-- The bits vy.pun writes: one bit of each code of an active lane, and bits 7:6 of a t6 byte. -/
def punMask (sf : VFmt) (n : Nat) (m : Word) : Vec :=
  BitVec.ofNat 2048 (packNat (elemStride sf) (fun j =>
    if m.getLsbD (j / perLane sf) then 2 ^ (sf.planes - 1 - n) + (if sf = .t6 then 192 else 0) else 0) (planeCodes sf))

/-- vy.pun's value. -/
def punValue (sf : VFmt) (n : Nat) (x : Vec) : Vec :=
  BitVec.ofNat 2048 (packNat (elemStride sf) (fun j => (x.getLsbD j).toNat * 2 ^ (sf.planes - 1 - n)) (planeCodes sf))

/-- `vy.pun.S` (R175). -/
def execVyPun (d a : VReg) (n3 : Bool) (sf : VFmt) (n : Fin 8) (q : QReg) (s : State) :
    Host.Outcome State Fault Refusal :=
  slotOp s (laned q fun m p =>
    let (x, p) := readV p a.val
    let (_, p) := readV p d.val
    writeV p d.val 2 (punMask sf (planeNo n3 n) m) (punValue sf (planeNo n3 n) x))

end Sys2Proof.Machine
end

