-- ==== Sys2Proof/Machine/Tile.lean ====
section
/-! DEFINITION. Tile: accumulator tiles and frames (R202 to R206), the M unit's hold (R208), and the exact arithmetic of
array operations (R39 to R41, R213). -/

namespace Sys2Proof.Machine

/-! ### Elements of a tile -/

/-- `n` elements of a tile from a key, in order. -/
def accSlice (m : SMap Lane) (lo n : Nat) : List Lane :=
  let w := m.filter fun e => lo ≤ e.1 && e.1 < lo + n
  (List.range n).map fun i => mapGet 0 w (lo + i)

/-- All 2,048 elements of tile `t`. -/
def tileElems (c : Ctx) (t : Nat) : List Lane := accSlice c.acc (accKey t 0 0) 2048

/-! ### Frames (R203, R204) -/

/-- The lowest-numbered free frame. -/
def freeFrame (k : Core) : Option Nat := (List.range 16).find? fun i => vget .retired k.frames i = .free

/-- Is a frame already held for the tile? -/
def frameHeld (k : Core) (gid m t : Nat) : Bool := k.frames.toList.contains (.held gid m t)

/-- A tile that a saved image owns. -/
def findOwnedTile (s : State) (ibase m t : Nat) : Option OwnedTile :=
  s.ownedTiles.find? fun o => o.ibase = ibase && o.member = m && o.tile = t

/-- Key of a core. -/
def gangCore (g : Gang) (m : Nat) : Nat := coreKey g.cluster (getCtx g m).core

/-- The image's own tile where it stands on the member's core (R322). -/
def ownTile (s : State) (g : Gang) (m t : Nat) : Option OwnedTile :=
  g.fromImage.bind fun ib => (findOwnedTile s ib m t).filter fun o => o.core = gangCore g m

/-- The requests made before one of the gang's, and all of them where it has not been made (R321). -/
def claimsBefore (s : State) (g : Gang) (r : Nat × Nat × Nat) : List (Nat × Nat × Nat × Nat) :=
  s.claims.takeWhile fun c => c != (g.id, r)

/-- Does a request still need a frame of the core: it is of a tile that neither holds one nor stands in one as its image's
own? -/
def needsFrame (s : State) (core : Nat) (c : Nat × Nat × Nat × Nat) : Bool :=
  match findGang s c.1 with
  | none => false
  | some h => h.killed.isNone && decide (c.2.1 = 4) && decide (gangCore h c.2.2.1 = core) &&
      !frameHeld (getCore s h.cluster (getCtx h c.2.2.1).core) h.id c.2.2.1 c.2.2.2 && (ownTile s h c.2.2.1 c.2.2.2).isNone

/-- The frame a tile may take now: the lowest-numbered free one, where more are free than earlier requests still need
(R204, R321). -/
def frameFor (s : State) (g : Gang) (m t : Nat) : Option Nat :=
  let k := getCore s g.cluster (getCtx g m).core
  let earlier := ((claimsBefore s g (4, m, t)).filter (needsFrame s (gangCore g m))).length
  if earlier < (k.frames.toList.filter fun f => f = .free).length then freeFrame k else none

/-- Take frame `i` for a tile that has no saved copy: +0 everywhere and status 0 (R203). -/
def holdFrame (k : Core) (i gid m t : Nat) : Core := { k with frames := vset k.frames i (.held gid m t) }

/-- A tile as its claim leaves it. -/
def claimTile (c : Ctx) (t : Nat) : Ctx :=
  { accFill c (accKey t 0 0) (List.replicate 2048 0) with
    tiles := vmod c.tiles t fun x => { x with present := true, touched := true, kts := 0, pres := true } }

/-- Touch a tile (R203): a tile without a saved copy is claimed at once where a frame is free; otherwise the gang
freezes, and the claim is a storage action. -/
def touchTile (p : Perf) (t : Nat) : Perf :=
  let c := workCtx p
  let x := vget {} c.tiles t
  if x.present then modWork p fun c => { c with tiles := vmod c.tiles t fun x => { x with touched := true } }
  else
    let p := addAct p (.claim p.is.m t)
    let k := getCore p.st (clusterOf p) c.core
    if x.touched then freezeOn p .absent
    else if frameHeld k p.is.old.id p.is.m t then modWork p fun c => claimTile c t
    else
      match frameFor p.st p.is.old p.is.m t with
      | none => freezeOn p .absent
      | some i =>
        modWork { p with st := setCore p.st (clusterOf p) c.core (holdFrame k i p.is.old.id p.is.m t) }
          fun c => claimTile c t

/-- Read kts.tileN (R203): the status of a tile with no frame and no saved copy is 0, and the read does not touch it. -/
def readKts (p : Perf) (t : Nat) : Word × Perf :=
  let x := vget {} (oldCtx p).tiles t
  if !x.present && !x.touched then (0, p) else (x.kts, touchTile p t)

/-! ### The M unit (R208) -/

/-- An M-unit slot: a violation inside another operation's hold, even when it is not performed; a slot that is not performed
takes no hold of its own (DESIGN CHOICE, log entry 99). A handler's bundles stand outside the holds, which count logical
cycles (DEDUCED, log entry 100). -/
def mUnit (f : Perf → Perf) (p : Perf) : Perf :=
  if !p.is.handler && decide (logicalCycle p < (oldCtx p).mFree) then violate p else f p

/-- Hold the M unit for `h` logical cycles; a handler's operation takes no hold. -/
def holdM (p : Perf) (h : Nat) : Perf :=
  if p.is.handler then p else modWork p fun c => { c with mFree := logicalCycle p + h }

/-- A direct operation freezes while a tile it names is busy (R210), then touches it. -/
def directTile (p : Perf) (t : Nat) : Perf :=
  touchTile (if (vget {} (oldCtx p).tiles t).busy ≠ 0 then freezeOn p .matrix else p) t

/-- A status that a drain or store leaves eight cycles after its issue (R43, R207). -/
def pendStatus (p : Perf) (t : Nat) (v : Word) : Perf :=
  modWork p fun c => { c with pend := c.pend ++ [⟨t, logicalCycle p + 8, v⟩] }

/-! ### Values of array operations (R32, R39, R41) -/

/-- Width of a matrix format in planes (R186). -/
def mfWidth : MFmt → Nat
  | .t8 => 8 | .t6 => 6 | .bf16 => 16

/-- Bytes of a stored activation tile (R131). -/
def tileBytes (f : MFmt) : Nat := 256 * mfWidth f

/-- Bytes of a weight code (R220). -/
def mfSize : MFmt → Nat
  | .t8 | .t6 => 1 | .bf16 => 2

/-- The value of a code of a matrix format; a tapered code with sign 1 and magnitude 0 is +0 when fewer planes than its
width were read (R32). -/
def codeValue (f : MFmt) (planes code : Nat) : FVal :=
  match f with
  | .bf16 => bf16F.read code
  | .t8 => if planes < 8 ∧ code = 128 then .fin false 0 0 else taperedRead code 7
  | .t6 => if planes < 6 ∧ code = 32 then .fin false 0 0 else taperedRead code 5

/-- Code `g` from the planes read, the other bits 0 (R186, R213). -/
def planeCode (f : MFmt) (xs : List (List Byte)) (g : Nat) : Nat :=
  (List.range xs.length).foldl (fun acc j =>
    acc + (((xs.getD j []).getD (g / 8) 0).getLsbD (g % 8)).toNat * 2 ^ (mfWidth f - 1 - j)) 0

/-- Act(i, k) of R213. -/
def actValue (o : ArrayOp) (i k : Nat) : FVal :=
  let xs := if k < 128 then o.x0 else o.x1
  codeValue o.fmt xs.length (planeCode o.fmt xs (128 * i + k % 128))

/-- A weight code of a lake's source bytes. -/
def weightCode (f : MFmt) (bs : List Byte) (off : Nat) : FVal :=
  match f with
  | .t8 => taperedRead (fieldLe bs off 1) 7
  | .t6 => taperedRead (fieldLe bs off 1 % 64) 5
  | .bf16 => bf16F.read (fieldLe bs off 2)

/-- LakeW(k, n) of a dense lake (R226). -/
def denseWeight (a : ArrSlot) (k n : Nat) : FVal := weightCode a.fmt a.bytes (mfSize a.fmt * (128 * k + n))

/-- Bytes of a group record (R220). -/
def recBytes (f : MFmt) : Nat := 256 * mfSize f + 64

/-- LakeW(q, n) of a sparse lake (R220). -/
def sparseWeight (a : ArrSlot) (q n : Nat) : FVal :=
  weightCode a.fmt a.bytes (q / 2 * recBytes a.fmt + mfSize a.fmt * (128 * (q % 2) + n))

/-- LakeIdx(q, n) (R220): the kept position within its group. -/
def sparseIdx (a : ArrSlot) (q n : Nat) : Nat :=
  fieldLe a.bytes (q / 2 * recBytes a.fmt + 256 * mfSize a.fmt + n / 2) 1 / 2 ^ (4 * (n % 2) + 2 * (q % 2)) % 4

/-- The 128 products of output element (i, n), scaled (R213). -/
def products (o : ArrayOp) (a : ArrSlot) (i n : Nat) : List FVal :=
  (List.range 128).map fun q =>
    if o.sp then ((actValue o i (4 * (q / 2) + sparseIdx a q n)).mul (sparseWeight a q n)).scale o.scale
    else ((actValue o i q).mul (denseWeight a q n)).scale o.scale

/-- Is the product −0? -/
def isNegZero : FVal → Bool
  | .fin true 0 _ => true
  | _ => false

/-- The signed integer of a finite value at exponent `e0`, which is not above its own. -/
def atExp (e0 : Int) : FVal → Int
  | .fin n m e => (if n then -1 else 1) * ((m : Int) * 2 ^ (e - e0).toNat)
  | .nan | .inf _ => 0

/-- Least exponent of finite values. -/
def minExp (ps : List FVal) : Int :=
  ps.foldl (fun a v => match v with | .fin _ _ e => min a e | .nan | .inf _ => a) 0

/-- A group sum as FP32 (R41 step 3). -/
def groupSum (ps : List FVal) : Nat :=
  if ps.contains .nan || (ps.contains (.inf false) && ps.contains (.inf true)) then f32F.nanCode
  else if ps.contains (.inf false) then f32F.write .rne (.inf false)
  else if ps.contains (.inf true) then f32F.write .rne (.inf true)
  else
    let e0 := minExp ps
    let t := ps.foldl (fun a v => a + atExp e0 v) 0
    f32F.write .rne (FVal.ofInt t e0 (ps.all isNegZero))

/-- R41: four group sums accumulated in order from `acc`. -/
def accumulate (acc : Nat) (ps : List FVal) : Nat :=
  (List.range 4).foldl (fun a j => fAdd f32F .rne a (groupSum ((ps.drop (32 * j)).take 32))) acc

/-- The new elements of an operation's tile (R213). -/
def arrayResult (o : ArrayOp) (a : ArrSlot) (old : List Lane) : List Lane :=
  (List.range 2048).map fun k =>
    BitVec.ofNat 32 (accumulate (if o.z then f32F.signBit else (old.getD k 0).toNat) (products o a (k / 128) (k % 128)))

end Sys2Proof.Machine
end

