-- ==== Sys2Proof/Machine/Lake.lean ====
section
/-! DEFINITION. Lake: lake slots, their checks and faults, and the lk operations (R223 to R250). -/

namespace Sys2Proof.Machine

/-- A lake slot as the bundle sees it. -/
def lakeOf (p : Perf) (l : Nat) : LakeSt := vget {} (oldCtx p).lakes l

/-- Change a lake slot of the member. -/
def modLake (p : Perf) (l : Nat) (f : LakeSt → LakeSt) : Perf :=
  modWork p fun c => { c with lakes := vmod c.lakes l f }

/-- Raise a lake fault with its trap value (R248). -/
def lakeTrap (p : Perf) (code : Code) (l cause reissue : Nat) : Perf :=
  raise p code (BitVec.ofNat 64 ((lakeOf p l).gen.toNat * 2 ^ 32 + reissue % 256 * 65536 + cause * 256 + l % 16))

/-- A handle is current (R225). -/
def handleCurrent (p : Perf) (h : Word) : Bool :=
  let k := lakeOf p (h.toNat % 16)
  decide (bitsOf h.toNat 31 4 = 0) && k.bound && decide (bitsOf h.toNat 63 32 = k.gen.toNat)

/-- Act on the lake a current handle names, else LAKE_REVOKED with cause HANDLE. -/
def withHandle (p : Perf) (h : Word) (f : Nat → Perf → Perf) : Perf :=
  if handleCurrent p h then f (h.toNat % 16) p else lakeTrap p .lakeRevoked (h.toNat % 16) 0x03 0

/-- Length of a lake's source (R226). -/
def lakeLen (f : MFmt) (sp : Bool) : Nat := if sp then 64 * (256 * mfSize f + 64) else 16384 * mfSize f

/-- LakeCheck (R230) for reissue `k`: a trap, or a freeze that starts a fill where none is in progress. -/
def lakeCheck (p : Perf) (l : Nat) (sp : Bool) (k : Nat) : Perf :=
  let x := lakeOf p l
  if !x.bound then lakeTrap p .lakeRevoked l (if x.ext then 0x02 else 0x01) k
  else if sp != x.sparse then lakeTrap p .lakeOperand l 0x13 k
  else
    match x.fillErr with
    | some cause => lakeTrap p .lakeSource l cause k
    | none =>
      if x.pinned && x.stale then lakeTrap p .staleLake l 0x40 k
      else if x.fill = .filled then p
      else
        let p := freezeOn p .lakeFill
        if x.fill = .none then addAct p (.fill p.is.m l) else p

/-- Does a lake pass LakeCheck, so that its array slot holds weights to accept (R230)? -/
def lakeReady (p : Perf) (l : Nat) (sp : Bool) : Bool :=
  let x := lakeOf p l
  x.bound && sp == x.sparse && x.fillErr.isNone && !(x.pinned && x.stale) && decide (x.fill = .filled)

/-- lk.load's effect (R242): a fill in progress is cancelled, and a new one starts once INUSE is 0. The lake gives up its
array slot, and claims one anew when the fill starts (DEDUCED, log entry 10). -/
def loadLake (l : Nat) (p : Perf) : Perf :=
  modLake { p with st := dropArr p.st p.is.work p.is.m l } l fun x =>
    { x with fillErr := none, stale := false, fill := .filling, pend := true }

/-- lk.sclr's effect (R242). -/
def clearStale (l : Nat) (p : Perf) : Perf := modLake p l fun x => { x with stale := false }

/-- lk.revk's effect (R243). -/
def revokeSlot (l : Nat) (p : Perf) : Perf :=
  let r := revokeLake p.st p.is.work p.is.m l false
  { p with st := r.1, is := { p.is with work := r.2 } }

/-- Pinned lakes of a tenant counted on a core (R235): each has one watch entry. -/
def pinCount (s : State) (tenant core : Nat) : Nat :=
  (s.watch.filter fun e => match e.2 with
    | none => false
    | some w => w.tenant = tenant && w.core = core).length

/-- Release the watch entries of saved images that another device has resumed (R237), which shows in their STATE (R312). -/
def releaseResumed (s : State) : State :=
  { s with watch := s.watch.filter fun e => match e.2 with
      | none => true
      | some w => match w.ibase with
        | none => true
        | some ib => decide (physNat s (ib + 7) 1 ≠ 3) }

/-- The lowest free index of the watch table, which has 8,192 entries (R232). -/
def freeWatch (s : State) : Option Nat := (List.range 8192).find? fun i => (mapGet none s.watch i).isNone

/-- lk.pin's effect (R232, R235, R242); its walk ends within the cycle of its issue (DESIGN CHOICE, log entry 101). -/
def pinLake (l : Nat) (p : Perf) : Perf :=
  let x := lakeOf p l
  let p := { p with st := releaseResumed p.st }
  let g := p.is.old
  let core := coreKey g.cluster (oldCtx p).core
  if x.pinned then p
  else if mapGet 16 p.st.quota g.tenant < pinCount p.st g.tenant core + 1 then lakeTrap p .lakeQuota l 0x20 0
  else
    match freeWatch p.st with
    | none => lakeTrap p .lakeQuota l 0x21 0
    | some i =>
      match xlatRange p.st g.launch.xdesc x.src (lakeLen x.fmt x.sparse) false with
      | .error _ => lakeTrap p .lakeSource l 0x30 0
      | .ok rs =>
        let w : Watch := ⟨rs, (x.src, lakeLen x.fmt x.sparse), g.tenant, core, g.id, p.is.m, l, none, false⟩
        modLake { p with st := { p.st with watch := mapSet none p.st.watch i (some w) } } l fun x =>
          { x with pinned := true, watch := i, wdev := p.st.devId }

/-- lk.unpin's effect (R242). -/
def unpinLake (l : Nat) (p : Perf) : Perf :=
  let x := lakeOf p l
  if x.pinned then
    modLake { p with st := { p.st with watch := mapSet none p.st.watch x.watch none } } l fun x => { x with pinned := false }
  else p

/-- `lk.alloc.FMT[.sp] sD, sA, sB` (R241). -/
def execLkAlloc (d a b : SReg) (f : MFmt) (sp : Bool) (q : QReg) (s : State) : Host.Outcome State Fault Refusal :=
  slotOp s (mUnit (gated q fun p =>
    let (src, p) := readS p a.val
    let (n, p) := readS p b.val
    let l := n.toNat % 16
    if bitsOf n.toNat 63 4 ≠ 0 then lakeTrap p .lakeOperand l 0x11 0
    else if (lakeOf p l).bound then lakeTrap p .lakeOperand l 0x10 0
    else if src.toNat % 256 ≠ 0 ∨ 2 ^ 56 < src.toNat + lakeLen f sp then lakeTrap p .lakeOperand l 0x12 0
    else
      let gen := (lakeOf p l).gen + 1
      let p := modLake p l fun x =>
        { x with gen := gen, bound := true, src := src.toNat, fmt := f, sparse := sp, pinned := false, stale := false,
                 fillErr := none, fill := .none, pend := false, ext := false }
      writeS (holdM p 1) d.val 1 (BitVec.ofNat 64 (gen.toNat * 2 ^ 32 + l))))

/-- An lk operation on the lake a handle names. -/
def handleSlot (f : Nat → Perf → Perf) (a : SReg) (q : QReg) : Perf → Perf :=
  mUnit (gated q fun p =>
    let (h, p) := readS p a.val
    withHandle (holdM p 1) h f)

/-- `lk.load sA` (R242). -/
def execLkLoad (a : SReg) (q : QReg) (s : State) : Host.Outcome State Fault Refusal := slotOp s (handleSlot loadLake a q)

/-- `lk.pin sA` (R242). -/
def execLkPin (a : SReg) (q : QReg) (s : State) : Host.Outcome State Fault Refusal := slotOp s (handleSlot pinLake a q)

/-- `lk.unpin sA` (R242). -/
def execLkUnpin (a : SReg) (q : QReg) (s : State) : Host.Outcome State Fault Refusal := slotOp s (handleSlot unpinLake a q)

/-- `lk.revk sA` (R243). -/
def execLkRevk (a : SReg) (q : QReg) (s : State) : Host.Outcome State Fault Refusal := slotOp s (handleSlot revokeSlot a q)

/-- Code of a matrix format in a status (R236, R244). -/
def fillCode : Fill → Nat
  | .none => 0 | .filling => 1 | .filled => 2

/-- The status word of lk.qry (R244). -/
def lakeStatus (x : LakeSt) : Word :=
  if !x.bound then BitVec.ofNat 64 (x.gen.toNat * 2 ^ 32)
  else BitVec.ofNat 64 (x.gen.toNat * 2 ^ 32 + (decide (x.inuse ≠ 0)).toNat * 512 + x.fillErr.isSome.toNat * 256 +
    x.sparse.toNat * 128 + x.fmt.code * 32 + x.stale.toNat * 16 + x.pinned.toNat * 8 + fillCode x.fill * 2 + 1)

/-- `lk.qry sD, sA` (R244): never traps on its operand. -/
def execLkQry (d a : SReg) (q : QReg) (s : State) : Host.Outcome State Fault Refusal :=
  slotOp s (mUnit (gated q fun p =>
    let (x, p) := readS p a.val
    writeS (holdM p 1) d.val 1 (lakeStatus (lakeOf p (x.toNat % 16)))))

/-- `lk.quota sA, sB` (R245): service privilege. -/
def execLkQuota (a b : SReg) (q : QReg) (s : State) : Host.Outcome State Fault Refusal :=
  slotOp s (mUnit (gated q fun p =>
    if !privileged p then raise p .privilege 0
    else
      let (t, p) := readS p a.val
      let (n, p) := readS p b.val
      if bitsOf t.toNat 63 12 ≠ 0 then lakeTrap p .lakeOperand 0 0x11 0
      else
        let p := holdM p 1
        { p with st := { p.st with quota := mapSet 16 p.st.quota (t.toNat % 4096) (min n.toNat 16) } }))

/-- `lk.sclr sA` (R242). -/
def execLkSclr (a : SReg) (q : QReg) (s : State) : Host.Outcome State Fault Refusal := slotOp s (handleSlot clearStale a q)

/-- A write of klsvc (R246): REFILL, ACCEPT or REVOKE on a bound slot. -/
def writeKlsvc (p : Perf) (v : Word) : Perf :=
  let l := v.toNat % 16
  let act := bitsOf v.toNat 7 4
  if !(vget {} (workCtx p).lakes l).bound then p
  else if act = 1 then loadLake l p
  else if act = 2 then clearStale l p
  else if act = 3 then revokeSlot l p
  else p

end Sys2Proof.Machine
end

