-- ==== Sys2Proof/Machine/Matrix.lean ====
section
/-! DEFINITION. Matrix: the mx operations (R207 to R222). -/

namespace Sys2Proof.Machine

/-! ### Array operations (R211 to R214) -/

/-- The array slot that holds a lake's weights. -/
def arraySlot (k : Core) (gid m l : Nat) : Option Nat :=
  (List.range 16).find? fun i => match vget none k.arr i with
    | none => false
    | some x => x.gang = gid && x.member = m && x.lake = l && x.filled && !x.zombie

/-- Local addresses of the planes an operation reads (R212). -/
def planeAddrs (f : MFmt) (pl : Fin 8) (base h : Nat) : List Nat :=
  (List.range (planesRead pl)).map fun j => base + h * tileBytes f + 256 * j

/-- The first R180 fault among 256 B reads. -/
def firstBad (g : Gang) (as : List Nat) : Option Nat := as.find? fun a => !inAlloc g a 256

/-- Presence and watermark of reads of 256 B. -/
def touchPlanes (p : Perf) (as : List Nat) : Perf :=
  as.foldl (fun p a => checkRace (checkWatermark (touchSpad p a 256) a 256) a 256 false false 2) p

/-- Rows of reads of 256 B. -/
def rowPlanes (p : Perf) (as : List Nat) : Perf := as.foldl (fun p a => needRows p a 256) p

/-- The scale registers of an operation are read, at its issue and at each reissue (R40, R131, R136). -/
def readScales (p : Perf) (eA eB : Nat) : Perf := (readE (readE p eA).2 eB).2

/-- Exponent of the bundle's scales (R40); 0 without a performed sc.use. -/
def scaleOf (p : Perf) (eA eB : Nat) : Int := (readE p eA).1.toInt + (readE p eB).1.toInt

/-- Accept an array operation (R209, R210, R231): queued, its tile busy and its lake in use; `second` is where the second
stored tile of an mx.mms lies. -/
def acceptOp (p : Perf) (o : ArrayOp) (second : Nat) : Perf :=
  let co := (oldCtx p).core
  let k := getCore p.st (clusterOf p) co
  let k := { k with
    engine := k.engine ++ [o]
    arr := vmod k.arr o.aslot fun a => a.map fun x => { x with inuse := x.inuse + 1 } }
  let p := modWork { p with st := setCore p.st (clusterOf p) co k } fun c => { c with
    tiles := vmod c.tiles o.tile fun x => { x with busy := x.busy + 1 }
    lakes := vmod c.lakes o.lake fun x => { x with inuse := x.inuse + 1 }
    reads := if o.sp then c.reads ++ [⟨logicalCycle p + 1, second, planesRead o.pl, o.tile⟩] else c.reads }
  { p with is := { p.is with mma := true } }

/-- The checks and the start of an operation at issue or at reissue `k` (R212). -/
def mmaStart (p : Perf) (t : Nat) (z sp : Bool) (f : MFmt) (pl : Fin 8) (l base k eA eB : Nat) : Perf :=
  let a0 := planeAddrs f pl base 0
  let a1 := if sp then planeAddrs f pl base 1 else []
  if base % 256 ≠ 0 then raise p .localAlign (BitVec.ofNat 64 base)
  else
    match firstBad p.is.old (a0 ++ a1) with
    | some a => raise p .localBounds (BitVec.ofNat 64 a)
    | none =>
      if !lakeReady p l sp then lakeCheck p l sp k
      else
        let p := readScales (touchPlanes (touchTile p t) (a0 ++ a1)) eA eB
        let co := getCore p.st (clusterOf p) (oldCtx p).core
        let p := if 8 ≤ co.engine.length then freezeOn p .matrix else p
        let p := rowPlanes p a0
        match arraySlot co p.is.old.id p.is.m l with
        | none => p
        | some i =>
          acceptOp p
            { gang := p.is.old.id, member := p.is.m, tile := t, lake := l, z := z, sp := sp, fmt := f, pl := pl,
              x0 := a0.map fun a => localBytes p a 256, x1 := [], scale := scaleOf p eA eB, reissue := k, aslot := i,
              wait := sp, left := 4 * planesRead pl } (base + tileBytes f)

/-- The registers of a performed sc.use before this slot. -/
def scaleRegs (p : Perf) : EReg × EReg := p.is.scale.getD (0, 0)

/-- `mx.mma` and `mx.mms` (R211 to R214), with the repeat of a px.rep (R131): never predicated. -/
def mmaSlot (sp : Bool) (t : TileNo) (z : Bool) (a : AReg) (lake : LakeNo) (f : MFmt) (pl : Fin 8) : Perf → Perf :=
  mUnit (always fun p =>
    let n := p.is.rep
    let (base, p) := readA p a.val
    if n ≠ 0 ∧ sp then violate p
    else
      let e := scaleRegs p
      let dop := 4 * planesRead pl
      let p := mmaStart p t.val z sp f pl lake.val base.toNat 0 e.1.val e.2.val
      let p := holdM p ((n + 1) * dop)
      let r : Repeat :=
        { remaining := n, k := 1, tile := t.val, lake := lake.val, z := z, sp := sp, fmt := f, pl := pl, eA := e.1,
          eB := e.2, areg := a, base := base, dop := dop, due := logicalCycle p + dop }
      if n = 0 then p else modWork p fun c => { c with rep := some r })

/-- `mx.mma.FMT.pN[.z] accT, aA, lake` (R211). -/
def execMxMma (t : TileNo) (z : Bool) (a : AReg) (lake : LakeNo) (f : MFmt) (pl : Fin 8) (s : State) :
    Host.Outcome State Fault Refusal := slotOp s (mmaSlot false t z a lake f pl)

/-- `mx.mms.FMT.pN[.z] accT, aA, lake` (R211). -/
def execMxMms (t : TileNo) (z : Bool) (a : AReg) (lake : LakeNo) (f : MFmt) (pl : Fin 8) (s : State) :
    Host.Outcome State Fault Refusal := slotOp s (mmaSlot true t z a lake f pl)

/-! ### Direct operations (R215, R216) -/

/-- A direct operation on a tile, predicated, holding the M unit `h` cycles. -/
def directSlot (t : TileNo) (h : Nat) (q : QReg) (f : Perf → Perf) : Perf → Perf :=
  mUnit (gated q fun p => f (directTile (holdM p h) t.val))

/-- `mx.clr accT` (R216). -/
def execMxClr (t : TileNo) (q : QReg) (s : State) : Host.Outcome State Fault Refusal :=
  slotOp s (directSlot t 1 q fun p =>
    modWork p fun c => accFill c (accKey t.val 0 0) (List.replicate 2048 0))

/-- Key of the half row an address register names (R216). -/
def halfRow (t : TileNo) (x : Word) (hi : Bool) : Nat := accKey t.val (x.toNat % 16) (if hi then 64 else 0)

/-- `mx.drn[.clr][.hi] accT, aA, vB` (R216). -/
def execMxDrn (t : TileNo) (clr : Bool) (a : AReg) (hi : Bool) (b : VReg) (q : QReg) (s : State) :
    Host.Outcome State Fault Refusal :=
  slotOp s (directSlot t 1 q fun p =>
    let (x, p) := readA p a.val
    let es := accSlice (oldCtx p).acc (halfRow t x hi) 64
    let p := writeV p b.val 4 fullMask (ofLanes fun i => es.getD i 0)
    let p := if clr then modWork p fun c => accFill c (halfRow t x hi) (List.replicate 64 0) else p
    pendStatus p t.val (elemStatus es 0 false))

/-- `mx.fil[.hi] accT, aA, vB` (R216). -/
def execMxFil (t : TileNo) (a : AReg) (hi : Bool) (b : VReg) (q : QReg) (s : State) :
    Host.Outcome State Fault Refusal :=
  slotOp s (directSlot t 1 q fun p =>
    let (x, p) := readA p a.val
    let (v, p) := readV p b.val
    modWork p fun c => accFill c (halfRow t x hi) ((List.range 64).map (lane v)))

/-- Presence, watermark, race check of a range on the MX path. -/
def touchRange (p : Perf) (a n : Nat) (write : Bool) : Perf :=
  let p := checkWatermark (touchSpad p a n) a n
  if write then p else checkRace p a n false false 2

/-- Elements from bytes of scratchpad: FP32, or BF16 widened exactly (R216). -/
def loadElems (bf : Bool) (bs : List Byte) (n : Nat) : List Lane :=
  (List.range n).map fun i =>
    if bf then BitVec.ofNat 32 (widenF32 .bf16 (fieldLe bs (2 * i) 2)) else BitVec.ofNat 32 (fieldLe bs (4 * i) 4)

/-- `mx.ld.FMT accT, aA` (R216): the second 4 KiB of an f32 load is read a cycle later. -/
def execMxLd (t : TileNo) (a : AReg) (bf : Bool) (q : QReg) (s : State) : Host.Outcome State Fault Refusal :=
  slotOp s (directSlot t 2 q fun p =>
    let (x, p) := readA p a.val
    let base := x.toNat
    let n := if bf then 4096 else 8192
    withLocal p base n 256 fun p =>
      let p := needRows (touchRange p base n false) base 4096
      let es := loadElems bf (localBytes p base 4096) (if bf then 2048 else 1024)
      modWork p fun c =>
        let c := accFill c (accKey t.val 0 0) es
        if bf then c else { c with reads := c.reads ++ [⟨logicalCycle p + 1, base + 4096, 0, t.val⟩] })

/-- `mx.tsr accT, sB` (R216). -/
def execMxTsr (t : TileNo) (b : SReg) (q : QReg) (s : State) : Host.Outcome State Fault Refusal :=
  slotOp s (mUnit (gated q fun p =>
    let (v, p) := readKts (holdM p 1) t.val
    writeS p b.val 1 v))

/-- `mx.acp[.add] accT, accB` (R216). -/
def execMxAcp (t : TileNo) (add : Bool) (src : TileNo) (q : QReg) (s : State) : Host.Outcome State Fault Refusal :=
  slotOp s (directSlot t 2 q fun p =>
    let p := directTile p src.val
    let xs := tileElems (oldCtx p) t.val
    let ys := tileElems (oldCtx p) src.val
    modWork p fun c => accFill c (accKey t.val 0 0) (if add then
      (xs.zip ys).map (fun e => BitVec.ofNat 32 (fAdd f32F .rne e.1.toNat e.2.toNat)) else ys))

/-! ### mx.st (R217 to R219) -/

/-- Bytes mx.st writes (R218). -/
def storeLen : StFmt → Nat
  | .f32 => 8192 | .bf16 => 4096 | .t8 => 2048 | .t6 => 2048 | .t8planar => 2048 | .t6planar => 1536
  | .bf16planar => 4096

/-- Magnitude bits of a store's tapered codes; none for f32 and bf16. -/
def storeTaper : StFmt → Option Nat
  | .t8 | .t8planar => some 7
  | .t6 | .t6planar => some 5
  | .f32 | .bf16 | .bf16planar => none

/-- The code mx.st makes of an element (R218). -/
def storeCode (f : StFmt) (out : Bool) (e : Lane) : Nat :=
  match f with
  | .f32 => e.toNat
  | .bf16 | .bf16planar => bf16F.write .rne (f32F.read e.toNat)
  | .t8 | .t8planar => if out then outCode 7 (f32F.read e.toNat) else taperCode 7 (f32F.read e.toNat)
  | .t6 | .t6planar => if out then outCode 5 (f32F.read e.toNat) else taperCode 5 (f32F.read e.toNat)

/-- Width in planes of a planar store; 0 for the row-major layouts. -/
def storePlanes : StFmt → Nat
  | .t8planar => 8 | .t6planar => 6 | .bf16planar => 16
  | .f32 | .bf16 | .t8 | .t6 => 0

/-- Bytes of a row-major code. -/
def storeSize : StFmt → Nat
  | .f32 => 4 | .bf16 => 2
  | .t8 | .t6 | .t8planar | .t6planar | .bf16planar => 1

/-- The planes of codes (R186). -/
def planeBytes (w : Nat) (cs : List Nat) : List Byte :=
  (List.range w).flatMap fun j => (List.range 256).map fun b =>
    BitVec.ofNat 8 (packNat 1 (fun i => (bitAt (cs.getD (8 * b + i) 0) (w - 1 - j)).toNat) 8)

/-- The bytes of codes in a layout (R218). -/
def storeBytes (f : StFmt) (cs : List Nat) : List Byte :=
  if storePlanes f = 0 then cs.flatMap (leBytes (storeSize f)) else planeBytes (storePlanes f) cs

/-- The appends of an OUT-mode store (R219), in element order. -/
def storeApps (f : StFmt) (out : Bool) (due base : Nat) (es : List Lane) : List Held :=
  match storeTaper f with
  | none => []
  | some w => if out then
      ((List.range es.length).zip es).filterMap (fun e =>
        if isOutlier w (f32F.read e.2.toNat) then
          some ⟨due, .app e.1 e.2 f.code base (w = 5), true⟩
        else none)
    else []

/-- `mx.st.FMT[.planar][.out] accT, aA` (R217 to R219): the tile is read at c, the bytes and appends follow at c + 4, and
the second 4 KiB of an f32 store at c + 5. -/
def execMxSt (t : TileNo) (out : Bool) (a : AReg) (f : StFmt) (q : QReg) (s : State) : Host.Outcome State Fault Refusal :=
  slotOp s (directSlot t 1 q fun p =>
    let (x, p) := readA p a.val
    let base := x.toNat
    withLocal p base (storeLen f) 256 fun p =>
      let p := touchRange p base (storeLen f) true
      let p := if out then checkRing p 2048 else p
      let es := tileElems (oldCtx p) t.val
      let bs := storeBytes f (es.map (storeCode f out))
      let apps := storeApps f out (logicalCycle p + 4) base es
      let p := modWork p fun c => { c with held := c.held ++ [⟨logicalCycle p + 4, .bytes base (bs.take 4096), true⟩] ++
        apps ++ (if f = .f32 then [⟨logicalCycle p + 5, .bytes (base + 4096) (bs.drop 4096), true⟩] else []) }
      pendStatus p t.val (elemStatus es apps.length false))

/-! ### mx.cmp (R220, R221) -/

/-- A key that orders the magnitudes of codes, NaN largest, −0 as +0 (R221). -/
def magKey (f : MFmt) (c : Nat) : Nat :=
  match f with
  | .t8 => if c % 256 = 128 then 256 else c % 128
  | .t6 => if c % 64 = 32 then 64 else c % 32
  | .bf16 => if fIsNan bf16F c then 32768 else c % 32768

/-- The position of greatest key, the lowest on a tie, leaving out `skip` (4 leaves out none). -/
def bestPos (ks : List Nat) (skip : Nat) : Nat :=
  (List.range 4).foldl (fun b i => if i ≠ skip ∧ (b = 4 ∨ ks.getD b 0 < ks.getD i 0) then i else b) 4

/-- The kept positions of a column, lower first (R221). -/
def keptPos (f : MFmt) (cs : List Nat) : Nat × Nat :=
  let ks := cs.map (magKey f)
  let a := bestPos ks 4
  let b := bestPos ks a
  (min a b, max a b)

/-- The group record of four dense rows (R220, R221). -/
def groupRecord (f : MFmt) (bs : List Byte) : List Byte :=
  let sz := mfSize f
  let code := fun p n => fieldLe bs (sz * (128 * p + n)) sz
  let kept := fun n => keptPos f ((List.range 4).map fun p => code p n)
  let out := fun c => leBytes sz (if f = .t6 then c % 64 else c)
  let nib := fun n => (kept n).2 * 4 + (kept n).1
  (List.range 128).flatMap (fun n => out (code (kept n).1 n)) ++
  (List.range 128).flatMap (fun n => out (code (kept n).2 n)) ++
  (List.range 64).map fun i => BitVec.ofNat 8 (nib (2 * i) + 16 * nib (2 * i + 1))

/-- `mx.cmp.FMT[.inc] aA, sB` (R221): the record is written at c + 2. -/
def execMxCmp (a : AReg) (inc : Bool) (b : SReg) (f : MFmt) (q : QReg) (s : State) : Host.Outcome State Fault Refusal :=
  slotOp s (mUnit (gated q fun p =>
    let (x, p) := readA (holdM p 1) a.val
    let (y, p) := readS p b.val
    let src := x.toNat
    let dst := y.toNat
    if src % 256 ≠ 0 then raise p .localAlign x
    else if dst % 64 ≠ 0 then raise p .localAlign y
    else withLocal p src (512 * mfSize f) 256 fun p => withLocal p dst (recBytes f) 64 fun p =>
      let p := needRows (touchRange p src (512 * mfSize f) false) src (512 * mfSize f)
      let p := touchRange p dst (recBytes f) true
      let record := groupRecord f (localBytes p src (512 * mfSize f))
      let p := modWork p fun c => { c with held := c.held ++ [⟨logicalCycle p + 2, .bytes dst record, true⟩] }
      if inc then writeA p a.val 1 (x + BitVec.ofNat 64 (512 * mfSize f)) else p))

end Sys2Proof.Machine
end

