-- ==== Sys2Proof/Machine/Scale.lean ====
section
/-! DEFINITION. Scale: the sc operations (R40, R247). -/

namespace Sys2Proof.Machine

/-- Put a scale into the operation this member's bundle has already accepted. -/
def scaleLast (gid m : Nat) (k : Int) : List ArrayOp → List ArrayOp
  | [] => []
  | o :: r =>
    if r.any fun x => x.gang = gid && x.member = m then o :: scaleLast gid m k r
    else if o.gang = gid ∧ o.member = m then { o with scale := k } :: r else o :: r

/-- `sc.use eA, eB` (R40, R247): the scales of the bundle's mx slot, wherever it stands in the bundle. -/
def execScUse (a b : EReg) (q : QReg) (s : State) : Host.Outcome State Fault Refusal :=
  slotOp s (gated q fun p =>
    let (x, p) := readE p a.val
    let (y, p) := readE p b.val
    let p := { p with is := { p.is with scale := some (a, b) } }
    if p.is.mma then
      let co := (oldCtx p).core
      let k := getCore p.st (clusterOf p) co
      let k := { k with engine := scaleLast p.is.old.id p.is.m (x.toInt + y.toInt) k.engine }
      modWork { p with st := setCore p.st (clusterOf p) co k } fun c =>
        { c with rep := if c.rep = (oldCtx p).rep then c.rep else c.rep.map fun r => { r with eA := a, eB := b } }
    else p)

/-- `sc.ld eD, aA, sB` (R247). -/
def execScLd (d : EReg) (a : AReg) (b : SReg) (q : QReg) (s : State) : Host.Outcome State Fault Refusal :=
  slotOp s (gated q fun p =>
    let (x, p) := readA p a.val
    let (y, p) := readS p b.val
    let ea := (x + y).toNat
    withLocal p ea 1 1 fun p =>
      let p := accessLocal p ea 1 false true 0
      writeE p d.val 3 (BitVec.ofNat 8 (leNat (localBytes p ea 1))))

/-- `sc.ldm aA, sB` (R247): byte j to ej for j = 1 to 7. -/
def execScLdm (a : AReg) (b : SReg) (q : QReg) (s : State) : Host.Outcome State Fault Refusal :=
  slotOp s (gated q fun p =>
    let (x, p) := readA p a.val
    let (y, p) := readS p b.val
    let ea := (x + y).toNat
    withLocal p ea 8 8 fun p =>
      let p := accessLocal p ea 8 false true 0
      let bs := localBytes p ea 8
      (List.range 7).foldl (fun p j => writeE p (j + 1) 3 (bs.getD (j + 1) 0)) p)

end Sys2Proof.Machine
end

