-- ==== Sys2Proof/Machine/Image.lean ====
section
/-! DEFINITION. Image: the layouts of a saved image: blocks (R137, R138, R313), the control record (R314, R315, R352), the
lake and channel records (R236, R253), held writes (R318) and the header (R312). -/

namespace Sys2Proof.Machine

/-- Bytes placed at rising offsets, zero between them, `n` in all. -/
def placeBytes (n : Nat) (ps : List (Nat × List Byte)) : List Byte :=
  let r := ps.foldl (fun acc e => acc ++ zeros (e.1 - acc.length) ++ e.2) []
  r ++ zeros (n - r.length)

/-- A list of registers as 8 B each. -/
def wordsBytes (ws : List Word) : List Byte := ws.flatMap fun w => leBytes 8 w.toNat

/-- `n` words from offset `i`. -/
def wordsAt (bs : List Byte) (i n : Nat) : List Word :=
  (List.range n).map fun k => BitVec.ofNat 64 (fieldLe bs (i + 8 * k) 8)

/-- Registers 1 to n − 1 after a constant register 0, from offset `i`. -/
def bankAt (n : Nat) (bs : List Byte) (i first : Nat) (last : Nat) : Vector Word n :=
  Vector.ofFn fun k => if first ≤ k.val ∧ k.val ≤ last then BitVec.ofNat 64 (fieldLe bs (i + 8 * (k.val - first)) 8) else 0

/-- Entries of a register file from `first`, `n` of them. -/
def bankBytes {k : Nat} (v : Vector Word k) (first n : Nat) : List Byte :=
  wordsBytes ((List.range n).map fun j => vget 0 v (first + j))

/-! ### Register blocks -/

/-- Lengths of LAQ, LDQ, VLDQ, SAQ, SDQ and VSDQ. -/
def queueLengths (c : Ctx) : List Nat :=
  [c.laq.length, c.ldq.length, c.vldq.length, c.saq.length, c.sdq.length, c.vsdq.length]

/-- Bytes 496–511 of the scalar block (R137): the ring registers, and the counts `n` of the first five queues. -/
def ringBytes (r : RingRegs) (n : Nat → Nat) : List Byte :=
  leBytes 8 (r.take.toNat * 2 ^ 32 + r.put.toNat) ++
  leBytes 8 (r.full.toNat * 2 ^ 63 + r.base % 2 ^ 20 * 2 ^ 43 + r.cap % 2 ^ 17 * 2 ^ 26 + n 0 * 2 ^ 20 + n 1 * 2 ^ 15 +
    n 2 * 2 ^ 10 + n 3 * 2 ^ 5 + n 4)

/-- The 512 B scalar block of a context (R137). -/
def scalarBlock (c : Ctx) : List Byte :=
  bankBytes c.s 1 30 ++ bankBytes c.a 0 16 ++ bankBytes c.q 1 7 ++
  ((List.range 7).map fun j => vget 0 c.e (j + 1)) ++ [BitVec.ofNat 8 c.vsdq.length] ++ bankBytes c.h 0 8 ++
  ringBytes (ringRegs c) fun i => (queueLengths c).getD i 0

/-- A context with its scalar block as saved. -/
def setScalarBlock (c : Ctx) (bs : List Byte) : Ctx :=
  let w := fieldLe bs 504 8
  { c with
    s := bankAt 32 bs 0 1 30
    a := bankAt 16 bs 240 0 15
    q := bankAt 8 bs 368 1 7
    e := Vector.ofFn fun k => if k.val = 0 then 0 else BitVec.ofNat 8 (fieldLe bs (423 + k.val) 1)
    h := bankAt 8 bs 432 0 7
    oltake := BitVec.ofNat 32 (fieldLe bs 500 4)
    olput := BitVec.ofNat 32 (fieldLe bs 496 4)
    olfull := bitAt w 63
    olbase := bitsOf w 62 43
    olcap := bitsOf w 42 26 }

/-- Vector block `j` of a context, 1 KiB (R138): zero where v31 would stand. -/
def vectorBlock (c : Ctx) (j : Nat) : List Byte :=
  (List.range 4).flatMap fun k => if 4 * j + k = 31 then zeros 256 else vecBytes (vget 0 c.v (4 * j + k))

/-- A context with vector block `j` as saved. -/
def setVectorBlock (c : Ctx) (j : Nat) (bs : List Byte) : Ctx :=
  { c with v := (List.range 4).foldl (fun v k =>
      if 4 * j + k = 31 then v else vset v (4 * j + k) (ofBytes (sliceBytes bs (256 * k) 256))) c.v }

/-- Register block `b`: 0 the scalar block, 1 + j vector block j. -/
def regBlock (c : Ctx) (b : Nat) : List Byte := if b = 0 then scalarBlock c else vectorBlock c (b - 1)

/-- A context with register block `b` as saved. -/
def setRegBlock (c : Ctx) (b : Nat) (bs : List Byte) : Ctx :=
  if b = 0 then setScalarBlock c bs else setVectorBlock c (b - 1) bs

/-- The 8 KiB of a tile, row-major FP32 (R313). -/
def tileData (es : List Lane) : List Byte := es.flatMap fun x => leBytes 4 x.toNat

/-- Elements from the bytes of a tile. -/
def tileFrom (bs : List Byte) : List Lane := (List.range 2048).map fun i => BitVec.ofNat 32 (fieldLe bs (4 * i) 4)

/-! ### The control record (R314, R315, R352) -/

/-- What a register of a file holds. -/
def fileReg (c : Ctx) (f : RFile) (n : Nat) : Vec :=
  match f with
  | .v => vget 0 c.v n
  | .s => ofWord (vget 0 c.s n)
  | .a => ofWord (vget 0 c.a n)
  | .q => ofWord (vget 0 c.q n)
  | .h => ofWord (vget 0 c.h n)
  | .e => (vget 0 c.e n).setWidth 2048
  | .ss => ofWord (vget 0 c.ss n)
  | .sa => ofWord (vget 0 c.sa n)
  | .sq => ofWord (vget 0 c.sq n)

/-- Composite value of an in-flight result: bits it does not write within a lane it touches take what the register holds
before it lands (R315 records whole lanes; DESIGN CHOICE, log entry 11). -/
def composed (c : Ctx) (r : Result) : Vec :=
  let base := fileReg c r.file r.num
  let prior := (c.results.takeWhile fun x => x != r).filter fun x => x.file = r.file && x.num = r.num && decide (x.due ≤ r.due)
  let cur := prior.foldl (fun v x => (v &&& ~~~x.mask) ||| (x.val &&& x.mask)) base
  (cur &&& ~~~r.mask) ||| (r.val &&& r.mask)

/-- FILE of a snapshot entry. -/
def fileCode : RFile → Nat
  | .s => 0 | .a => 1 | .v => 2 | .q => 3 | .e => 4 | .h => 5 | .ss => 6 | .sa => 7 | .sq => 8

/-- The lanes a result writes. -/
def laneBits (m : Vec) : Nat := packNat 1 (fun i => (lane m i != 0).toNat) 64

/-- A snapshot entry (R315). REMAIN is 1 or more: a result due already, which waits for its absent block, shows 1 (DEDUCED,
log entry 56). -/
def snapshotEntry (c : Ctx) (lc : Nat) (r : Result) : List Byte :=
  leBytes 1 (fileCode r.file) ++ leBytes 1 r.num ++ leBytes 2 (max 1 (r.due - lc)) ++ zeros 4 ++
  leBytes 8 (if r.file = .v then laneBits r.mask else 2 ^ 64 - 1) ++ vecBytes (composed c r)

/-- Sixteen snapshot entries. -/
def snapshotBytes (c : Ctx) (lc : Nat) : List Byte :=
  (c.results.flatMap (snapshotEntry c lc)) ++
  (List.replicate (16 - c.results.length) ([BitVec.ofNat 8 255] ++ zeros 271)).flatten

/-- A sequencer level, 64 B (R314). -/
def levelBytes (l : LevelSt) : List Byte :=
  leBytes 1 (l.active.toNat + 2 * l.stop.toNat) ++ leBytes 1 l.strides.length ++ leBytes 2 l.len ++ leBytes 4 l.count ++
  leBytes 4 l.index ++ zeros 4 ++ leBytes 8 l.start ++
  (l.strides.flatMap fun e => leBytes 8 (e.1 % 16 * 2 ^ 60 + e.2.toNat % 2 ^ 48)) ++ zeros (8 * (4 - l.strides.length)) ++ zeros 8

/-- FMT code of a matrix format. -/
def mfCode : MFmt → Nat
  | .t8 => 0 | .t6 => 1 | .bf16 => 2
/-- The matrix format of a code. -/
def mfOf : Nat → MFmt
  | 0 => .t8 | 1 => .t6 | _ => .bf16

/-- The repeat and the M-unit hold, 32 B (R314). -/
def repeatBytes (c : Ctx) (lc : Nat) : List Byte :=
  (match c.rep with
    | none => zeros 24
    | some r => leBytes 1 r.remaining ++ leBytes 1 r.k ++ leBytes 1 r.tile ++ leBytes 1 r.lake ++
        leBytes 1 (r.z.toNat + 2 * r.sp.toNat + 4 * mfCode r.fmt + 32 * r.pl.val) ++ leBytes 1 (r.eA.val + 16 * r.eB.val) ++
        zeros 2 ++ leBytes 8 r.base.toNat ++ leBytes 4 r.dop ++ leBytes 4 (r.due - lc)) ++
  leBytes 4 (c.mFree - lc) ++ zeros 4

/-- Pending tile status entries, 16 B each (R314). -/
def pendBytes (c : Ctx) (lc : Nat) : List Byte :=
  c.pend.flatMap fun e => leBytes 1 e.tile ++ zeros 1 ++ leBytes 2 (e.due - lc) ++ zeros 4 ++ leBytes 8 e.val.toNat

/-- The lake record (R236). -/
def lakeBytes (x : LakeSt) : List Byte :=
  leBytes 8 x.src ++ leBytes 4 x.gen.toNat ++
  leBytes 1 (x.bound.toNat + 2 * x.pinned.toNat + 4 * x.stale.toNat + 8 * x.sparse.toNat + 16 * mfCode x.fmt +
    64 * x.fillErr.isSome.toNat) ++ zeros 3 ++
  leBytes 4 (if x.pinned then x.watch else 0xFFFFFFFF) ++ leBytes 2 x.wdev ++ zeros 10

/-- STATE of a channel in its record. -/
def chCode : ChState → Nat
  | .idle => 0 | .running => 1 | .suspended => 2

/-- An integer as `n` little-endian bytes. -/
def leInt (n : Nat) (i : Int) : List Byte := leBytes n (wrapNat (8 * n) i)

/-- The channel record, 320 B (R253). -/
def chanBytes (c : ChanSt) : List Byte :=
  leBytes 8 c.sbase.toNat ++ leBytes 8 c.dbase.toNat ++
  leBytes 1 (c.sfar.toNat + 2 * c.dfar.toNat + 4 * chCode c.state + 16 * c.irq.toNat + 32 * c.dec.toNat + 64 * c.cwfar.toNat) ++
  zeros 1 ++ leBytes 2 c.size ++ zeros 4 ++ leBytes 8 c.cw ++ leBytes 8 c.fill.toNat ++
  (c.levels.toList.flatMap fun l => leBytes 4 l.count ++ leBytes 1 l.cdim ++ zeros 3 ++ leInt 8 l.sstr ++ leInt 8 l.dstr ++
    leInt 4 l.cstep ++ zeros 4) ++
  (c.coords.toList.flatMap fun d => leInt 4 d.org ++ leBytes 4 d.ext) ++
  (c.index.toList.flatMap fun i => leBytes 4 i) ++ leBytes 2 c.offset ++ zeros 6 ++ leBytes 8 c.wmk

/-- A touch entry, 16 B (R280, R314). -/
def touchBytes (lc : Nat) : Option Touch → List Byte
  | none => zeros 16
  | some e =>
    if lc ≤ e.exp then leBytes 8 e.region ++ leBytes 1 (1 + 2 * e.w.toNat) ++ zeros 1 ++ leBytes 2 (e.exp + 1 - lc) ++ zeros 4
    else zeros 16

/-- The seen table, 8 entries of 16 B; an unused one is 0. -/
def seenBytes (c : Ctx) : List Byte :=
  (c.seen.flatMap fun x => leBytes 2 (x.who / 32 * 128 + x.who / 4 % 8 * 16 + x.who % 4 * 4) ++ leBytes 1 x.epoch ++
    leBytes 1 x.interval ++ leBytes 4 x.age ++ zeros 8) ++ zeros (16 * (8 - c.seen.length))

/-- The trap and service state, from byte 2,944 (R352). -/
def serviceBytes (c : Ctx) : List Byte :=
  wordsBytes [BitVec.ofNat 64 c.mode, c.kcause, c.ktval, c.kepc, c.kuvec, c.kuie, c.kuip, c.kucause, c.kuepc] ++
  leBytes 8 (if c.mode = 0 then 0 else c.hpc) ++ zeros 48 ++
  (if c.mode = 0 then zeros 432 else bankBytes c.ss 1 31 ++ bankBytes c.sa 0 16 ++ bankBytes c.sq 1 7)

/-- The load-address queue, 272 B an entry. -/
def laqBytes (c : Ctx) (lc : Nat) : List Byte :=
  c.laq.flatMap fun e => leBytes 1 (if e.vec then 2 else 1) ++ zeros 1 ++ leBytes 2 (e.arrive - lc) ++
    zeros 12 ++ vecBytes e.data

/-- A member's control record, 32,768 B (R314). -/
def controlRecord (c : Ctx) (lc : Nat) : List Byte :=
  placeBytes 32768
    [(0, leBytes 8 c.pc ++ leBytes 4 c.run ++ leBytes 1 c.phase ++ leBytes 1 c.interval),
     (16, wordsBytes [BitVec.ofNat 64 c.kfdlat, c.kfsr, c.kcfg]),
     (40, seenBytes c),
     (256, c.levels.toList.flatMap levelBytes),
     (640, repeatBytes c lc),
     (768, pendBytes c lc),
     (1024, c.lakes.toList.flatMap lakeBytes),
     (1536, c.chans.toList.flatMap chanBytes),
     (2816, c.touches.toList.flatMap (touchBytes lc)),
     (2944, serviceBytes c),
     (3584, leBytes 8 c.rsArea ++ wordsBytes [c.kfmie, c.kfst]),
     (4096, snapshotBytes c lc),
     (8448, laqBytes c lc),
     (12800, c.ldq.flatMap fun w => leBytes 8 w.toNat ++ zeros 8),
     (13056, c.vldq.flatMap vecBytes),
     (17152, c.saq.flatMap fun e => leBytes 1 (if e.vec then 2 else 1) ++ leBytes 1 e.bytes ++ zeros 6 ++ leBytes 8 e.ea ++
       leBytes 8 e.lanes.toNat),
     (17536, c.sdq.flatMap fun e => leBytes 8 (e.data.toNat % 2 ^ 64) ++ leBytes 2 (e.present - lc) ++ zeros 6),
     (17792, c.vsdq.flatMap fun e => leBytes 2 (e.present - lc) ++ zeros 14 ++ vecBytes e.data)]

/-! ### What an image's layout has no byte for (DESIGN CHOICE, log entry 11) -/

/-- A saved scalar block with the ring registers and queue counts of the member as it is saved again: they are no registers
that a touch makes present, and travel in the block (R35, R137; DEDUCED, log entry 12). -/
def patchScalar (k : KeptCtx) (bs : List Byte) : List Byte :=
  patchBytes (patchBytes bs 431 [BitVec.ofNat 8 (k.counts.getD 5 0)]) 496 (ringBytes k.ring fun i => k.counts.getD i 0)

/-- What a member holds beside its record. -/
def keptCtx (c : Ctx) : KeptCtx where
  halted := c.halted
  hfirst := c.hfirst
  relScope := c.relScope
  relReads := c.relReads
  seen := c.seen
  pend := c.pend
  rep := c.rep
  ivals := c.chans.toList.map fun x => x.ival
  marks := c.results.map fun r => (r.due, r.mask, r.rels)
  counts := queueLengths c
  atomics := c.laq.map fun e => e.atomic
  lives := c.touches.toList.map fun t => match t with
    | none => 0
    | some e => e.live
  lakes := c.lakes.toList.map fun x => (x.fillErr, x.ext)
  ring := ringRegs c
  msgArg := c.msgArg
  cwArg := c.cwArg

/-- What a gang holds beside its image. -/
def keptOf (g : Gang) : Kept := ⟨g.id, g.budget, g.kbudget, g.phaseBad, g.calls, g.members.map keptCtx⟩

/-- Give the snapshot entries their cycles and bits. -/
def keepMarks : List Result → List (Nat × Vec × List RelRead) → List Result
  | r :: rs, m :: ms => { r with due := m.1, mask := m.2.1, rels := m.2.2 } :: keepMarks rs ms
  | rs, _ => rs

/-- A member read from its record, with what it holds beside it. -/
def withKept (k : KeptCtx) (c : Ctx) : Ctx :=
  setRing { c with
    halted := k.halted
    hfirst := k.hfirst
    relScope := k.relScope
    relReads := k.relReads
    seen := k.seen
    pend := k.pend
    rep := k.rep
    chans := Vector.ofFn fun i => { vget {} c.chans i.val with ival := k.ivals.getD i.val 0 }
    results := keepMarks c.results k.marks
    laq := (c.laq.zip k.atomics).map fun e => { e.1 with atomic := e.2 }
    touches := Vector.ofFn fun i => (vget none c.touches i.val).map fun e => { e with live := k.lives.getD i.val 0 }
    lakes := Vector.ofFn fun i =>
      let e := k.lakes.getD i.val (none, false)
      { vget {} c.lakes i.val with fillErr := e.1, ext := e.2 }
    msgArg := k.msgArg
    cwArg := k.cwArg } k.ring

/-- A register of a file code. -/
def fileOf : Nat → RFile
  | 0 => .s | 1 => .a | 2 => .v | 3 => .q | 4 => .e | _ => .h

/-- A snapshot entry read back. -/
def readSnapshot (bs : List Byte) (lc i : Nat) : Option Result :=
  let o := 4096 + 272 * i
  if fieldLe bs o 1 = 255 then none
  else
    let f := fileOf (fieldLe bs o 1)
    let m : Vec := match f with
      | .v => laneMask (BitVec.ofNat 64 (fieldLe bs (o + 8) 8))
      | .e => BitVec.ofNat 2048 255
      | .s | .a | .q | .h | .ss | .sa | .sq => wordMask
    some ⟨lc + fieldLe bs (o + 2) 2, f, fieldLe bs (o + 1) 1, m, ofBytes (sliceBytes bs (o + 16) 256), none, []⟩

/-- A level read back; the loop buffer travels with no image. -/
def readLevel (bs : List Byte) (i : Nat) : LevelSt :=
  let o := 256 + 64 * i
  let fl := fieldLe bs o 1
  { active := bitAt fl 0, stop := bitAt fl 1, len := fieldLe bs (o + 2) 2, count := fieldLe bs (o + 4) 4,
    index := fieldLe bs (o + 8) 4, start := fieldLe bs (o + 16) 8,
    strides := (List.range (min 4 (fieldLe bs (o + 1) 1))).map fun k =>
      let d := fieldLe bs (o + 24 + 8 * k) 8
      (bitsOf d 63 60, wordOfInt (toSigned 48 d)),
    cap := 0 }

/-- The repeat read back; its address register is not in the image. -/
def readRepeat (bs : List Byte) (lc : Nat) : Option Repeat :=
  if fieldLe bs 656 4 = 0 then none
  else
    let b := fieldLe bs 644 1
    some { remaining := fieldLe bs 640 1, k := fieldLe bs 641 1, tile := fieldLe bs 642 1, lake := fieldLe bs 643 1,
           z := bitAt b 0, sp := bitAt b 1, fmt := mfOf (bitsOf b 4 2), pl := Fin.ofNat 8 (b / 32),
           eA := Fin.ofNat 8 (fieldLe bs 645 1 % 16), eB := Fin.ofNat 8 (fieldLe bs 645 1 / 16),
           areg := Fin.ofNat 16 (Config.lostByte lc 0).toNat, base := BitVec.ofNat 64 (fieldLe bs 648 8),
           dop := fieldLe bs 656 4, due := lc + fieldLe bs 660 4 }

/-- A lake slot read back: FILL is NONE (R237). The cause of FILLERR is not in the image. -/
def readLake (bs : List Byte) (lc i : Nat) : LakeSt :=
  let o := 1024 + 32 * i
  let fl := fieldLe bs (o + 12) 1
  { bound := bitAt fl 0, gen := BitVec.ofNat 32 (fieldLe bs (o + 8) 4), src := fieldLe bs o 8, fmt := mfOf (bitsOf fl 5 4),
    sparse := bitAt fl 3, pinned := bitAt fl 1, stale := bitAt fl 2,
    fillErr := if bitAt fl 6 then some (Config.lostByte lc (16 + i)).toNat else none,
    watch := fieldLe bs (o + 16) 4, wdev := fieldLe bs (o + 20) 2 }

/-- A channel read back (R253): RUNNING continues from its cursor. -/
def readChan (bs : List Byte) (lc i : Nat) : ChanSt :=
  let o := 1536 + 320 * i
  let fl := fieldLe bs (o + 16) 1
  { state := if bitsOf fl 3 2 = 1 then .running else if bitsOf fl 3 2 = 2 then .suspended else .idle,
    levels := Vector.ofFn fun j =>
      let l := o + 40 + 32 * j.val
      ⟨fieldLe bs l 4, fieldLe bs (l + 4) 1, toSigned 32 (fieldLe bs (l + 24) 4), toSigned 64 (fieldLe bs (l + 8) 8),
        toSigned 64 (fieldLe bs (l + 16) 8)⟩,
    coords := Vector.ofFn fun d => ⟨toSigned 32 (fieldLe bs (o + 232 + 8 * d.val) 4), fieldLe bs (o + 236 + 8 * d.val) 4⟩,
    fill := BitVec.ofNat 64 (fieldLe bs (o + 32) 8), sbase := BitVec.ofNat 64 (fieldLe bs o 8),
    dbase := BitVec.ofNat 64 (fieldLe bs (o + 8) 8), sfar := bitAt fl 0, dfar := bitAt fl 1, size := fieldLe bs (o + 18) 2,
    irq := bitAt fl 4, dec := bitAt fl 5, cwfar := bitAt fl 6, cw := fieldLe bs (o + 24) 8,
    index := Vector.ofFn fun j => fieldLe bs (o + 280 + 4 * j.val) 4, offset := fieldLe bs (o + 304) 2,
    wmk := fieldLe bs (o + 312) 8, begun := false, ival := (Config.lostByte lc (8 + i)).toNat }

/-- A touch entry read back, still to be walked (R280). -/
def readTouch (bs : List Byte) (lc i : Nat) : Option Touch :=
  let o := 2816 + 16 * i
  let fl := fieldLe bs (o + 8) 1
  if bitAt fl 0 then some ⟨fieldLe bs o 8, 0, bitAt fl 1, 0, lc + fieldLe bs (o + 10) 2 - 1, 0⟩ else none

/-- The seen table read back: an entry of zeros is unused. -/
def readSeen (bs : List Byte) : List Seen :=
  (List.range 8).filterMap fun i =>
    let o := 40 + 16 * i
    let w := fieldLe bs o 2
    if fieldLe bs o 8 = 0 then none
    else some ⟨w / 128 % 64 * 32 + w / 16 % 8 * 4 + w / 4 % 4, fieldLe bs (o + 2) 1, fieldLe bs (o + 3) 1, fieldLe bs (o + 4) 4⟩

/-- Rings pending after a resumption: every ring of the member while PKT is pending (R352). -/
def ringsOf (s : State) (task m : Nat) : List Nat :=
  (s.steers.filter fun t => t.task = task && t.member = some m).map fun t => t.rule

/-- A context read back from its control record, with the counts of its queues in `n` (LAQ, LDQ, VLDQ, SAQ, SDQ, VSDQ);
every presence block starts absent (R326). -/
def readControl (core : Nat) (bs : List Byte) (lc : Nat) (cmap : Nat) (n : Nat → Nat) : Ctx :=
  let mode := bitsOf (fieldLe bs 2944 8) 1 0
  { core := core
    pc := fieldLe bs 0 8
    run := fieldLe bs 8 4
    phase := fieldLe bs 12 1 % 16
    interval := fieldLe bs 13 1
    kfdlat := fieldLe bs 16 8
    kfsr := BitVec.ofNat 64 (fieldLe bs 24 8)
    kcfg := BitVec.ofNat 64 (fieldLe bs 32 8)
    seen := readSeen bs
    levels := Vector.ofFn fun i => readLevel bs i.val
    rep := readRepeat bs lc
    mFree := lc + fieldLe bs 664 4
    pend := (List.range 8).filterMap fun i =>
      let o := 768 + 16 * i
      if fieldLe bs (o + 2) 2 = 0 then none
      else some ⟨fieldLe bs o 1, lc + fieldLe bs (o + 2) 2, BitVec.ofNat 64 (fieldLe bs (o + 8) 8)⟩
    lakes := Vector.ofFn fun i => readLake bs lc i.val
    chans := Vector.ofFn fun i => readChan bs lc i.val
    touches := Vector.ofFn fun i => readTouch bs lc i.val
    mode := mode
    kcause := BitVec.ofNat 64 (fieldLe bs 2952 8)
    ktval := BitVec.ofNat 64 (fieldLe bs 2960 8)
    kepc := BitVec.ofNat 64 (fieldLe bs 2968 8)
    kuvec := BitVec.ofNat 64 (fieldLe bs 2976 8)
    kuie := BitVec.ofNat 64 (fieldLe bs 2984 8)
    kuip := BitVec.ofNat 64 (fieldLe bs 2992 8)
    kucause := BitVec.ofNat 64 (fieldLe bs 3000 8)
    kuepc := BitVec.ofNat 64 (fieldLe bs 3008 8)
    hpc := fieldLe bs 3016 8
    msgArg := (Config.lostByte lc 1).toNat
    cwArg := (Config.lostByte lc 2).toNat
    ss := bankAt 32 bs 3072 1 31
    sa := bankAt 16 bs 3320 0 15
    sq := bankAt 8 bs 3448 1 7
    rsArea := fieldLe bs 3584 8
    kfmie := BitVec.ofNat 64 (fieldLe bs 3592 8)
    kfst := BitVec.ofNat 64 (fieldLe bs 3600 8)
    results := (List.range 16).filterMap (readSnapshot bs lc)
    laq := (List.range (n 0)).map fun i =>
      let o := 8448 + 272 * i
      ⟨decide (fieldLe bs o 1 = 2), lc + fieldLe bs (o + 2) 2, ofBytes (sliceBytes bs (o + 16) 256), false⟩
    ldq := (List.range (n 1)).map fun i => BitVec.ofNat 64 (fieldLe bs (12800 + 16 * i) 8)
    vldq := (List.range (n 2)).map fun i => ofBytes (sliceBytes bs (13056 + 256 * i) 256)
    saq := (List.range (n 3)).map fun i =>
      let o := 17152 + 24 * i
      ⟨decide (fieldLe bs o 1 = 2), if fieldLe bs o 1 = 2 then 256 else fieldLe bs (o + 1) 1, fieldLe bs (o + 8) 8,
        BitVec.ofNat 64 (fieldLe bs (o + 16) 8)⟩
    sdq := (List.range (n 4)).map fun i =>
      let o := 17536 + 16 * i
      ⟨lc + fieldLe bs (o + 8) 2, ofWord (BitVec.ofNat 64 (fieldLe bs o 8))⟩
    vsdq := (List.range (n 5)).map fun i =>
      let o := 17792 + 272 * i
      ⟨lc + fieldLe bs o 2, ofBytes (sliceBytes bs (o + 16) 256)⟩
    presS := false
    presV := Vector.replicate 8 false
    touchS := bitAt cmap 0
    touchV := Vector.ofFn fun j => bitAt cmap (1 + j.val)
    tiles := Vector.ofFn fun t => { touched := bitAt cmap (9 + t.val), pres := false } }

/-! ### Held writes (R318) -/

/-- A held write's entry, a multiple of 8 B. REMAIN counts from LCOUNT, the cycle of the bundle that issues next, so that a
write due at LCOUNT itself, of a gang that freezes before that bundle, has REMAIN 0, which R318's range 1 to 5 leaves out
(DESIGN CHOICE, log entry 129). -/
def heldBytes (lc : Nat) (h : Held) : List Byte :=
  match h.kind with
  | .bytes a d => leBytes 2 (h.due - lc) ++ leBytes 1 1 ++ zeros 1 ++ leBytes 4 d.length ++ leBytes 8 a ++ d ++
      zeros ((8 - d.length % 8) % 8)
  | .app i src tgt base t6 => leBytes 2 (h.due - lc) ++ leBytes 1 2 ++ zeros 1 ++ leBytes 4 16 ++ leBytes 8 base ++
      leBytes 4 i ++ leBytes 4 src.toNat ++ leBytes 1 tgt ++ leBytes 1 t6.toNat ++ leBytes 1 src.msb.toNat ++ zeros 5

/-- Held writes of one cycle in the order in which they are performed: matrix stores before vector conversions (R37, R185). -/
def cycleHeld (hs : List Held) : List Held := hs.filter (fun h => h.mx) ++ hs.filter fun h => !h.mx

/-- Held writes in the order in which they are performed. -/
def heldOrder (lc : Nat) (hs : List Held) : List Held :=
  (List.range 8).flatMap fun k => cycleHeld (hs.filter fun h => h.due - lc = k)

/-- A held-write group. -/
def heldGroup (lc : Nat) (hs : List Held) : List Byte :=
  leBytes 4 hs.length ++ zeros 12 ++ (heldOrder lc hs).flatMap (heldBytes lc)

/-- Held writes read back, `n` of them. -/
def readHeld (lc : Nat) : Nat → List Byte → List Held
  | 0, _ => []
  | n + 1, bs =>
    let due := lc + fieldLe bs 0 2
    if fieldLe bs 2 1 = 1 then
      let len := fieldLe bs 4 4
      ⟨due, .bytes (fieldLe bs 8 8) (sliceBytes bs 16 len), true⟩ :: readHeld lc n (bs.drop (16 + (len + 7) / 8 * 8))
    else
      let tgt := fieldLe bs 24 1
      ⟨due, .app (fieldLe bs 16 4) (BitVec.ofNat 32 (fieldLe bs 20 4)) tgt (fieldLe bs 8 8) (decide (fieldLe bs 25 1 = 1)),
        decide (tgt < 128)⟩ :: readHeld lc n (bs.drop 32)

/-! ### The header (R312, R313) -/

/-- MAGIC of an image. -/
def imgMagic : Nat := 0x31474D49

/-- A field of an image's header, in device memory. -/
def hdrNat (s : State) (ibase off n : Nat) : Nat := physNat s (ibase + off) n

/-- Write a field of an image's header. -/
def hdrPut (s : State) (ibase off n x : Nat) : State := physWrite s (ibase + off) (leBytes n x)

/-- Offset of a group's location entry: 0 the scratchpad group; 1 + 4m + k the group of KIND k + 1 of member m. -/
def locOff (kind m : Nat) : Nat :=
  if kind = 5 then 256 else if kind = 6 then 784 + 16 * m else 256 + 16 * (1 + 4 * m + (kind - 1))

/-- Bytes of a group (R313). -/
def groupSize (spad : Nat) : Nat → Nat
  | 1 => 32768 | 2 => 4096 | 3 => 8192 | 4 => 135168 | 5 => spad | _ => 393216

/-- A location entry. -/
def locBytes (dev kind addr : Nat) : List Byte := leBytes 2 dev ++ leBytes 1 kind ++ leBytes 1 1 ++ zeros 4 ++ leBytes 8 addr

/-- Offset of a block within its group, and its length. -/
def blockPlace (kind idx : Nat) : Nat × Nat :=
  if kind = 2 then (0, 512) else if kind = 3 then (1024 * idx, 1024) else if kind = 4 then (8192 * idx, 8192)
  else (4096 * idx, 4096)

/-- A bit of a map in the header: CMAP and WMAP by member (80, 112), SPCMAP and SPWMAP (1,024 + …). -/
def mapBit (s : State) (ibase : Nat) (w : Bool) (kind m idx : Nat) : Bool :=
  if kind = 5 then bitAt (hdrNat s ibase ((if w then 1536 else 1280) + idx / 8) 1) (idx % 8)
  else
    let b := if kind = 2 then 0 else if kind = 3 then 1 + idx else 9 + idx
    bitAt (hdrNat s ibase ((if w then 112 else 80) + 4 * m) 4) b

/-- Set a bit of WMAP or SPWMAP. -/
def setMapBit (s : State) (ibase kind m idx : Nat) : State :=
  if kind = 5 then
    let o := 1536 + idx / 8
    hdrPut s ibase o 1 (Nat.lor (hdrNat s ibase o 1) (2 ^ (idx % 8)))
  else
    let b := if kind = 2 then 0 else if kind = 3 then 1 + idx else 9 + idx
    let o := 112 + 4 * m
    hdrPut s ibase o 4 (Nat.lor (hdrNat s ibase o 4) (2 ^ b))

/-- The failures of a save allocation: pool full, outside protected memory, or a translation cause (R323, R462). -/
inductive SaveFail where
  | full
  | protect
  | xlat (cause va : Nat)
deriving DecidableEq, Repr

/-- Is every byte of a range in protected memory? -/
def protectedRange (s : State) (rs : List (Nat × Nat)) : Bool :=
  rs.all fun r => isProtected s r.1 && isProtected s (r.1 + r.2 - 1)

/-- Check that a group at `va` of the save area can be written. -/
def saveSpace (s : State) (sdesc va n : Nat) (conf : Bool) : Except SaveFail Unit :=
  match xlatRange s sdesc va n true with
  | .error c => .error (.xlat c va)
  | .ok rs => if conf && !protectedRange s rs then .error .protect else .ok ()

/-- Allocate a group of an image whose header lies at `ibase` (R319): the state with its location entry, and its
address. -/
def allocGroup (s : State) (ibase kind m : Nat) : Except SaveFail (State × Nat) :=
  let sdesc := hdrNat s ibase 24 8
  let used := hdrNat s ibase 64 8
  let size := (groupSize (hdrNat s ibase (1024 + 16) 8) kind + 4095) / 4096 * 4096
  let va := hdrNat s ibase 48 8 + used
  if hdrNat s ibase 56 8 < used + size then .error .full
  else
    match saveSpace s sdesc va size (bitAt (hdrNat s ibase 32 1) 1) with
    | .error f => .error f
    | .ok _ =>
      let s := physWrite s (ibase + locOff kind m) (locBytes s.devId kind va)
      .ok (hdrPut s ibase 64 8 (used + size), va)

/-- The location of a group, allocated when its first block is written. -/
def groupFor (s : State) (ibase kind m : Nat) : Except SaveFail (State × Nat) :=
  if bitAt (hdrNat s ibase (locOff kind m + 3) 1) 0 then .ok (s, hdrNat s ibase (locOff kind m + 8) 8)
  else allocGroup s ibase kind m

/-- Write one block of an image to its location and set its bit (R321). -/
def writeBlock (s : State) (ibase kind m idx : Nat) (bs : List Byte) (kts : Nat) : Except SaveFail State :=
  match groupFor s ibase kind m with
  | .error f => .error f
  | .ok (s, va) =>
    let sdesc := hdrNat s ibase 24 8
    let at_ := va + (blockPlace kind idx).1
    match saveSpace s sdesc at_ bs.length (bitAt (hdrNat s ibase 32 1) 1) with
    | .error f => .error f
    | .ok _ =>
      match farWriteExt s sdesc at_ bs with
      | .error c => .error (.xlat c at_)
      | .ok s =>
        if kind = 4 then
          (match farWriteExt s sdesc (va + 131072 + 8 * idx) (leBytes 8 kts) with
            | .error c => .error (.xlat c (va + 131072 + 8 * idx))
            | .ok s => .ok (setMapBit s ibase kind m idx))
        else .ok (setMapBit s ibase kind m idx)

/-- ORIGIN of an image (R312). -/
def imgOrigin (s : State) (ib : Nat) : Nat := hdrNat s ib 36 2 % 32768

/-- How this device reads a location of an image that lies on it: under SDESC where it is ORIGIN, else by physical address
(R313). -/
def locDesc (s : State) (ib : Nat) : Option Nat := if imgOrigin s ib = s.devId then some (hdrNat s ib 24 8) else none

/-- The physical address of a location. -/
def locPa (s : State) (desc : Option Nat) (a : Nat) : Except Nat Nat :=
  match desc with
  | none => if hasTarget s a then .ok a else .error causeTable
  | some d =>
    match translate s d a with
    | .error c => .error c
    | .ok t => .ok t.pa

/-- Read bytes of a location: the bytes, or the cause. -/
def locRead (s : State) (desc : Option Nat) (a n : Nat) : Except Nat (List Byte) :=
  match desc with
  | some d => cleanRead s d a n
  | none =>
    match locPa s desc a with
    | .error c => .error c
    | .ok pa => if badRange s [(pa, n)] then .error causeUncorr else .ok (physReads s [(pa, n)])

/-- Read one block of a group at `va`: the bytes, and a tile's status; or the cause and the address. -/
def readCopy (s : State) (desc : Option Nat) (va kind idx : Nat) : Except (Nat × Nat) (List Byte × Nat) :=
  let at_ := va + (blockPlace kind idx).1
  match locRead s desc at_ (blockPlace kind idx).2 with
  | .error c => .error (c, at_)
  | .ok bs =>
    if kind = 4 then
      (match locRead s desc (va + 131072 + 8 * idx) 8 with
        | .error c => .error (c, va + 131072 + 8 * idx)
        | .ok k => .ok (bs, leNat k))
    else .ok (bs, 0)

/-- Read one block of an image from its location (R327). -/
def readBlock (s : State) (ibase kind m idx : Nat) : Except (Nat × Nat) (List Byte × Nat) :=
  readCopy s (locDesc s ibase) (hdrNat s ibase (locOff kind m + 8) 8) kind idx

end Sys2Proof.Machine
end

