-- ==== Sys2Proof/Machine/March.lean ====
section
/-! DEFINITION. March: the march test task that Sienna launches on every cluster (R447, R448), as the worked program of R449
lists it, and the reading of its results (R449). -/

namespace Sys2Proof.Machine

/-- NROW of the test task: the worked program's 3 (DESIGN CHOICE, log entry 18). -/
def marchRows : Nat := 3

/-- Address of the results area. -/
def marchRes : Nat := 4096 * marchRows

/-- A 16-bit immediate of the program. -/
def mimm (n : Nat) : BitVec 16 := BitVec.ofNat 16 n

/-- The bundles before the loops (lines 23 to 50 of the listing). -/
def marchHead : List (List Instr) :=
  [[.trCsrr 1 0x010],
   [.siLi 2 7],
   [.sxAnd 3 1 2 .i64 0],
   [.siLi 4 9],
   [.sxShl 5 3 4 .i64 0],
   [.siLi 6 (mimm (marchRes + 0x40)), .adMov 1 5 0],
   [.sxAdd 7 5 6 .i64 0],
   [.siLi 8 (mimm marchRes), .adMov 2 7 0],
   [.siLi 10 (mimm (marchRes + 8)), .adMov 3 8 0],
   [.siIh1 12 1, .adMov 4 10 0],
   [.sxShl 9 12 3 .i64 0],
   [.siLi 20 256],
   [.siLi 21 4],
   [.siLi 22 1],
   [.siAddi 24 0xFFFF],
   [.siIh1 29 0x8000],
   [.siLi 25 (mimm marchRows)],
   [.siLi 23 3],
   [.siLi 26 0x1000],
   [.siIh3 26 0x1000],
   [.siLi 13 0x5555, .brLvl 25 26 0],
   [.siIh1 13 0x5555, .brLvl 23 0 1]]

/-- The loops: three passes over the rows (lines 51 to 85). -/
def marchLoops : List (List Instr) :=
  [[.vxBcast 2 13 .i32 0],
   [.vxNot 7 2 0, .brLoop 1 22],
   [.brLoop 0 20],
   [.adVld 3 false 1 0 0, .adVld 4 false 1 20 0],
   [.adGet 15 1 0],
   [.sxAdd 16 15 20 .i64 0],
   [.sxOr 15 15 29 .i64 0],
   [.sxOr 16 16 29 .i64 0],
   [.sxNop],
   [.vxXor 5 3 1 0, .vxXor 6 4 1 0],
   [.vxRadd 17 5 .n32 0, .vxRadd 18 6 .n32 0, .adVst 2 false 1 0 0, .adVst 2 false 1 20 0],
   [.sxNop],
   [.sxNop],
   [.sxNop],
   [.sxNop],
   [.sxNop],
   [.sxNop],
   [.sxNop],
   [.sxClt 14 0 17 .n64 0],
   [.sxQset 1 14 .i32 0],
   [.sxClt 19 0 18 .n64 0, .adSt 15 true 2 21 .b32 1, .adAadd 0 3 22 .rlx false 1],
   [.sxQset 2 19 .i32 0],
   [.adSt 16 true 2 21 .b32 2, .adAadd 0 3 22 .rlx false 2],
   [.vxMov 1 2 0, .vxMov 2 7 0, .adMov 1 5 0]]

/-- The report (lines 86 to 92). -/
def marchTail : List (List Instr) :=
  [[.adAor 0 3 9 .rel false 0, .adAadd 0 4 24 .rel true 0, .brBnz 3 16],
   [.syWait 10 .gang 0],
   [.adAor 27 3 29 .rel false 0],
   [.trHalt 0],
   [.trHalt 0]]

/-- Words of a bundle: padded to four slots, the last with the stop bit (R76). -/
def bundleWordsOf (is : List Instr) : List Nat :=
  let ws := is.map fun i => (encode i).getD 0
  let ws := ws ++ List.replicate (4 - ws.length) 0
  ws.dropLast ++ [ws.getLastD 0 + 2 ^ 31]

/-- The instruction segment of the test task. -/
def marchCode : List Byte := ((marchHead ++ marchLoops ++ marchTail).flatMap bundleWordsOf).flatMap fun w => leBytes 4 w

/-- The task record of the test task: a gang of 8, every member entering at 0, with the budget of the listing. -/
def marchRecord : List Byte :=
  placeBytes 256 [(4, leBytes 1 8 ++ leBytes 1 1 ++ leBytes 2 64 ++ leBytes 8 0 ++ leBytes 8 (marchRes + 4096))]

/-- Its scratchpad image: REMAIN is 8, every other byte 0. -/
def marchSpad : List Byte := placeBytes (marchRes + 4096) [(marchRes + 8, leBytes 8 8)]

/-- Image id of the test task, outside the ids of loaded images. -/
def marchId : Nat := 2 ^ 32

/-! ### Results (R447, R449) -/

/-- A 32-bit word of the results area. -/
def marchWord (s : State) (cl off : Nat) : Nat := leNat (spadReads s cl (marchRes + off) 4)

/-- The VALID records of the eight lists: quad and row. -/
def marchRecords (s : State) (cl : Nat) : List (Nat × Nat) :=
  (List.range 8).flatMap fun m => (List.range 112).filterMap fun i =>
    let w := marchWord s cl (0x40 + 512 * m + 4 * i)
    if bitAt w 31 then some (bitsOf w 11 8, bitsOf w 22 12) else none

/-- Is a run valid? -/
def marchValid (s : State) (cl : Nat) : Bool :=
  let w := marchWord s cl 0
  bitAt w 31 && decide (bitsOf w 23 16 = 0xFF) && decide ((marchRecords s cl).length = bitsOf w 15 0)

/-! ### Repairs (R445) -/

/-- The stored repair table of a cluster: 128 entries. -/
def repairTable (s : State) (cl : Nat) : List Nat :=
  let t := mapGet [] s.ochre.repair cl
  t ++ List.replicate (128 - t.length) 0

/-- Replace a cluster's table. -/
def setRepair (s : State) (cl : Nat) (t : List Nat) : State :=
  { s with ochre := { s.ochre with repair := mapSet [] s.ochre.repair cl t } }

/-- The entries of a quad. -/
def quadEntries (t : List Nat) (q : Nat) : List Nat := (t.drop (8 * q)).take 8

/-- Give a row of a quad its lowest free spare, unless it is repaired already; none where no spare is free. -/
def repairRow (t : List Nat) (e : Nat × Nat) : Option (List Nat) :=
  if (quadEntries t e.1).contains (0x8000 + e.2) then some t
  else ((List.range 8).find? fun i => !bitAt (t.getD (8 * e.1 + i) 0) 15).map fun i => t.set (8 * e.1 + i) (0x8000 + e.2)

/-- Repair every failing row of a run. -/
def repairAll : List (Nat × Nat) → List Nat → Option (List Nat)
  | [], t => some t
  | e :: r, t =>
    match repairRow t e with
    | none => none
    | some t => repairAll r t

end Sys2Proof.Machine
end

