-- ==== Sys2Proof/Machine/Layout.lean ====
section
/-! DEFINITION. Layout: layout records (R97), the boxes of their positions, and the pieces and steps of a share (R416 to
R418, R421). -/

namespace Sys2Proof.Machine

/-- A layout record: rank, element size, extents, map (none: not sharded), mesh extents, and each position's device and
base. -/
structure Layout where
  rank : Nat
  esize : Nat
  ext : List Nat
  map : List (Option Nat)
  mesh : List Nat
  devs : List (Nat × Nat)
deriving DecidableEq, Repr

/-- The product of a list. -/
def product (l : List Nat) : Nat := l.foldl (· * ·) 1

/-- NDEV of a record's first 88 bytes. -/
def layoutDevs (h : List Byte) : Nat := fieldLe h 72 4

/-- The fixed fields of a record keep R97. -/
def layoutHeadOk (h : List Byte) : Bool :=
  let rank := fieldLe h 2 1
  let mrank := fieldLe h 4 1
  let mesh := fun k => fieldLe h (64 + 2 * k) 2
  decide (fieldLe h 0 2 = 1) && decide (1 ≤ rank) && decide (rank ≤ 6) && [1, 2, 4].contains (fieldLe h 3 1) &&
  decide (1 ≤ mrank) && decide (mrank ≤ 4) && decide (fieldLe h 5 3 = 0) && decide (fieldLe h 62 2 = 0) &&
  decide (fieldLe h 76 12 = 0) &&
  ((List.range 6).all fun d =>
    let e := fieldLe h (8 + 8 * d) 8
    let m := fieldLe h (56 + d) 1
    if d < rank then decide (m = 255) || (decide (m < mrank) && decide (mesh m ≠ 0) && decide (e % mesh m = 0))
    else decide (e = 0) && decide (m = 255)) &&
  ((List.range 4).all fun k => decide (k < mrank) || decide (mesh k = 1)) &&
  decide (layoutDevs h = product ((List.range 4).map mesh)) && decide (layoutDevs h ≤ 16416)

/-- The entries of the mesh positions keep R97. -/
def layoutPosOk (b : List Byte) (n : Nat) : Bool :=
  (List.range n).all fun j => decide (fieldLe b (16 * j) 2 < 32768) && decide (fieldLe b (16 * j + 2) 6 = 0)

/-- No mesh dimension shards two tensor dimensions (R89). -/
def layoutOnce (h : List Byte) : Bool :=
  let ms := (List.range (fieldLe h 2 1)).map fun d => fieldLe h (56 + d) 1
  decide ((ms.filter (· ≠ 255)).Nodup)

/-- The record of its two parts. -/
def decodeLayout (h b : List Byte) : Layout where
  rank := fieldLe h 2 1
  esize := fieldLe h 3 1
  ext := (List.range (fieldLe h 2 1)).map fun d => fieldLe h (8 + 8 * d) 8
  map := (List.range (fieldLe h 2 1)).map fun d =>
    let m := fieldLe h (56 + d) 1
    if m = 255 then none else some m
  mesh := (List.range (fieldLe h 4 1)).map fun k => fieldLe h (64 + 2 * k) 2
  devs := (List.range (layoutDevs h)).map fun j => (fieldLe b (16 * j) 2, fieldLe b (16 * j + 8) 8)

/-- Read a record in far memory; none where it cannot be read or breaks R97, 8 B alignment included. -/
def readLayout (s : State) (desc va : Nat) : Option Layout :=
  match cleanRead s desc va 88 with
  | .error _ => none
  | .ok h =>
    if decide (va % 8 ≠ 0) || !layoutHeadOk h then none
    else
      match cleanRead s desc (va + 88) (16 * layoutDevs h) with
      | .error _ => none
      | .ok b => if layoutPosOk b (layoutDevs h) then some (decodeLayout h b) else none

/-- Coordinate `m` of position `j`: row-major, the last mesh dimension fastest. -/
def meshCoord (mesh : List Nat) (j m : Nat) : Nat := j / product (mesh.drop (m + 1)) % mesh.getD m 1

/-- The box of a position: first index and count along each tensor dimension. -/
def boxOf (l : Layout) (j : Nat) : List (Nat × Nat) :=
  (l.ext.zip l.map).map fun e => match e.2 with
    | none => (0, e.1)
    | some m =>
      let k := e.1 / l.mesh.getD m 1
      (meshCoord l.mesh j m * k, k)

/-- The intersection of two boxes; none where they do not meet. -/
def boxMeet (a b : List (Nat × Nat)) : Option (List (Nat × Nat)) :=
  let r := (a.zip b).map fun e =>
    let lo := max e.1.1 e.2.1
    (lo, min (e.1.1 + e.1.2) (e.2.1 + e.2.2) - lo)
  if r.any fun x => x.2 = 0 then none else some r

/-- Row-major offset of an index in a shard. -/
def rowMajor : List Nat → List Nat → List Nat → Nat → Nat
  | x :: xs, lo :: los, n :: ns, acc => rowMajor xs los ns (acc * n + (x - lo))
  | _, _, _, acc => acc

/-- Address of an element in a shard (R418). -/
def shardAddr (base esize : Nat) (slo sext x : List Nat) : Nat := (base + esize * rowMajor x slo sext 0) % 2 ^ 64

/-- Does a device hold a position, and which? -/
def posOf (l : Layout) (dev : Nat) : Option Nat := l.devs.findIdx? fun e => e.1 = dev

/-- The pieces of device `dev`'s share (R417), position by position. -/
def piecesFrom (src dst : Layout) (q : Nat) : List Nat → List (List (Nat × Nat)) → List Piece
  | [], _ => []
  | j :: r, seen =>
    let box := boxOf src j
    if seen.contains box then piecesFrom src dst q r seen
    else
      match boxMeet box (boxOf dst q) with
      | none => piecesFrom src dst q r (box :: seen)
      | some c =>
        let lo := c.map (·.1)
        let cnt := c.map (·.2)
        let slo := box.map (·.1)
        let sext := box.map (·.2)
        let dlo := (boxOf dst q).map (·.1)
        let dext := (boxOf dst q).map (·.2)
        let s := src.devs.getD j (0, 0)
        let dbase := (dst.devs.getD q (0, 0)).2
        { sdev := s.1, spos := j, saddr := shardAddr s.2 src.esize slo sext lo,
          daddr := shardAddr dbase src.esize dlo dext lo, nrow := product cnt.dropLast, lo := lo, cnt := cnt,
          sbase := s.2, sext := sext, slo := slo, dbase := dbase, dext := dext, dlo := dlo, esize := src.esize } ::
          piecesFrom src dst q r (box :: seen)

/-- The pieces of a device's share. -/
def piecesOf (src dst : Layout) (dev : Nat) : List Piece :=
  match posOf dst dev with
  | none => []
  | some q => piecesFrom src dst q (List.range src.devs.length) []

/-- The index of the first element of row `r` of a piece (R418). -/
def rowIndex (lo cnt : List Nat) (r : Nat) : List Nat :=
  (List.range lo.length).map fun d =>
    if d + 1 = lo.length then lo.getD d 0
    else lo.getD d 0 + r / product ((cnt.dropLast).drop (d + 1)) % cnt.getD d 1

/-- Source address of row `r`. -/
def rowSrc (p : Piece) (r : Nat) : Nat := shardAddr p.sbase p.esize p.slo p.sext (rowIndex p.lo p.cnt r)
/-- Destination address of row `r`. -/
def rowDst (p : Piece) (r : Nat) : Nat := shardAddr p.dbase p.esize p.dlo p.dext (rowIndex p.lo p.cnt r)
/-- Bytes of a row. -/
def rowLen (p : Piece) : Nat := p.esize * p.cnt.getLastD 0

/-- Length of the step at byte `off` of row `r` (R418). -/
def stepLen (p : Piece) (r off : Nat) : Nat :=
  min (rowLen p - off) (min (4096 - (rowSrc p r + off) % 4096) (4096 - (rowDst p r + off) % 4096))

/-- Page boundaries strictly inside `n` bytes at `a`. -/
def cuts (a n : Nat) : Nat := if n = 0 then 0 else (a + n - 1) / 4096 - a / 4096

/-- Steps of row `r`. -/
def rowSteps (p : Piece) (r : Nat) : Nat :=
  let n := rowLen p
  let a := rowSrc p r
  let b := rowDst p r
  if n = 0 then 0 else if a % 4096 = b % 4096 then 1 + cuts a n else 1 + cuts a n + cuts b n

/-- Steps of a share. -/
def shareSteps (ps : List Piece) : Nat :=
  ps.foldl (fun t p => (List.range p.nrow).foldl (fun t r => t + rowSteps p r) t) 0

/-- Six numbers of 8 B, 0 beyond the rank. -/
def six (l : List Nat) : List Byte := (List.range 6).flatMap fun d => leBytes 8 (l.getD d 0)

/-- A piece's entry in the plan area (R421). -/
def pieceBytes (p : Piece) : List Byte :=
  leBytes 2 p.sdev ++ zeros 2 ++ leBytes 4 p.spos ++ leBytes 8 p.saddr ++ leBytes 8 p.daddr ++ leBytes 8 p.nrow ++ six p.lo ++
  six p.cnt

/-- Does a source shard of this device meet its destination shard (R424)? -/
def sharesOverlap (src dst : Layout) (dev : Nat) : Bool :=
  match posOf dst dev with
  | none => false
  | some q =>
    let size := fun (l : Layout) j => l.esize * product ((boxOf l j).map (·.2))
    (List.range src.devs.length).any fun j =>
      let e := src.devs.getD j (0, 0)
      decide (e.1 = dev) && rangesMeet e.2 (size src j) (dst.devs.getD q (0, 0)).2 (size dst q)

end Sys2Proof.Machine
end

