-- ==== Sys2Proof/Machine/Immediate.lean ====
section
/-! DEFINITION. Immediate: the si operations (R150). -/

namespace Sys2Proof.Machine

/-- An si operation that reads its register (R150). -/
def immOp (op : Nat → Nat → Nat) (d : SReg) (k : BitVec 16) (p : Perf) : Perf :=
  let (x, p) := readS p d.val
  writeS p d.val 1 (BitVec.ofNat 64 (op x.toNat k.toNat))

/-- Bits l+15 to l of a word replaced by k. -/
def setHalf (l x k : Nat) : Nat := x / 2 ^ (l + 16) * 2 ^ (l + 16) + k * 2 ^ l + x % 2 ^ l

/-- SignExtend(k, 16) as a 64-bit pattern (R73). -/
def sext16 (k : Nat) : Nat := wrapNat 64 (toSigned 16 k)

/-- `si.li` (R150): does not read its register. -/
def execSiLi (d : SReg) (k : BitVec 16) (s : State) : Host.Outcome State Fault Refusal :=
  slotOp s (always fun p => writeS p d.val 1 (BitVec.ofNat 64 k.toNat))

/-- `si.ih1` (R150). -/
def execSiIh1 (d : SReg) (k : BitVec 16) (s : State) : Host.Outcome State Fault Refusal :=
  slotOp s (always (immOp (setHalf 16) d k))

/-- `si.ih2` (R150). -/
def execSiIh2 (d : SReg) (k : BitVec 16) (s : State) : Host.Outcome State Fault Refusal :=
  slotOp s (always (immOp (setHalf 32) d k))

/-- `si.ih3` (R150). -/
def execSiIh3 (d : SReg) (k : BitVec 16) (s : State) : Host.Outcome State Fault Refusal :=
  slotOp s (always (immOp (setHalf 48) d k))

/-- `si.addi` (R150). -/
def execSiAddi (d : SReg) (k : BitVec 16) (s : State) : Host.Outcome State Fault Refusal :=
  slotOp s (always (immOp (fun x k => x + sext16 k) d k))

/-- `si.ori` (R150). -/
def execSiOri (d : SReg) (k : BitVec 16) (s : State) : Host.Outcome State Fault Refusal :=
  slotOp s (always (immOp (fun x k => Nat.lor x k) d k))

/-- `si.ceqi` (R150). -/
def execSiCeqi (d : SReg) (k : BitVec 16) (s : State) : Host.Outcome State Fault Refusal :=
  slotOp s (always (immOp (fun x k => (x == sext16 k).toNat) d k))

/-- `si.clti` (R150). -/
def execSiClti (d : SReg) (k : BitVec 16) (s : State) : Host.Outcome State Fault Refusal :=
  slotOp s (always (immOp (fun x k => (decide (toSigned 64 x < toSigned 16 k)).toNat) d k))

end Sys2Proof.Machine
end

