-- ==== Sys2Proof/Machine/Bundle.lean ====
section
/-! DEFINITION. Bundle: what the rules of bundles need to know of each slot: its unit (R50), its write set (R55), and
the registers a handler bundle names (R337). -/

namespace Sys2Proof.Machine

/-- An issue unit (R50); A0 and A1, V0 and V1 count together (R51). -/
inductive IUnit where
  | s | b | a | v | m | c | f | e | none
deriving DecidableEq, Repr

/-- The file of a register in a write set (R55); `k` is a control register. -/
inductive WFile where
  | s | a | v | q | e | k
deriving DecidableEq, Repr

/-- The unit of each slot (R50). -/
def unitOf : Instr → IUnit
  | .sxNop => .none
  | .sxAdd _ _ _ _ _ => .s
  | .sxSub _ _ _ _ _ => .s
  | .sxMul _ _ _ _ _ => .s
  | .sxMulh _ _ _ _ _ => .s
  | .sxDiv _ _ _ _ _ => .s
  | .sxRem _ _ _ _ _ => .s
  | .sxMin _ _ _ _ _ => .s
  | .sxMax _ _ _ _ _ => .s
  | .sxAnd _ _ _ _ _ => .s
  | .sxOr _ _ _ _ _ => .s
  | .sxXor _ _ _ _ _ => .s
  | .sxShl _ _ _ _ _ => .s
  | .sxShr _ _ _ _ _ => .s
  | .sxSra _ _ _ _ _ => .s
  | .sxClz _ _ _ _ => .s
  | .sxCtz _ _ _ _ => .s
  | .sxCnt _ _ _ _ => .s
  | .sxExt _ _ _ _ _ => .s
  | .sxMov _ _ _ _ => .s
  | .sxCeq _ _ _ _ _ => .s
  | .sxClt _ _ _ _ _ => .s
  | .sxCle _ _ _ _ _ => .s
  | .sxSel _ _ _ _ _ => .s
  | .sxQset _ _ _ _ => .s
  | .sxFadd _ _ _ _ _ => .s
  | .sxFmul _ _ _ _ _ => .s
  | .sxFma _ _ _ _ _ => .s
  | .sxFceq _ _ _ _ _ => .s
  | .sxFclt _ _ _ _ _ => .s
  | .sxFcvi _ _ _ _ => .s
  | .sxFcif _ _ _ _ => .s
  | .siLi _ _ => .s
  | .siIh1 _ _ => .s
  | .siIh2 _ _ => .s
  | .siIh3 _ _ => .s
  | .siAddi _ _ => .s
  | .siOri _ _ => .s
  | .siCeqi _ _ => .s
  | .siClti _ _ => .s
  | .brJ _ => .b
  | .brCall _ _ => .b
  | .brBz _ _ => .b
  | .brBnz _ _ => .b
  | .brBlt _ _ => .b
  | .brBge _ _ => .b
  | .brBq _ _ => .b
  | .brBnq _ _ => .b
  | .brJr _ => .b
  | .brRet _ => .b
  | .brLvl _ _ _ => .b
  | .brLoop _ _ => .b
  | .brLend _ _ => .b
  | .brBud _ => .b
  | .adLd _ _ _ _ _ _ => .a
  | .adSt _ _ _ _ _ _ => .a
  | .adVld _ _ _ _ _ => .a
  | .adVst _ _ _ _ _ => .a
  | .adFld _ _ _ _ _ _ => .a
  | .adFst _ _ _ _ _ _ => .a
  | .adTch _ _ _ _ => .a
  | .adAdd _ _ _ _ => .a
  | .adMov _ _ _ => .a
  | .adGet _ _ _ => .a
  | .adAadd _ _ _ _ _ _ => .a
  | .adAand _ _ _ _ _ _ => .a
  | .adAor _ _ _ _ _ _ => .a
  | .adAxor _ _ _ _ _ _ => .a
  | .adAmin _ _ _ _ _ _ => .a
  | .adAmax _ _ _ _ _ _ => .a
  | .adNmin _ _ _ _ _ _ => .a
  | .adNmax _ _ _ _ _ _ => .a
  | .adXchg _ _ _ _ _ _ => .a
  | .adCas _ _ _ _ _ _ => .a
  | .adFadd _ _ _ _ _ => .a
  | .adBadd _ _ _ _ _ => .a
  | .vxAdd _ _ _ _ _ _ => .v
  | .vxSub _ _ _ _ _ _ => .v
  | .vxMul _ _ _ _ _ _ => .v
  | .vxFma _ _ _ _ _ _ => .v
  | .vxMin _ _ _ _ _ => .v
  | .vxMax _ _ _ _ _ => .v
  | .vxAbs _ _ _ _ => .v
  | .vxNeg _ _ _ _ => .v
  | .vxAnd _ _ _ _ => .v
  | .vxOr _ _ _ _ => .v
  | .vxXor _ _ _ _ => .v
  | .vxNot _ _ _ => .v
  | .vxShl _ _ _ _ _ => .v
  | .vxShr _ _ _ _ _ => .v
  | .vxSra _ _ _ _ _ => .v
  | .vxMulh _ _ _ _ _ => .v
  | .vxAdds _ _ _ _ _ => .v
  | .vxSubs _ _ _ _ _ => .v
  | .vxMov _ _ _ => .v
  | .vxSel _ _ _ _ => .v
  | .vxCeq _ _ _ _ _ => .v
  | .vxCne _ _ _ _ _ => .v
  | .vxClt _ _ _ _ _ => .v
  | .vxCle _ _ _ _ _ => .v
  | .vxQand _ _ _ _ => .v
  | .vxQor _ _ _ _ => .v
  | .vxQxor _ _ _ _ => .v
  | .vxQnot _ _ _ => .v
  | .vxPerm _ _ _ _ => .v
  | .vxLsh _ _ _ _ => .v
  | .vxLrot _ _ _ _ => .v
  | .vxBcast _ _ _ _ => .v
  | .vxExt _ _ _ _ _ => .v
  | .vxRadd _ _ _ _ => .v
  | .vxRmax _ _ _ _ => .v
  | .vxRmin _ _ _ _ => .v
  | .vxRcp _ _ _ _ => .v
  | .vxRsq _ _ _ _ => .v
  | .vxExp2 _ _ _ _ => .v
  | .vxLog2 _ _ _ _ => .v
  | .vyCvt _ _ _ _ _ _ _ => .v
  | .vyCvs _ _ _ _ _ _ => .v
  | .vyCvo _ _ _ _ _ _ => .v
  | .vyPpk _ _ _ _ _ _ => .v
  | .vyPun _ _ _ _ _ _ => .v
  | .mxMma _ _ _ _ _ _ => .m
  | .mxMms _ _ _ _ _ _ => .m
  | .mxClr _ _ => .m
  | .mxDrn _ _ _ _ _ _ => .m
  | .mxFil _ _ _ _ _ => .m
  | .mxSt _ _ _ _ _ => .m
  | .mxLd _ _ _ _ => .m
  | .mxCmp _ _ _ _ _ => .m
  | .mxTsr _ _ _ => .m
  | .mxAcp _ _ _ _ => .m
  | .lkAlloc _ _ _ _ _ _ => .m
  | .lkLoad _ _ => .m
  | .lkPin _ _ => .m
  | .lkUnpin _ _ => .m
  | .lkRevk _ _ => .m
  | .lkQry _ _ _ => .m
  | .lkQuota _ _ _ => .m
  | .lkSclr _ _ => .m
  | .cpLvl _ _ _ _ _ => .c
  | .cpSrc _ _ _ _ => .c
  | .cpDst _ _ _ _ => .c
  | .cpBnd _ _ _ _ _ => .c
  | .cpGo _ _ _ _ _ => .c
  | .cpWmk _ _ _ => .c
  | .cpCncl _ _ => .c
  | .cpRpl _ _ => .c
  | .cpBput _ _ => .c
  | .cpBlat _ _ => .c
  | .rsGo _ _ => .c
  | .rsStat _ _ => .c
  | .fxPush _ _ _ => .f
  | .fxPop _ _ _ => .f
  | .fxSt _ _ _ _ _ => .f
  | .fxLd _ _ _ _ => .f
  | .fxAt _ _ _ _ _ => .f
  | .fxRep _ _ _ _ _ => .f
  | .fxMark _ _ _ => .f
  | .fxDrn _ _ => .f
  | .fxMsg _ _ _ => .f
  | .fxLst _ _ _ => .f
  | .syFence _ _ _ => .s
  | .syXf _ _ => .s
  | .syDrn _ _ _ _ => .s
  | .syWait _ _ _ => .s
  | .syPhase _ _ => .s
  | .syLcr _ _ => .s
  | .trTrap _ => .s
  | .trRft _ => .s
  | .trRfu _ => .s
  | .trCsrr _ _ => .s
  | .trCsrw _ _ => .s
  | .trYld _ => .s
  | .trHalt _ => .s
  | .trKill _ _ => .s
  | .scUse _ _ _ => .e
  | .scLd _ _ _ _ => .e
  | .scLdm _ _ _ => .e
  | .pxRep _ => .none
  | .pxFirst _ => .none
  | .pxLast _ => .none
  | .pxSeg _ => .none
  | .issueCycle _ _ => .none
  | .dcHello _ _ => .none
  | .dcGet _ _ _ _ => .none
  | .dcPut _ _ _ _ => .none
  | .dcKick _ _ _ _ => .none
  | .dcQcreate _ _ _ _ _ _ _ => .none
  | .dcQdestroy _ _ _ => .none
  | .dcQreset _ _ _ => .none
  | .dcQstatus _ _ _ => .none
  | .dcWindow _ _ _ _ _ => .none
  | .dcLoad _ _ _ _ => .none
  | .dcUnload _ _ _ => .none
  | .dcQuiesce _ _ _ _ => .none
  | .pkNop _ => .none
  | .pkLaunch _ _ _ _ _ _ _ _ _ _ _ _ => .none
  | .pkCall _ _ _ => .none
  | .pkRet _ => .none
  | .pkPred _ _ _ _ _ _ => .none
  | .pkLoop _ _ _ => .none
  | .pkFence _ => .none
  | .pkWrite _ _ _ _ _ => .none
  | .pkWait _ _ _ _ _ _ _ _ => .none
  | .pkSignal _ _ _ => .none
  | .pkStamp _ _ => .none
  | .pkLakeRevoke _ _ _ _ => .none
  | .pkLakeQuota _ _ _ => .none
  | .pkReshard _ _ => .none
  | .pkKill _ _ => .none
  | .pkPreempt _ _ _ => .none
  | .pkResume _ _ _ _ _ _ _ _ _ _ => .none
  | .pkCrpl _ _ _ => .none
  | .pkRing _ _ _ => .none
  | .pkSteerInstall _ _ _ _ _ _ _ _ _ _ => .none
  | .pkSteerRemove _ _ => .none
  | .starvationPromotion _ => .none
  | .registerResultLands _ _ => .none
  | .queueLoadDataArrival _ _ => .none
  | .queueStorePairing _ _ => .none
  | .repeatReissue _ _ => .none
  | .heldWritePerformed _ _ => .none
  | .arrayOpComplete _ _ _ => .none
  | .lakeFillStart _ _ _ => .none
  | .lakeFillComplete _ _ _ _ => .none
  | .klsvcRefill _ _ _ => .none
  | .klsvcAccept _ _ _ => .none
  | .klsvcRevoke _ _ _ => .none
  | .copyTransferStart _ _ _ => .none
  | .copyChunk _ _ _ _ => .none
  | .pageWalkComplete _ _ _ _ => .none
  | .farStorePerformed _ _ _ _ => .none
  | .farLoadDataArrival _ _ _ _ => .none
  | .kxinvWrite _ _ _ => .none
  | .invalidationComplete _ _ => .none
  | .invalidationTimeout _ _ => .none
  | .touchExpiry _ _ _ => .none
  | .drainComplete _ => .none
  | .waitReread _ => .none
  | .userInterruptTaken _ _ => .none
  | .kuipWrite _ _ _ => .none
  | .kbudgetWrite _ => .none
  | .supervisorRecordDelivery => .none
  | .preemption _ => .none
  | .blockPullComplete _ _ _ _ _ => .none
  | .blockWriteOut _ _ _ _ => .none
  | .kisvcRetry _ => .none
  | .kisvcAbandon _ => .none
  | .segmentArrival _ _ _ => .none
  | .engineAccessGuard _ _ _ => .none
  | .clusterRetest _ => .none
  | .hostPacketArrival _ _ _ => .none
  | .deceoMessageReceived _ => .none
  | .rdmaWrite _ _ _ => .none
  | .rdmaRead _ _ _ => .none
  | .siennaExecutiveCycle _ => .none
  | .waitSatisfied _ _ => .none
  | .waitPoll _ _ => .none
  | .taskDispatch _ => .none
  | .taskCompletion _ => .none
  | .remoteRequestArrival _ _ => .none
  | .remoteReplyArrival _ _ _ _ => .none
  | .messageBufferRelease => .none
  | .markerTimeout _ _ => .none
  | .resendTimer _ _ => .none
  | .peerTimeout _ _ => .none
  | .sequenceMemoryExpiry _ _ => .none
  | .creditReturn _ _ _ => .none
  | .abortArrival _ => .none
  | .signalLock _ => .none
  | .trainingComplete _ _ _ => .none
  | .signalLoss _ => .none
  | .darkTimeout _ => .none
  | .linkErrorFence _ _ => .none
  | .kflctlFence _ => .none
  | .kflctlUnfence _ => .none
  | .kflctlRetrain _ => .none
  | .planClaim _ => .none
  | .planStep _ _ => .none
  | .powerOnReset _ => .none
  | .resetInput _ => .none
  | .watchdogReset _ => .none
  | .testRunJudged _ => .none
  | .testRunTimeout _ => .none
  | .mgIdentify => .none
  | .mgSensors _ => .none
  | .mgLogRead _ _ => .none
  | .mgFwWrite _ _ _ _ => .none
  | .mgFwActivate _ _ => .none
  | .mgFwCommit _ _ => .none
  | .fwRevert _ => .none
  | .mgReset _ _ => .none
  | .mgPowerCap _ _ => .none
  | .mgProvision _ _ => .none
  | .mgProtect _ _ _ => .none
  | .mgUnprotect _ _ _ => .none
  | .mgClusterState _ => .none
  | .mgRepairRead _ => .none
  | .mgSetKey _ _ _ _ => .none
  | .spGetCertificate => .none
  | .spChallenge _ => .none
  | .spGetMeasurements _ => .none
  | .spKeyExchange _ _ _ => .none
  | .spFinish _ _ _ => .none
  | .spKeyUpdate _ => .none
  | .spHeartbeat _ => .none
  | .spEndSession _ => .none
  | .sessionExpiry _ => .none
  | .sensorSample _ _ => .none
  | .ptpLock _ _ => .none
  | .retrainingFailed _ => .none
  | .quiesceTimeout => .none
  | .mainPowerLoss => .none
  | .ochreReset => .none
  | .packetForwarding _ _ => .none
  | .flitCrcFailure _ => .none

/-- An address register in the write set when it is stepped (R55, R221). -/
def stepped (p : Bool) (a : AReg) : List (WFile × Nat) := if p then [(.a, a.val)] else []

/-- The registers a slot writes, before the constants are taken out (R55). -/
def writesOf : Instr → List (WFile × Nat)
  | .sxNop => []
  | .sxAdd d _ _ _ _ => [(.s, d.val)]
  | .sxSub d _ _ _ _ => [(.s, d.val)]
  | .sxMul d _ _ _ _ => [(.s, d.val)]
  | .sxMulh d _ _ _ _ => [(.s, d.val)]
  | .sxDiv d _ _ _ _ => [(.s, d.val)]
  | .sxRem d _ _ _ _ => [(.s, d.val)]
  | .sxMin d _ _ _ _ => [(.s, d.val)]
  | .sxMax d _ _ _ _ => [(.s, d.val)]
  | .sxAnd d _ _ _ _ => [(.s, d.val)]
  | .sxOr d _ _ _ _ => [(.s, d.val)]
  | .sxXor d _ _ _ _ => [(.s, d.val)]
  | .sxShl d _ _ _ _ => [(.s, d.val)]
  | .sxShr d _ _ _ _ => [(.s, d.val)]
  | .sxSra d _ _ _ _ => [(.s, d.val)]
  | .sxClz d _ _ _ => [(.s, d.val)]
  | .sxCtz d _ _ _ => [(.s, d.val)]
  | .sxCnt d _ _ _ => [(.s, d.val)]
  | .sxExt d _ _ _ _ => [(.s, d.val)]
  | .sxMov d _ _ _ => [(.s, d.val)]
  | .sxCeq d _ _ _ _ => [(.s, d.val)]
  | .sxClt d _ _ _ _ => [(.s, d.val)]
  | .sxCle d _ _ _ _ => [(.s, d.val)]
  | .sxSel d _ _ _ _ => [(.s, d.val)]
  | .sxQset d _ _ _ => [(.q, d.val)]
  | .sxFadd d _ _ _ _ => [(.s, d.val)]
  | .sxFmul d _ _ _ _ => [(.s, d.val)]
  | .sxFma d _ _ _ _ => [(.s, d.val)]
  | .sxFceq d _ _ _ _ => [(.s, d.val)]
  | .sxFclt d _ _ _ _ => [(.s, d.val)]
  | .sxFcvi d _ _ _ => [(.s, d.val)]
  | .sxFcif d _ _ _ => [(.s, d.val)]
  | .siLi d _ => [(.s, d.val)]
  | .siIh1 d _ => [(.s, d.val)]
  | .siIh2 d _ => [(.s, d.val)]
  | .siIh3 d _ => [(.s, d.val)]
  | .siAddi d _ => [(.s, d.val)]
  | .siOri d _ => [(.s, d.val)]
  | .siCeqi d _ => [(.s, d.val)]
  | .siClti d _ => [(.s, d.val)]
  | .brJ _ => []
  | .brCall d _ => [(.s, d.val)]
  | .brBz _ _ => []
  | .brBnz _ _ => []
  | .brBlt _ _ => []
  | .brBge _ _ => []
  | .brBq _ _ => []
  | .brBnq _ _ => []
  | .brJr _ => []
  | .brRet _ => []
  | .brLvl _ _ _ => []
  | .brLoop _ _ => []
  | .brLend _ _ => []
  | .brBud d => [(.s, d.val)]
  | .adLd d p a _ _ _ => [(.s, d.val)] ++ stepped p a
  | .adSt _ p a _ _ _ => stepped p a
  | .adVld d p a _ _ => [(.v, d.val)] ++ stepped p a
  | .adVst _ p a _ _ => stepped p a
  | .adFld d p a _ _ _ => [(.s, d.val)] ++ stepped p a
  | .adFst _ p a _ _ _ => stepped p a
  | .adTch p a _ _ => stepped p a
  | .adAdd d _ _ _ => [(.a, d.val)]
  | .adMov d _ _ => [(.a, d.val)]
  | .adGet d _ _ => [(.s, d.val)]
  | .adAadd d _ _ _ _ _ => [(.s, d.val)]
  | .adAand d _ _ _ _ _ => [(.s, d.val)]
  | .adAor d _ _ _ _ _ => [(.s, d.val)]
  | .adAxor d _ _ _ _ _ => [(.s, d.val)]
  | .adAmin d _ _ _ _ _ => [(.s, d.val)]
  | .adAmax d _ _ _ _ _ => [(.s, d.val)]
  | .adNmin d _ _ _ _ _ => [(.s, d.val)]
  | .adNmax d _ _ _ _ _ => [(.s, d.val)]
  | .adXchg d _ _ _ _ _ => [(.s, d.val)]
  | .adCas d _ _ _ _ _ => [(.s, d.val)]
  | .adFadd d _ _ _ _ => [(.s, d.val)]
  | .adBadd d _ _ _ _ => [(.s, d.val)]
  | .vxAdd d _ _ _ _ _ => [(.v, d.val)]
  | .vxSub d _ _ _ _ _ => [(.v, d.val)]
  | .vxMul d _ _ _ _ _ => [(.v, d.val)]
  | .vxFma d _ _ _ _ _ => [(.v, d.val)]
  | .vxMin d _ _ _ _ => [(.v, d.val)]
  | .vxMax d _ _ _ _ => [(.v, d.val)]
  | .vxAbs d _ _ _ => [(.v, d.val)]
  | .vxNeg d _ _ _ => [(.v, d.val)]
  | .vxAnd d _ _ _ => [(.v, d.val)]
  | .vxOr d _ _ _ => [(.v, d.val)]
  | .vxXor d _ _ _ => [(.v, d.val)]
  | .vxNot d _ _ => [(.v, d.val)]
  | .vxShl d _ _ _ _ => [(.v, d.val)]
  | .vxShr d _ _ _ _ => [(.v, d.val)]
  | .vxSra d _ _ _ _ => [(.v, d.val)]
  | .vxMulh d _ _ _ _ => [(.v, d.val)]
  | .vxAdds d _ _ _ _ => [(.v, d.val)]
  | .vxSubs d _ _ _ _ => [(.v, d.val)]
  | .vxMov d _ _ => [(.v, d.val)]
  | .vxSel d _ _ _ => [(.v, d.val)]
  | .vxCeq d _ _ _ _ => [(.q, d.val)]
  | .vxCne d _ _ _ _ => [(.q, d.val)]
  | .vxClt d _ _ _ _ => [(.q, d.val)]
  | .vxCle d _ _ _ _ => [(.q, d.val)]
  | .vxQand d _ _ _ => [(.q, d.val)]
  | .vxQor d _ _ _ => [(.q, d.val)]
  | .vxQxor d _ _ _ => [(.q, d.val)]
  | .vxQnot d _ _ => [(.q, d.val)]
  | .vxPerm d _ _ _ => [(.v, d.val)]
  | .vxLsh d _ _ _ => [(.v, d.val)]
  | .vxLrot d _ _ _ => [(.v, d.val)]
  | .vxBcast d _ _ _ => [(.v, d.val)]
  | .vxExt d _ _ _ _ => [(.s, d.val)]
  | .vxRadd d _ _ _ => [(.s, d.val)]
  | .vxRmax d _ _ _ => [(.s, d.val)]
  | .vxRmin d _ _ _ => [(.s, d.val)]
  | .vxRcp d _ _ _ => [(.v, d.val)]
  | .vxRsq d _ _ _ => [(.v, d.val)]
  | .vxExp2 d _ _ _ => [(.v, d.val)]
  | .vxLog2 d _ _ _ => [(.v, d.val)]
  | .vyCvt d _ _ _ _ _ _ => [(.v, d.val)]
  | .vyCvs d _ _ _ _ _ => [(.v, d.val)]
  | .vyCvo d _ _ _ _ _ => [(.v, d.val)]
  | .vyPpk d _ _ _ _ _ => [(.v, d.val)]
  | .vyPun d _ _ _ _ _ => [(.v, d.val)]
  | .mxMma _ _ _ _ _ _ => []
  | .mxMms _ _ _ _ _ _ => []
  | .mxClr _ _ => []
  | .mxDrn _ _ _ _ b _ => [(.v, b.val)]
  | .mxFil _ _ _ _ _ => []
  | .mxSt _ _ _ _ _ => []
  | .mxLd _ _ _ _ => []
  | .mxCmp a inc _ _ _ => stepped inc a
  | .mxTsr _ b _ => [(.s, b.val)]
  | .mxAcp _ _ _ _ => []
  | .lkAlloc d _ _ _ _ _ => [(.s, d.val)]
  | .lkLoad _ _ => []
  | .lkPin _ _ => []
  | .lkUnpin _ _ => []
  | .lkRevk _ _ => []
  | .lkQry d _ _ => [(.s, d.val)]
  | .lkQuota _ _ _ => []
  | .lkSclr _ _ => []
  | .cpLvl _ _ _ _ _ => []
  | .cpSrc _ _ _ _ => []
  | .cpDst _ _ _ _ => []
  | .cpBnd _ _ _ _ _ => []
  | .cpGo _ _ _ _ _ => []
  | .cpWmk d _ _ => [(.s, d.val)]
  | .cpCncl _ _ => []
  | .cpRpl _ _ => []
  | .cpBput _ _ => []
  | .cpBlat _ _ => []
  | .rsGo _ _ => []
  | .rsStat d _ => [(.s, d.val)]
  | .fxPush _ _ _ => []
  | .fxPop _ b _ => [(.s, b.val)]
  | .fxSt _ _ _ _ _ => []
  | .fxLd _ _ _ _ => []
  | .fxAt _ _ _ _ _ => []
  | .fxRep _ _ _ _ _ => []
  | .fxMark _ _ _ => []
  | .fxDrn b _ => [(.s, b.val)]
  | .fxMsg _ _ _ => []
  | .fxLst _ b _ => [(.s, b.val)]
  | .syFence _ _ _ => []
  | .syXf _ _ => []
  | .syDrn d _ _ _ => [(.s, d.val)]
  | .syWait d _ _ => [(.s, d.val)]
  | .syPhase _ _ => []
  | .syLcr d _ => [(.s, d.val)]
  | .trTrap _ => []
  | .trRft _ => []
  | .trRfu _ => []
  | .trCsrr d _ => [(.s, d.val)]
  | .trCsrw _ n => [(.k, n.val)]
  | .trYld _ => []
  | .trHalt _ => []
  | .trKill _ _ => []
  | .scUse _ _ _ => []
  | .scLd d _ _ _ => [(.e, d.val)]
  | .scLdm _ _ _ => [(.e, 1), (.e, 2), (.e, 3), (.e, 4), (.e, 5), (.e, 6), (.e, 7)]
  | .pxRep _ => []
  | .pxFirst _ => []
  | .pxLast _ => []
  | .pxSeg _ => []
  | .issueCycle _ _ => []
  | .dcHello _ _ => []
  | .dcGet _ _ _ _ => []
  | .dcPut _ _ _ _ => []
  | .dcKick _ _ _ _ => []
  | .dcQcreate _ _ _ _ _ _ _ => []
  | .dcQdestroy _ _ _ => []
  | .dcQreset _ _ _ => []
  | .dcQstatus _ _ _ => []
  | .dcWindow _ _ _ _ _ => []
  | .dcLoad _ _ _ _ => []
  | .dcUnload _ _ _ => []
  | .dcQuiesce _ _ _ _ => []
  | .pkNop _ => []
  | .pkLaunch _ _ _ _ _ _ _ _ _ _ _ _ => []
  | .pkCall _ _ _ => []
  | .pkRet _ => []
  | .pkPred _ _ _ _ _ _ => []
  | .pkLoop _ _ _ => []
  | .pkFence _ => []
  | .pkWrite _ _ _ _ _ => []
  | .pkWait _ _ _ _ _ _ _ _ => []
  | .pkSignal _ _ _ => []
  | .pkStamp _ _ => []
  | .pkLakeRevoke _ _ _ _ => []
  | .pkLakeQuota _ _ _ => []
  | .pkReshard _ _ => []
  | .pkKill _ _ => []
  | .pkPreempt _ _ _ => []
  | .pkResume _ _ _ _ _ _ _ _ _ _ => []
  | .pkCrpl _ _ _ => []
  | .pkRing _ _ _ => []
  | .pkSteerInstall _ _ _ _ _ _ _ _ _ _ => []
  | .pkSteerRemove _ _ => []
  | .starvationPromotion _ => []
  | .registerResultLands _ _ => []
  | .queueLoadDataArrival _ _ => []
  | .queueStorePairing _ _ => []
  | .repeatReissue _ _ => []
  | .heldWritePerformed _ _ => []
  | .arrayOpComplete _ _ _ => []
  | .lakeFillStart _ _ _ => []
  | .lakeFillComplete _ _ _ _ => []
  | .klsvcRefill _ _ _ => []
  | .klsvcAccept _ _ _ => []
  | .klsvcRevoke _ _ _ => []
  | .copyTransferStart _ _ _ => []
  | .copyChunk _ _ _ _ => []
  | .pageWalkComplete _ _ _ _ => []
  | .farStorePerformed _ _ _ _ => []
  | .farLoadDataArrival _ _ _ _ => []
  | .kxinvWrite _ _ _ => []
  | .invalidationComplete _ _ => []
  | .invalidationTimeout _ _ => []
  | .touchExpiry _ _ _ => []
  | .drainComplete _ => []
  | .waitReread _ => []
  | .userInterruptTaken _ _ => []
  | .kuipWrite _ _ _ => []
  | .kbudgetWrite _ => []
  | .supervisorRecordDelivery => []
  | .preemption _ => []
  | .blockPullComplete _ _ _ _ _ => []
  | .blockWriteOut _ _ _ _ => []
  | .kisvcRetry _ => []
  | .kisvcAbandon _ => []
  | .segmentArrival _ _ _ => []
  | .engineAccessGuard _ _ _ => []
  | .clusterRetest _ => []
  | .hostPacketArrival _ _ _ => []
  | .deceoMessageReceived _ => []
  | .rdmaWrite _ _ _ => []
  | .rdmaRead _ _ _ => []
  | .siennaExecutiveCycle _ => []
  | .waitSatisfied _ _ => []
  | .waitPoll _ _ => []
  | .taskDispatch _ => []
  | .taskCompletion _ => []
  | .remoteRequestArrival _ _ => []
  | .remoteReplyArrival _ _ _ _ => []
  | .messageBufferRelease => []
  | .markerTimeout _ _ => []
  | .resendTimer _ _ => []
  | .peerTimeout _ _ => []
  | .sequenceMemoryExpiry _ _ => []
  | .creditReturn _ _ _ => []
  | .abortArrival _ => []
  | .signalLock _ => []
  | .trainingComplete _ _ _ => []
  | .signalLoss _ => []
  | .darkTimeout _ => []
  | .linkErrorFence _ _ => []
  | .kflctlFence _ => []
  | .kflctlUnfence _ => []
  | .kflctlRetrain _ => []
  | .planClaim _ => []
  | .planStep _ _ => []
  | .powerOnReset _ => []
  | .resetInput _ => []
  | .watchdogReset _ => []
  | .testRunJudged _ => []
  | .testRunTimeout _ => []
  | .mgIdentify => []
  | .mgSensors _ => []
  | .mgLogRead _ _ => []
  | .mgFwWrite _ _ _ _ => []
  | .mgFwActivate _ _ => []
  | .mgFwCommit _ _ => []
  | .fwRevert _ => []
  | .mgReset _ _ => []
  | .mgPowerCap _ _ => []
  | .mgProvision _ _ => []
  | .mgProtect _ _ _ => []
  | .mgUnprotect _ _ _ => []
  | .mgClusterState _ => []
  | .mgRepairRead _ => []
  | .mgSetKey _ _ _ _ => []
  | .spGetCertificate => []
  | .spChallenge _ => []
  | .spGetMeasurements _ => []
  | .spKeyExchange _ _ _ => []
  | .spFinish _ _ _ => []
  | .spKeyUpdate _ => []
  | .spHeartbeat _ => []
  | .spEndSession _ => []
  | .sessionExpiry _ => []
  | .sensorSample _ _ => []
  | .ptpLock _ _ => []
  | .retrainingFailed _ => []
  | .quiesceTimeout => []
  | .mainPowerLoss => []
  | .ochreReset => []
  | .packetForwarding _ _ => []
  | .flitCrcFailure _ => []

/-- The write set of a slot: s0, q0 and e0 are not in it (R56). -/
def writeSet (i : Instr) : List (WFile × Nat) :=
  (writesOf i).filter fun w => !((w.1 = .s || w.1 = .q || w.1 = .e) && w.2 = 0)

/-- The scalar, address and predicate registers a slot names (R337). -/
def namedRegs : Instr → List (WFile × Nat)
  | .sxNop => []
  | .sxAdd d a b _ q => [(.s, d.val), (.s, a.val), (.s, b.val), (.q, q.val)]
  | .sxSub d a b _ q => [(.s, d.val), (.s, a.val), (.s, b.val), (.q, q.val)]
  | .sxMul d a b _ q => [(.s, d.val), (.s, a.val), (.s, b.val), (.q, q.val)]
  | .sxMulh d a b _ q => [(.s, d.val), (.s, a.val), (.s, b.val), (.q, q.val)]
  | .sxDiv d a b _ q => [(.s, d.val), (.s, a.val), (.s, b.val), (.q, q.val)]
  | .sxRem d a b _ q => [(.s, d.val), (.s, a.val), (.s, b.val), (.q, q.val)]
  | .sxMin d a b _ q => [(.s, d.val), (.s, a.val), (.s, b.val), (.q, q.val)]
  | .sxMax d a b _ q => [(.s, d.val), (.s, a.val), (.s, b.val), (.q, q.val)]
  | .sxAnd d a b _ q => [(.s, d.val), (.s, a.val), (.s, b.val), (.q, q.val)]
  | .sxOr d a b _ q => [(.s, d.val), (.s, a.val), (.s, b.val), (.q, q.val)]
  | .sxXor d a b _ q => [(.s, d.val), (.s, a.val), (.s, b.val), (.q, q.val)]
  | .sxShl d a b _ q => [(.s, d.val), (.s, a.val), (.s, b.val), (.q, q.val)]
  | .sxShr d a b _ q => [(.s, d.val), (.s, a.val), (.s, b.val), (.q, q.val)]
  | .sxSra d a b _ q => [(.s, d.val), (.s, a.val), (.s, b.val), (.q, q.val)]
  | .sxClz d a _ q => [(.s, d.val), (.s, a.val), (.q, q.val)]
  | .sxCtz d a _ q => [(.s, d.val), (.s, a.val), (.q, q.val)]
  | .sxCnt d a _ q => [(.s, d.val), (.s, a.val), (.q, q.val)]
  | .sxExt d a b _ q => [(.s, d.val), (.s, a.val), (.s, b.val), (.q, q.val)]
  | .sxMov d a _ q => [(.s, d.val), (.s, a.val), (.q, q.val)]
  | .sxCeq d a b _ q => [(.s, d.val), (.s, a.val), (.s, b.val), (.q, q.val)]
  | .sxClt d a b _ q => [(.s, d.val), (.s, a.val), (.s, b.val), (.q, q.val)]
  | .sxCle d a b _ q => [(.s, d.val), (.s, a.val), (.s, b.val), (.q, q.val)]
  | .sxSel d a b _ q => [(.s, d.val), (.s, a.val), (.s, b.val), (.q, q.val)]
  | .sxQset d a _ q => [(.q, d.val), (.s, a.val), (.q, q.val)]
  | .sxFadd d a b _ q => [(.s, d.val), (.s, a.val), (.s, b.val), (.q, q.val)]
  | .sxFmul d a b _ q => [(.s, d.val), (.s, a.val), (.s, b.val), (.q, q.val)]
  | .sxFma d a b _ q => [(.s, d.val), (.s, a.val), (.s, b.val), (.q, q.val)]
  | .sxFceq d a b _ q => [(.s, d.val), (.s, a.val), (.s, b.val), (.q, q.val)]
  | .sxFclt d a b _ q => [(.s, d.val), (.s, a.val), (.s, b.val), (.q, q.val)]
  | .sxFcvi d a _ q => [(.s, d.val), (.s, a.val), (.q, q.val)]
  | .sxFcif d a _ q => [(.s, d.val), (.s, a.val), (.q, q.val)]
  | .siLi d _ => [(.s, d.val)]
  | .siIh1 d _ => [(.s, d.val)]
  | .siIh2 d _ => [(.s, d.val)]
  | .siIh3 d _ => [(.s, d.val)]
  | .siAddi d _ => [(.s, d.val)]
  | .siOri d _ => [(.s, d.val)]
  | .siCeqi d _ => [(.s, d.val)]
  | .siClti d _ => [(.s, d.val)]
  | .brJ _ => []
  | .brCall d _ => [(.s, d.val)]
  | .brBz d _ => [(.s, d.val)]
  | .brBnz d _ => [(.s, d.val)]
  | .brBlt d _ => [(.s, d.val)]
  | .brBge d _ => [(.s, d.val)]
  | .brBq d _ => [(.q, d.val)]
  | .brBnq d _ => [(.q, d.val)]
  | .brJr a => [(.s, a.val)]
  | .brRet a => [(.s, a.val)]
  | .brLvl a b _ => [(.s, a.val), (.s, b.val)]
  | .brLoop _ _ => []
  | .brLend _ a => [(.s, a.val)]
  | .brBud d => [(.s, d.val)]
  | .adLd d _ a b _ q => [(.s, d.val), (.a, a.val), (.s, b.val), (.q, q.val)]
  | .adSt d _ a b _ q => [(.s, d.val), (.a, a.val), (.s, b.val), (.q, q.val)]
  | .adVld _ _ a b q => [(.a, a.val), (.s, b.val), (.q, q.val)]
  | .adVst _ _ a b q => [(.a, a.val), (.s, b.val), (.q, q.val)]
  | .adFld d _ a b _ q => [(.s, d.val), (.a, a.val), (.s, b.val), (.q, q.val)]
  | .adFst d _ a b _ q => [(.s, d.val), (.a, a.val), (.s, b.val), (.q, q.val)]
  | .adTch _ a b q => [(.a, a.val), (.s, b.val), (.q, q.val)]
  | .adAdd d a b q => [(.a, d.val), (.a, a.val), (.s, b.val), (.q, q.val)]
  | .adMov d b q => [(.a, d.val), (.s, b.val), (.q, q.val)]
  | .adGet d a q => [(.s, d.val), (.a, a.val), (.q, q.val)]
  | .adAadd d a b _ _ q => [(.s, d.val), (.a, a.val), (.s, b.val), (.q, q.val)]
  | .adAand d a b _ _ q => [(.s, d.val), (.a, a.val), (.s, b.val), (.q, q.val)]
  | .adAor d a b _ _ q => [(.s, d.val), (.a, a.val), (.s, b.val), (.q, q.val)]
  | .adAxor d a b _ _ q => [(.s, d.val), (.a, a.val), (.s, b.val), (.q, q.val)]
  | .adAmin d a b _ _ q => [(.s, d.val), (.a, a.val), (.s, b.val), (.q, q.val)]
  | .adAmax d a b _ _ q => [(.s, d.val), (.a, a.val), (.s, b.val), (.q, q.val)]
  | .adNmin d a b _ _ q => [(.s, d.val), (.a, a.val), (.s, b.val), (.q, q.val)]
  | .adNmax d a b _ _ q => [(.s, d.val), (.a, a.val), (.s, b.val), (.q, q.val)]
  | .adXchg d a b _ _ q => [(.s, d.val), (.a, a.val), (.s, b.val), (.q, q.val)]
  | .adCas d a b _ _ q => [(.s, d.val), (.a, a.val), (.s, b.val), (.q, q.val)]
  | .adFadd d a b _ q => [(.s, d.val), (.a, a.val), (.s, b.val), (.q, q.val)]
  | .adBadd d a b _ q => [(.s, d.val), (.a, a.val), (.s, b.val), (.q, q.val)]
  | .vxAdd _ _ _ _ q _ => [(.q, q.val)]
  | .vxSub _ _ _ _ q _ => [(.q, q.val)]
  | .vxMul _ _ _ _ q _ => [(.q, q.val)]
  | .vxFma _ _ _ _ q _ => [(.q, q.val)]
  | .vxMin _ _ _ _ q => [(.q, q.val)]
  | .vxMax _ _ _ _ q => [(.q, q.val)]
  | .vxAbs _ _ _ q => [(.q, q.val)]
  | .vxNeg _ _ _ q => [(.q, q.val)]
  | .vxAnd _ _ _ q => [(.q, q.val)]
  | .vxOr _ _ _ q => [(.q, q.val)]
  | .vxXor _ _ _ q => [(.q, q.val)]
  | .vxNot _ _ q => [(.q, q.val)]
  | .vxShl _ _ _ _ q => [(.q, q.val)]
  | .vxShr _ _ _ _ q => [(.q, q.val)]
  | .vxSra _ _ _ _ q => [(.q, q.val)]
  | .vxMulh _ _ _ _ q => [(.q, q.val)]
  | .vxAdds _ _ _ _ q => [(.q, q.val)]
  | .vxSubs _ _ _ _ q => [(.q, q.val)]
  | .vxMov _ _ q => [(.q, q.val)]
  | .vxSel _ _ _ q => [(.q, q.val)]
  | .vxCeq d _ _ _ q => [(.q, d.val), (.q, q.val)]
  | .vxCne d _ _ _ q => [(.q, d.val), (.q, q.val)]
  | .vxClt d _ _ _ q => [(.q, d.val), (.q, q.val)]
  | .vxCle d _ _ _ q => [(.q, d.val), (.q, q.val)]
  | .vxQand d a b q => [(.q, d.val), (.q, a.val), (.q, b.val), (.q, q.val)]
  | .vxQor d a b q => [(.q, d.val), (.q, a.val), (.q, b.val), (.q, q.val)]
  | .vxQxor d a b q => [(.q, d.val), (.q, a.val), (.q, b.val), (.q, q.val)]
  | .vxQnot d a q => [(.q, d.val), (.q, a.val), (.q, q.val)]
  | .vxPerm _ _ _ q => [(.q, q.val)]
  | .vxLsh _ _ b q => [(.s, b.val), (.q, q.val)]
  | .vxLrot _ _ b q => [(.s, b.val), (.q, q.val)]
  | .vxBcast _ a _ q => [(.s, a.val), (.q, q.val)]
  | .vxExt d _ b _ q => [(.s, d.val), (.s, b.val), (.q, q.val)]
  | .vxRadd d _ _ q => [(.s, d.val), (.q, q.val)]
  | .vxRmax d _ _ q => [(.s, d.val), (.q, q.val)]
  | .vxRmin d _ _ q => [(.s, d.val), (.q, q.val)]
  | .vxRcp _ _ _ q => [(.q, q.val)]
  | .vxRsq _ _ _ q => [(.q, q.val)]
  | .vxExp2 _ _ _ q => [(.q, q.val)]
  | .vxLog2 _ _ _ q => [(.q, q.val)]
  | .vyCvt _ _ _ _ _ q _ => [(.q, q.val)]
  | .vyCvs _ _ _ _ _ q => [(.q, q.val)]
  | .vyCvo _ _ _ _ _ q => [(.q, q.val)]
  | .vyPpk _ _ _ _ _ q => [(.q, q.val)]
  | .vyPun _ _ _ _ _ q => [(.q, q.val)]
  | .mxMma _ _ a _ _ _ => [(.a, a.val)]
  | .mxMms _ _ a _ _ _ => [(.a, a.val)]
  | .mxClr _ q => [(.q, q.val)]
  | .mxDrn _ _ a _ _ q => [(.a, a.val), (.q, q.val)]
  | .mxFil _ a _ _ q => [(.a, a.val), (.q, q.val)]
  | .mxSt _ _ a _ q => [(.a, a.val), (.q, q.val)]
  | .mxLd _ a _ q => [(.a, a.val), (.q, q.val)]
  | .mxCmp a _ b _ q => [(.a, a.val), (.s, b.val), (.q, q.val)]
  | .mxTsr _ b q => [(.s, b.val), (.q, q.val)]
  | .mxAcp _ _ _ q => [(.q, q.val)]
  | .lkAlloc d a b _ _ q => [(.s, d.val), (.s, a.val), (.s, b.val), (.q, q.val)]
  | .lkLoad a q => [(.s, a.val), (.q, q.val)]
  | .lkPin a q => [(.s, a.val), (.q, q.val)]
  | .lkUnpin a q => [(.s, a.val), (.q, q.val)]
  | .lkRevk a q => [(.s, a.val), (.q, q.val)]
  | .lkQry d a q => [(.s, d.val), (.s, a.val), (.q, q.val)]
  | .lkQuota a b q => [(.s, a.val), (.s, b.val), (.q, q.val)]
  | .lkSclr a q => [(.s, a.val), (.q, q.val)]
  | .cpLvl d a b _ q => [(.s, d.val), (.s, a.val), (.s, b.val), (.q, q.val)]
  | .cpSrc a _ _ q => [(.s, a.val), (.q, q.val)]
  | .cpDst a _ _ q => [(.s, a.val), (.q, q.val)]
  | .cpBnd d a b _ q => [(.s, d.val), (.s, a.val), (.s, b.val), (.q, q.val)]
  | .cpGo a b _ _ q => [(.s, a.val), (.s, b.val), (.q, q.val)]
  | .cpWmk d _ q => [(.s, d.val), (.q, q.val)]
  | .cpCncl _ q => [(.q, q.val)]
  | .cpRpl a q => [(.s, a.val), (.q, q.val)]
  | .cpBput a q => [(.s, a.val), (.q, q.val)]
  | .cpBlat a q => [(.s, a.val), (.q, q.val)]
  | .rsGo a q => [(.s, a.val), (.q, q.val)]
  | .rsStat d q => [(.s, d.val), (.q, q.val)]
  | .fxPush _ b q => [(.s, b.val), (.q, q.val)]
  | .fxPop _ b q => [(.s, b.val), (.q, q.val)]
  | .fxSt _ a _ _ q => [(.a, a.val), (.q, q.val)]
  | .fxLd _ a _ q => [(.a, a.val), (.q, q.val)]
  | .fxAt _ a b _ q => [(.a, a.val), (.s, b.val), (.q, q.val)]
  | .fxRep _ a _ _ q => [(.a, a.val), (.q, q.val)]
  | .fxMark _ b q => [(.s, b.val), (.q, q.val)]
  | .fxDrn b q => [(.s, b.val), (.q, q.val)]
  | .fxMsg _ b q => [(.s, b.val), (.q, q.val)]
  | .fxLst _ b q => [(.s, b.val), (.q, q.val)]
  | .syFence _ _ q => [(.q, q.val)]
  | .syXf _ q => [(.q, q.val)]
  | .syDrn d _ _ q => [(.s, d.val), (.q, q.val)]
  | .syWait d _ q => [(.s, d.val), (.q, q.val)]
  | .syPhase d q => [(.s, d.val), (.q, q.val)]
  | .syLcr d q => [(.s, d.val), (.q, q.val)]
  | .trTrap _ => []
  | .trRft q => [(.q, q.val)]
  | .trRfu q => [(.q, q.val)]
  | .trCsrr d _ => [(.s, d.val)]
  | .trCsrw d _ => [(.s, d.val)]
  | .trYld q => [(.q, q.val)]
  | .trHalt q => [(.q, q.val)]
  | .trKill a q => [(.s, a.val), (.q, q.val)]
  | .scUse _ _ q => [(.q, q.val)]
  | .scLd _ a b q => [(.a, a.val), (.s, b.val), (.q, q.val)]
  | .scLdm a b q => [(.a, a.val), (.s, b.val), (.q, q.val)]
  | .pxRep _ => []
  | .pxFirst _ => []
  | .pxLast _ => []
  | .pxSeg _ => []
  | .issueCycle _ _ => []
  | .dcHello _ _ => []
  | .dcGet _ _ _ _ => []
  | .dcPut _ _ _ _ => []
  | .dcKick _ _ _ _ => []
  | .dcQcreate _ _ _ _ _ _ _ => []
  | .dcQdestroy _ _ _ => []
  | .dcQreset _ _ _ => []
  | .dcQstatus _ _ _ => []
  | .dcWindow _ _ _ _ _ => []
  | .dcLoad _ _ _ _ => []
  | .dcUnload _ _ _ => []
  | .dcQuiesce _ _ _ _ => []
  | .pkNop _ => []
  | .pkLaunch _ _ _ _ _ _ _ _ _ _ _ _ => []
  | .pkCall _ _ _ => []
  | .pkRet _ => []
  | .pkPred _ _ _ _ _ _ => []
  | .pkLoop _ _ _ => []
  | .pkFence _ => []
  | .pkWrite _ _ _ _ _ => []
  | .pkWait _ _ _ _ _ _ _ _ => []
  | .pkSignal _ _ _ => []
  | .pkStamp _ _ => []
  | .pkLakeRevoke _ _ _ _ => []
  | .pkLakeQuota _ _ _ => []
  | .pkReshard _ _ => []
  | .pkKill _ _ => []
  | .pkPreempt _ _ _ => []
  | .pkResume _ _ _ _ _ _ _ _ _ _ => []
  | .pkCrpl _ _ _ => []
  | .pkRing _ _ _ => []
  | .pkSteerInstall _ _ _ _ _ _ _ _ _ _ => []
  | .pkSteerRemove _ _ => []
  | .starvationPromotion _ => []
  | .registerResultLands _ _ => []
  | .queueLoadDataArrival _ _ => []
  | .queueStorePairing _ _ => []
  | .repeatReissue _ _ => []
  | .heldWritePerformed _ _ => []
  | .arrayOpComplete _ _ _ => []
  | .lakeFillStart _ _ _ => []
  | .lakeFillComplete _ _ _ _ => []
  | .klsvcRefill _ _ _ => []
  | .klsvcAccept _ _ _ => []
  | .klsvcRevoke _ _ _ => []
  | .copyTransferStart _ _ _ => []
  | .copyChunk _ _ _ _ => []
  | .pageWalkComplete _ _ _ _ => []
  | .farStorePerformed _ _ _ _ => []
  | .farLoadDataArrival _ _ _ _ => []
  | .kxinvWrite _ _ _ => []
  | .invalidationComplete _ _ => []
  | .invalidationTimeout _ _ => []
  | .touchExpiry _ _ _ => []
  | .drainComplete _ => []
  | .waitReread _ => []
  | .userInterruptTaken _ _ => []
  | .kuipWrite _ _ _ => []
  | .kbudgetWrite _ => []
  | .supervisorRecordDelivery => []
  | .preemption _ => []
  | .blockPullComplete _ _ _ _ _ => []
  | .blockWriteOut _ _ _ _ => []
  | .kisvcRetry _ => []
  | .kisvcAbandon _ => []
  | .segmentArrival _ _ _ => []
  | .engineAccessGuard _ _ _ => []
  | .clusterRetest _ => []
  | .hostPacketArrival _ _ _ => []
  | .deceoMessageReceived _ => []
  | .rdmaWrite _ _ _ => []
  | .rdmaRead _ _ _ => []
  | .siennaExecutiveCycle _ => []
  | .waitSatisfied _ _ => []
  | .waitPoll _ _ => []
  | .taskDispatch _ => []
  | .taskCompletion _ => []
  | .remoteRequestArrival _ _ => []
  | .remoteReplyArrival _ _ _ _ => []
  | .messageBufferRelease => []
  | .markerTimeout _ _ => []
  | .resendTimer _ _ => []
  | .peerTimeout _ _ => []
  | .sequenceMemoryExpiry _ _ => []
  | .creditReturn _ _ _ => []
  | .abortArrival _ => []
  | .signalLock _ => []
  | .trainingComplete _ _ _ => []
  | .signalLoss _ => []
  | .darkTimeout _ => []
  | .linkErrorFence _ _ => []
  | .kflctlFence _ => []
  | .kflctlUnfence _ => []
  | .kflctlRetrain _ => []
  | .planClaim _ => []
  | .planStep _ _ => []
  | .powerOnReset _ => []
  | .resetInput _ => []
  | .watchdogReset _ => []
  | .testRunJudged _ => []
  | .testRunTimeout _ => []
  | .mgIdentify => []
  | .mgSensors _ => []
  | .mgLogRead _ _ => []
  | .mgFwWrite _ _ _ _ => []
  | .mgFwActivate _ _ => []
  | .mgFwCommit _ _ => []
  | .fwRevert _ => []
  | .mgReset _ _ => []
  | .mgPowerCap _ _ => []
  | .mgProvision _ _ => []
  | .mgProtect _ _ _ => []
  | .mgUnprotect _ _ _ => []
  | .mgClusterState _ => []
  | .mgRepairRead _ => []
  | .mgSetKey _ _ _ _ => []
  | .spGetCertificate => []
  | .spChallenge _ => []
  | .spGetMeasurements _ => []
  | .spKeyExchange _ _ _ => []
  | .spFinish _ _ _ => []
  | .spKeyUpdate _ => []
  | .spHeartbeat _ => []
  | .spEndSession _ => []
  | .sessionExpiry _ => []
  | .sensorSample _ _ => []
  | .ptpLock _ _ => []
  | .retrainingFailed _ => []
  | .quiesceTimeout => []
  | .mainPowerLoss => []
  | .ochreReset => []
  | .packetForwarding _ _ => []
  | .flitCrcFailure _ => []

end Sys2Proof.Machine
end

