-- ==== Sys2Proof/Machine/Fetch.lean ====
section
/-! DEFINITION. Fetch: reading instruction memory, forming a bundle and checking it (R47 to R55, R68), and the extent of
a loop body (R126). -/

namespace Sys2Proof.Machine

/-- Bytes of an instruction segment. -/
def segBytes : Nat := 16384

/-- The physical segment of a logical one, when it is present (R381). -/
def segOf (c : Ctx) (n : Nat) : Option Nat := (c.segs.find? fun e => e.1 = n && e.2.2).map fun e => e.2.1

/-- Bytes of a segment of the loaded image a gang runs (R100), zero past its end. -/
def imageSeg (s : State) (g : Gang) (n : Nat) : List Byte :=
  match s.images.find? fun i => i.id = g.image with
  | none => []
  | some i => i.segs.getD n []

/-- The code word at an address of a member, as RUN and UIH code see it: instruction memory, or the loaded image's copy
of a segment that is not present. -/
def codeWord (s : State) (g : Gang) (m addr : Nat) : Nat :=
  let c := getCtx g m
  match segOf c (addr / segBytes) with
  | some ph => leNat (memReads (getCore s g.cluster c.core).imem (ph * segBytes + addr % segBytes) 4)
  | none => fieldLe (imageSeg s g (addr / segBytes)) (addr % segBytes) 4

/-- The word at an offset of the service segment, physical segment 15 (R331), which holds the same code on every core. -/
def serviceWord (s : State) (addr : Nat) : Nat := fieldLe s.svcCode (addr % segBytes) 4

/-- The words of the bundle from `a` on, at most `n`, within the segment of `pc`; none without a stop slot (R47). -/
def bundleWords (rd : Nat → Nat) (pc : Nat) : Nat → Nat → Option (List Nat)
  | 0, _ => none
  | n + 1, a =>
    if a / segBytes ≠ pc / segBytes then none
    else if bitAt (rd a) 31 then some [rd a]
    else (bundleWords rd pc n (a + 4)).map (rd a :: ·)

/-- FetchBundle (R47). -/
def formBundle (rd : Nat → Nat) (pc : Nat) : Option (List Nat) :=
  match bundleWords rd pc 8 pc with
  | none => none
  | some ws => if ws.length < 4 then none else some ws

/-- Is the slot a prefix (R53)? -/
def isPx : Instr → Bool
  | .pxRep _ | .pxFirst _ | .pxLast _ | .pxSeg _ => true
  | _ => false

/-- Is the slot an mx slot with O = 0? -/
def isMma : Instr → Bool
  | .mxMma .. | .mxMms .. => true
  | _ => false

/-- Is the slot a sequencer slot that handler code may not hold (R129)? -/
def isSeqBr : Instr → Bool
  | .brLvl .. | .brLoop .. | .brLend .. => true
  | _ => false

/-- Is the slot px.rep? -/
def isRep : Instr → Bool
  | .pxRep _ => true
  | _ => false
/-- Is the slot px.first? -/
def isFirst : Instr → Bool
  | .pxFirst _ => true
  | _ => false
/-- Is the slot px.last? -/
def isLast : Instr → Bool
  | .pxLast _ => true
  | _ => false
/-- Is the slot px.seg? -/
def isSeg : Instr → Bool
  | .pxSeg _ => true
  | _ => false
/-- Is the slot sc.use? -/
def isScUse : Instr → Bool
  | .scUse .. => true
  | _ => false

/-- Slots of a unit. -/
def unitCount (u : IUnit) (is : List Instr) : Nat := (is.filter fun i => unitOf i = u).length

/-- At most one slot for S, B, M, C, F and E, two for A and two for V (R51). -/
def unitsOk (is : List Instr) : Bool :=
  [IUnit.s, .b, .m, .c, .f, .e].all (fun u => decide (unitCount u is ≤ 1)) &&
  decide (unitCount .a is ≤ 2) && decide (unitCount .v is ≤ 2)

/-- The user register that a tr.csrw of a window number writes (R351), as the names of a bundle in a mode give it (R57,
R332): service code's own names reach its service bank, so it shares none with them. -/
def windowWrites (mode : Nat) : Instr → List (WFile × Nat)
  | .trCsrw _ n =>
    let k := n.val
    if 2 ≤ mode ∨ k < 0x801 ∨ 0x848 ≤ k then []
    else if k < 0x820 then (if mode = 1 ∧ 0x818 ≤ k then [] else [(.s, k - 0x800)])
    else if k < 0x830 then [(.a, k - 0x820)]
    else if k < 0x838 then (if k = 0x830 then [] else [(.q, k - 0x830)])
    else if k < 0x840 then (if k = 0x838 then [] else [(.e, k - 0x838)])
    else if mode = 1 then [(.s, k - 0x840 + 24)] else []
  | _ => []

/-- The write set of a slot of a bundle in a mode (R55). -/
def writeSetIn (mode : Nat) (i : Instr) : List (WFile × Nat) := writeSet i ++ windowWrites mode i

/-- No two slots' write sets share a register (R55). -/
def writesOk (mode : Nat) : List Instr → Bool
  | [] => true
  | i :: r => (r.all fun j => (writeSetIn mode i).all fun w => !(writeSetIn mode j).contains w) && writesOk mode r

/-- The prefixes before each slot (R53): `pre` are the px slots met since the last slot. -/
def prefixesOk : List Instr → List Instr → Bool
  | pre, [] => pre.isEmpty
  | pre, i :: r =>
    if isPx i then prefixesOk (pre ++ [i]) r
    else decide ((pre.filter isRep).length ≤ 1) && decide ((pre.filter isFirst).length ≤ 1) &&
      decide ((pre.filter isLast).length ≤ 1) && (!pre.any isRep || isMma i) && prefixesOk [] r

/-- Units that trap and interrupt handler code may use (R52). -/
def handlerUnit (i : Instr) : Bool := unitOf i = .s || unitOf i = .b || unitOf i = .a || unitOf i = .none

/-- The rules of a bundle as a whole (R51 to R55, R68), for a bundle of a context in a mode: handler code keeps to the units
of R52, but the user-level handlers of a supervisor task have every unit (R333); no handler holds br.lvl, br.loop or
br.lend (R129). -/
def legalBundle (mode : Nat) (sup : Bool) (is : List Instr) : Bool :=
  unitsOk is && writesOk mode is && prefixesOk [] is && decide ((is.filter isSeg).length ≤ 1) &&
  (!is.any isScUse || is.any isMma) &&
  (decide (mode = 0) || is.all fun i => ((sup && decide (mode = 1)) || handlerUnit i) && !isSeqBr i)

/-- The slots a bundle may hold on a Sienna core: at most one each of S, B and A0, and none of another unit (R52, R68). What
Sienna's cores run is firmware, of which the spec gives neither code nor registers; its effects are those of the packets and
calls (R364), so that no step forms such a bundle. -/
def legalOnSienna (is : List Instr) : Bool :=
  [IUnit.s, .b, .a].all (fun u => decide (unitCount u is ≤ 1)) && is.all handlerUnit && legalBundle 0 false is

/-- The rules of a bundle on a Sienna core (R52, R68): those of a tile core's RUN mode, at most one slot each of S, B and A,
and no slot of class vx, vy, mx, lk, cp, fx or sc. Sienna's own code is firmware, whose bundles the model does not run:
what it does is given by the packets and calls it executes. -/
def legalSienna (is : List Instr) : Bool :=
  legalBundle 0 false is && decide (unitCount .a is ≤ 1) && is.all handlerUnit

/-- Decode every slot; the stop bit is the bundle's. -/
def decodeAll : List Nat → Option (List Instr)
  | [] => some []
  | w :: r =>
    match decodeWord (w % 2 ^ 31), decodeAll r with
    | .ok i, some is => some (i :: is)
    | .ok _, none => none
    | .error _, _ => none

/-- The bundle a member's next address holds, with the address of the word after it; none where it is an illegal
encoding (R69). -/
def nextBundle (s : State) (g : Gang) (m : Nat) : Option (List Instr × Nat) :=
  let c := getCtx g m
  let rd := if 2 ≤ c.mode then serviceWord s else codeWord s g m
  let pc := nextPc c
  match formBundle rd pc with
  | none => none
  | some ws =>
    match decodeAll ws with
    | none => none
    | some is => if legalBundle c.mode g.svc is then some (is, pc + 4 * ws.length) else none

/-- Address after `n` bundles from `a` (R126). Words that form no bundle (no stop slot within eight, or past the segment's
end) count as one bundle of eight words (DESIGN CHOICE, log entry 98). -/
def skipBundles (rd : Nat → Nat) : Nat → Nat → Nat
  | 0, a => a
  | n + 1, a =>
    match bundleWords rd a 8 a with
    | none => skipBundles rd n (a + 32)
    | some ws => skipBundles rd n (a + 4 * ws.length)

/-- Address after a level's body. -/
def bodyEnd (s : State) (g : Gang) (m : Nat) (l : LevelSt) : Nat := skipBundles (codeWord s g m) l.len l.start

/-- Levels of a member that are active. -/
def activeLevels (c : Ctx) : List (Nat × LevelSt) :=
  ((List.range 6).map fun i => (i, vget {} c.levels i)).filter fun e => e.2.active

/-- Does the bundle at `a` lie in an active body (R129)? -/
def inBody (s : State) (g : Gang) (m a : Nat) : Bool :=
  (activeLevels (getCtx g m)).any fun e => decide (e.2.start ≤ a) && decide (a < bodyEnd s g m e.2)

/-- A loop-buffer capture of a body covers this bundle, so that it never waits for its segment (R126). -/
def inBuffer (s : State) (g : Gang) (m a : Nat) : Bool :=
  (activeLevels (getCtx g m)).any fun e =>
    e.2.cap = 2 && decide (e.2.start ≤ a) && decide (a < bodyEnd s g m e.2)

end Sys2Proof.Machine
end

