-- ==== Sys2Proof/Machine/Branch.lean ====
section
/-! DEFINITION. Branch: the br operations and the sequencer (R119 to R129). -/

namespace Sys2Proof.Machine

/-- CheckTarget (R119) then PC = t; in service code the target is an offset in the service segment (DEDUCED, log entry 9). -/
def branchTo (p : Perf) (t : Int) : Perf :=
  let lim := if 2 ≤ (oldCtx p).mode then segBytes else segBytes * p.is.old.task.nseg
  if t % 4 ≠ 0 ∨ t < 0 ∨ (lim : Int) ≤ t then raise p .instrAddress (wordOfInt t)
  else { p with is := { p.is with npc := some t.toNat } }

/-- The target of a 16-bit offset, in words from the bundle's first slot (R119). -/
def offsetTarget (p : Perf) (k : BitVec 16) : Int := (p.is.fa : Int) + 4 * toSigned 16 k.toNat

/-- A br slot other than the sequencer's and br.bud: a violation inside an active body even when not taken (R129); not
performed beside a tr slot that decides what follows (R119). -/
def branchSlot (s : State) (f : Perf → Perf) : Host.Outcome State Fault Refusal :=
  slotOp s fun p =>
    if !p.is.handler && inBody p.st p.is.old p.is.m p.is.fa then violate p
    else if p.is.brOff then p
    else always f p

/-- A branch on a scalar register (R120). -/
def branchIf (cond : Word → Bool) (d : SReg) (k : BitVec 16) (p : Perf) : Perf :=
  let (x, p) := readS p d.val
  if cond x then branchTo p (offsetTarget p k) else p

/-- `br.j target` (R120). -/
def execBrJ (k : BitVec 16) (s : State) : Host.Outcome State Fault Refusal :=
  branchSlot s fun p => branchTo p (offsetTarget p k)

/-- `br.call sD, target` (R120): the link is the address of the next bundle in sequence. -/
def execBrCall (d : SReg) (k : BitVec 16) (s : State) : Host.Outcome State Fault Refusal :=
  branchSlot s fun p => writeS (branchTo p (offsetTarget p k)) d.val 1 (BitVec.ofNat 64 p.is.nxt)

/-- `br.bz sD, target` (R120). -/
def execBrBz (d : SReg) (k : BitVec 16) (s : State) : Host.Outcome State Fault Refusal :=
  branchSlot s (branchIf (fun x => x == 0) d k)

/-- `br.bnz sD, target` (R120). -/
def execBrBnz (d : SReg) (k : BitVec 16) (s : State) : Host.Outcome State Fault Refusal :=
  branchSlot s (branchIf (fun x => x != 0) d k)

/-- `br.blt sD, target` (R120). -/
def execBrBlt (d : SReg) (k : BitVec 16) (s : State) : Host.Outcome State Fault Refusal :=
  branchSlot s (branchIf (fun x => x.msb) d k)

/-- `br.bge sD, target` (R120). -/
def execBrBge (d : SReg) (k : BitVec 16) (s : State) : Host.Outcome State Fault Refusal :=
  branchSlot s (branchIf (fun x => !x.msb) d k)

/-- A branch on a uniform predicate (R121). -/
def branchQ (want : Bool) (d : QReg) (k : BitVec 16) (p : Perf) : Perf :=
  let (m, p) := readQ p d.val
  if !uniformQ m then raise p .nonuniformBranch m
  else if (m != 0) == want then branchTo p (offsetTarget p k) else p

/-- `br.bq qD, target` (R121). -/
def execBrBq (d : QReg) (k : BitVec 16) (s : State) : Host.Outcome State Fault Refusal :=
  branchSlot s (branchQ true d k)

/-- `br.bnq qD, target` (R121). -/
def execBrBnq (d : QReg) (k : BitVec 16) (s : State) : Host.Outcome State Fault Refusal :=
  branchSlot s (branchQ false d k)

/-- A branch to the address in a register (R122). -/
def branchReg (a : SReg) (p : Perf) : Perf :=
  let (x, p) := readS p a.val
  branchTo p (x.toNat : Int)

/-- `br.jr sA` (R122). -/
def execBrJr (a : SReg) (s : State) : Host.Outcome State Fault Refusal := branchSlot s (branchReg a)

/-- `br.ret sA` (R122). -/
def execBrRet (a : SReg) (s : State) : Host.Outcome State Fault Refusal := branchSlot s (branchReg a)

/-- `br.bud sD` (R123): the task's effective budget. -/
def execBrBud (d : SReg) (s : State) : Host.Outcome State Fault Refusal :=
  slotOp s (always fun p => writeS p d.val 1 (BitVec.ofNat 64 p.is.old.budget))

/-! ### The sequencer -/

/-- Change a level of the member. -/
def modLevel (p : Perf) (l : Nat) (f : LevelSt → LevelSt) : Perf :=
  modWork p fun c => { c with levels := vmod c.levels l f }

/-- A level as the bundle reads it. -/
def oldLevel (p : Perf) (l : Nat) : LevelSt := vget {} (oldCtx p).levels l

/-- Add a stride entry, or replace the one of its register; `none` when a fifth would be needed (R125). -/
def addStride (ss : List (Nat × Word)) (a : Nat) (st : Word) : Option (List (Nat × Word)) :=
  if ss.any fun e => e.1 = a then some (ss.map fun e => if e.1 = a then (a, st) else e)
  else if 4 ≤ ss.length then none
  else some (ss ++ [(a, st)])

/-- `br.lvl sA, sB, f=L` (R125): B = s0 removes the stride entries. -/
def execBrLvl (a b : SReg) (l : Level) (s : State) : Host.Outcome State Fault Refusal :=
  slotOp s (always fun p =>
    let (x, p) := readS p a.val
    let (d, p) := if b.val = 0 then (0, p) else readS p b.val
    if (oldLevel p l.val).active || decide (bitsOf x.toNat 63 32 ≠ 0) then violate p
    else
      let p := modLevel p l.val fun v => { v with count := bitsOf x.toNat 31 0 }
      if b.val = 0 then modLevel p l.val fun v => { v with strides := [] }
      else if bitsOf d.toNat 59 48 ≠ 0 then violate p
      else
        match addStride (oldLevel p l.val).strides (bitsOf d.toNat 63 60) (wordOfInt (toSigned 48 d.toNat)) with
        | none => violate p
        | some ss => modLevel p l.val fun v => { v with strides := ss })

/-- `br.loop L, n` (R126). -/
def execBrLoop (l : Level) (n : Fin 257) (s : State) : Host.Outcome State Fault Refusal :=
  slotOp s (always fun p =>
    let start := p.is.nxt
    let fin := bodyEnd p.st p.is.old p.is.m { start := start, len := n.val }
    if (oldLevel p l.val).active || decide (p.is.old.budget < n.val) then violate p
    else if (activeLevels (oldCtx p)).any fun e => decide (bodyEnd p.st p.is.old p.is.m e.2 < fin) then violate p
    else if (oldLevel p l.val).count = 0 then { p with is := { p.is with npc := some fin } }
    else modLevel p l.val fun v =>
      { v with active := true, index := 0, stop := false, start := start, len := n.val, cap := 1 })

/-- `br.lend L, sA` (R128). -/
def execBrLend (l : Level) (a : SReg) (s : State) : Host.Outcome State Fault Refusal :=
  slotOp s (always fun p =>
    let (x, p) := readS p a.val
    if !(oldLevel p l.val).active then violate p
    else if x ≠ 0 then modLevel p l.val fun v => { v with stop := true } else p)

end Sys2Proof.Machine
end

