-- ==== Sys2Proof/Machine/Prefix.lean ====
section
/-! DEFINITION. Prefix: the px slots (R130 to R132). -/

namespace Sys2Proof.Machine

/-- `px.rep n` (R131): the mx slot it modifies starts the repeat. -/
def execPxRep (n : Fin 256) (s : State) : Host.Outcome State Fault Refusal :=
  prefixOp s fun p => { p with is := { p.is with rep := n.val } }

/-- A condition on the slot that follows; the level must be active (R130). -/
def pxCond (l : Level) (ok : LevelSt → Bool) (p : Perf) : Perf :=
  let v := oldLevel p l.val
  if !v.active then violate p
  else { p with is := { p.is with cond := p.is.cond && ok v } }

/-- `px.first L` (R130). -/
def execPxFirst (l : Level) (s : State) : Host.Outcome State Fault Refusal :=
  prefixOp s (pxCond l fun v => v.index == 0)

/-- `px.last L` (R130). -/
def execPxLast (l : Level) (s : State) : Host.Outcome State Fault Refusal :=
  prefixOp s (pxCond l fun v => v.index + 1 == v.count)

/-- `px.seg n` (R132): asks for a logical segment, unless it is present or coming (DEDUCED, log entry 22). -/
def execPxSeg (n : Fin 16) (s : State) : Host.Outcome State Fault Refusal :=
  prefixOp s fun p =>
    if p.is.old.task.nseg ≤ n.val then raise p .instrAddress (BitVec.ofNat 64 (segBytes * n.val))
    else modWork p fun c =>
      if (c.segs.any fun e => e.1 = n.val) || c.segReq.contains n.val then c
      else { c with segReq := c.segReq ++ [n.val] }

end Sys2Proof.Machine
end

