-- ==== Sys2Proof/Machine/Presence.lean ====
section
/-! DEFINITION. Presence: owned storage, claims, write-outs and pulls (R204, R307 to R310, R321 to R329), and what the
logical clock brings due in a context (R9, R43, R114, R139, R310). -/

namespace Sys2Proof.Machine

/-! ### Ranks and requests -/

/-- Does gang `g` rank before `h` by keys 2 to 5 of R107? -/
def ranksBefore (g h : Gang) : Bool :=
  let k := fun (x : Gang) => [x.prio, x.last, x.slot, (getCtx x 0).core]
  decide (k g < k h)

/-- The gang that ranks last. -/
def rankLast : List Gang → Option Gang
  | [] => none
  | g :: r =>
    match rankLast r with
    | none => some g
    | some h => if ranksBefore g h then some h else some g

/-- ktval of PREEMPT_FAILED (R462). -/
def preemptFail (why fail cause : Nat) : Word := BitVec.ofNat 64 (why * 65536 + fail * 256 + cause)

/-- Ask for a pre-emption, or for the kill of a gang that has no save pool (R316, R462). -/
def requestPreempt (s : State) (gid why : Nat) (pool : Option SavePool) (detach : Bool) : State :=
  match findGang s gid with
  | none => s
  | some g =>
    if g.killed.isSome || g.kill.isSome || g.preempt.isSome then s
    else
      match pool.orElse fun _ => g.launch.savep with
      | some sp => putGang s { g with preempt := some ⟨why, some sp, detach⟩ }
      | none => putGang s { g with kill := some ⟨codeNum .preemptFailed, 6, 0, preemptFail why 1 0, 0⟩ }

/-- Does the gang hold a frame of a core? -/
def holdsFrame (k : Core) (g : Gang) : Bool :=
  k.frames.toList.any fun f => match f with
    | .held gid _ _ => gid = g.id
    | .free => false
    | .retired => false
    | .owned _ _ _ => false

/-- Does the gang hold an array slot of a core? -/
def holdsArr (k : Core) (g : Gang) : Bool :=
  k.arr.toList.any fun a => match a with
    | some x => x.gang = g.id
    | none => false

/-- Steps 1 to 3 of R204 among the gangs that hold storage of a core: the gang to pre-empt, if any. -/
def contention (claimer : Gang) (lake : Bool) (holders : List Gang) : Option Gang :=
  match rankLast (holders.filter fun h => decide (claimer.prio < h.prio)) with
  | some h => some h
  | none => if holders.all fun h => if lake then h.claim.lake else h.claim.frame then rankLast holders else none

/-- A claim finds every frame, or every array slot, of a core taken by running contexts (R204, R228). -/
def claimWaits (s : State) (gid core : Nat) (lake : Bool) : State :=
  match findGang s gid with
  | none => s
  | some g =>
    let k := getCore s g.cluster core
    let holders := s.gangs.filter fun h => h.cluster = g.cluster && h.killed.isNone &&
      (if lake then holdsArr k h else holdsFrame k h)
    match contention g lake holders with
    | none => s
    | some h => requestPreempt s h.id (if lake then 3 else 2) none false

/-! ### Owned storage -/

/-- A register block that a saved image owns. -/
def findOwnedRegs (s : State) (ibase m b : Nat) : Option OwnedRegs :=
  s.ownedRegs.find? fun o => o.ibase = ibase && o.member = m && o.block = b

/-- The image that owns a register block of a context slot (DEDUCED, log entry 78). -/
def slotOwner (s : State) (cl co sl b : Nat) : Option OwnedRegs :=
  s.ownedRegs.find? fun o => o.cluster = cl && o.core = co && o.slot = sl && o.block = b

/-- The cluster and physical block that hold a scratchpad block of an image. -/
def findOwnedSpad (s : State) (ibase b : Nat) : Option (Nat × Nat) :=
  s.clusters.findSome? fun e => (e.2.owned.find? fun o => o.2.1 = ibase && o.2.2 = b).map fun o => (e.1, o.1)

/-- The image block that owns a physical scratchpad block. -/
def spadOwner (s : State) (cl pb : Nat) : Option (Nat × Nat) :=
  ((getCluster s cl).owned.find? fun o => o.1 = pb).map fun o => o.2

/-- The data of a block resident and owned on this device: bytes, and a tile's status (R327). Kinds as R313. -/
def residentData (s : State) (ibase kind m idx : Nat) : Option (List Byte × Nat) :=
  if kind = 2 then (findOwnedRegs s ibase m 0).map fun o => (o.data, 0)
  else if kind = 3 then (findOwnedRegs s ibase m (1 + idx)).map fun o => (o.data, 0)
  else if kind = 4 then (findOwnedTile s ibase m idx).map fun o => (tileData (accSlice o.data 0 2048), o.kts.toNat)
  else (findOwnedSpad s ibase idx).map fun e => (spadReads s e.1 (4096 * e.2) 4096, 0)

/-- Free the frame an image's tile stands in. -/
def freeOwnedFrame (s : State) (o : OwnedTile) : State :=
  let clear := fun (f : Frame) => if f = Frame.owned o.ibase o.member o.tile then Frame.free else f
  { s with cores := s.cores.map fun e => if e.1 = o.core then (e.1, { e.2 with frames := e.2.frames.map clear }) else e }

/-- Release the storage of a resident block: it becomes FREE. -/
def dropResident (s : State) (ibase kind m idx : Nat) : State :=
  if kind = 2 ∨ kind = 3 then
    let b := if kind = 2 then 0 else 1 + idx
    { s with ownedRegs := s.ownedRegs.filter fun o => !(o.ibase = ibase && o.member = m && o.block = b) }
  else if kind = 4 then
    (match findOwnedTile s ibase m idx with
      | none => s
      | some o =>
        { freeOwnedFrame s o with ownedTiles := s.ownedTiles.filter fun x => x != o })
  else
    { s with clusters := s.clusters.map fun e =>
        (e.1, { e.2 with owned := e.2.owned.filter fun o => !(o.2.1 = ibase && o.2.2 = idx) }) }

/-- Put a number into an increasing list. -/
def insertNat (b : Nat) : List Nat → List Nat
  | [] => [b]
  | x :: r => if b ≤ x then b :: x :: r else x :: insertNat b r

/-- Numbers in increasing order. -/
def sortNats (l : List Nat) : List Nat := l.foldl (fun r b => insertNat b r) []

/-- The scratchpad blocks an image still owns on this device, in increasing order. -/
def ownedSpad (s : State) (ibase : Nat) : List Nat :=
  sortNats (s.clusters.flatMap fun e => (e.2.owned.filter fun o => o.2.1 = ibase).map fun o => o.2.2)

/-- Every block an image still owns on this device, in the order of R310: KIND, member, block. -/
def ownedBlocks (s : State) (ibase : Nat) : List (Nat × Nat × Nat) :=
  let regs := s.ownedRegs.filter fun o => o.ibase = ibase
  let tiles := s.ownedTiles.filter fun o => o.ibase = ibase && !o.dead
  ((List.range 9).flatMap fun b => (List.range 8).filterMap fun m =>
      if regs.any fun o => o.member = m && o.block = b then some (if b = 0 then 2 else 3, m, b - 1) else none) ++
  ((List.range 16).flatMap fun t => (List.range 8).filterMap fun m =>
      if tiles.any fun o => o.member = m && o.tile = t then some (4, m, t) else none) ++
  ((ownedSpad s ibase).map fun b => (5, 0, b))

/-- Discard every block an image still owns (R325, R329); the frame of a tile that an operation keeps busy is freed once that
completes (R205). -/
def discardOwned (s : State) (ibase : Nat) : State :=
  (ownedBlocks s ibase).foldl (fun s b =>
    if b.1 = 4 && (match findOwnedTile s ibase b.2.1 b.2.2 with
      | none => false
      | some o => decide (o.busy ≠ 0)) then
      { s with ownedTiles := s.ownedTiles.map fun o =>
          if o.ibase = ibase ∧ o.member = b.2.1 ∧ o.tile = b.2.2 then { o with dead := true } else o }
    else dropResident s ibase b.1 b.2.1 b.2.2) s

/-! ### Records and their tickets (R324) -/

/-- CAUSE of a SAVE_AREA record (R323). -/
def saveCause : SaveFail → Nat
  | .full => 16 | .protect => 17 | .xlat c _ => c

/-- The failing address of a SAVE_AREA record. -/
def saveVa (s : State) (ibase : Nat) : SaveFail → Nat
  | .full | .protect => hdrNat s ibase 48 8 + hdrNat s ibase 64 8
  | .xlat _ va => va

/-- A record of R324. -/
def areaRecord (s : State) (code : Code) (cause kind idx m ibase va claimer : Nat) : Record :=
  ⟨code, 3, leBytes 2 (codeNum code) ++ leBytes 1 cause ++ leBytes 1 kind ++ leBytes 2 idx ++ leBytes 1 m ++ zeros 1 ++
    leBytes 8 ibase ++ leBytes 8 va ++ leBytes 4 s.nextTicket ++ zeros 4 ++ leBytes 8 (hdrNat s ibase 8 8) ++
    leBytes 8 claimer ++ zeros 16⟩

/-- Deliver a record of R324 and keep its ticket. -/
def raiseTicket (s : State) (code : Code) (cause kind idx m ibase va gang claimer : Nat) : State :=
  let r := areaRecord s code cause kind idx m ibase va claimer
  let t : Ticket := ⟨s.nextTicket, code, ibase, m, kind, idx, gang⟩
  deliver { s with tickets := s.tickets ++ [t], nextTicket := (s.nextTicket + 1) % 2 ^ 32 } r

/-- Is a record outstanding for a block? -/
def ticketFor (s : State) (code : Code) (ibase kind m idx : Nat) : Bool :=
  s.tickets.any fun t => t.code = code && t.ibase = ibase && t.kind = kind && t.member = m && t.index = idx

/-! ### Write-outs (R321 to R323) -/

/-- Mark the image's STATE. -/
def setImageState (s : State) (ibase v : Nat) : State := hdrPut s ibase 7 1 v

/-- Does a busy tile keep the block from being written out (R205)? -/
def blockBusy (s : State) (ibase kind m idx : Nat) : Bool :=
  decide (kind = 4) && (match findOwnedTile s ibase m idx with
    | none => false
    | some o => decide (o.busy ≠ 0))

/-- Write an owned block to its location unless its bit is set (R321); `free` when a claimer takes the storage. A failure
stops on that block with a SAVE_AREA record (R323). -/
def writeOut (s : State) (ibase kind m idx : Nat) (free : Bool) (claimer : Nat) : State :=
  match residentData s ibase kind m idx with
  | none => s
  | some (bs, kts) =>
    if blockBusy s ibase kind m idx then s
    else if ticketFor s .saveArea ibase kind m idx then s
    else if mapBit s ibase true kind m idx then (if free then dropResident s ibase kind m idx else s)
    else
      match writeBlock s ibase kind m idx bs kts with
      | .ok s => if free then dropResident s ibase kind m idx else s
      | .error f => raiseTicket s .saveArea (saveCause f) kind idx m ibase (saveVa s ibase f) 0 claimer

/-! ### Pulls (R309, R310, R327, R328) -/

/-- Request a pull, once (R310); its place among the requests for storage is kept (R321). -/
def requestPull (s : State) (gid : Nat) (r : Nat × Nat × Nat) : State :=
  match findGang s gid with
  | none => s
  | some g =>
    if g.pulls.contains r || (s.tickets.any fun t => t.code = .pullArea && t.gang = gid && t.kind = r.1 &&
        t.member = r.2.1 && t.index = r.2.2) then s
    else putGang { s with claims := s.claims ++ [(gid, r)] } { g with pulls := g.pulls ++ [r] }

/-- Take a pull off the requests. -/
def pullDone (s : State) (gid : Nat) (r : Nat × Nat × Nat) : State :=
  match findGang s gid with
  | none => s
  | some g =>
    putGang { s with claims := s.claims.filter fun c => c != (gid, r) } { g with pulls := g.pulls.filter fun x => x != r }

/-- Make a register block present with bytes, or with its dispatch value. -/
def presentRegs (s : State) (gid m b : Nat) (bs : Option (List Byte)) : State :=
  modCtxOf s gid m fun c =>
    let c := match bs with
      | none => c
      | some d =>
        let k := setRegBlock c b d
        { k with olfull := c.olfull, olbase := c.olbase, olcap := c.olcap, oltake := c.oltake, olput := c.olput }
    if b = 0 then { c with presS := true, touchS := true }
    else { c with presV := vset c.presV (b - 1) true, touchV := vset c.touchV (b - 1) true }

/-- Make a tile present with its bytes and status. -/
def presentTile (s : State) (gid m t : Nat) (bs : List Byte) (kts busy : Nat) : State :=
  modCtxOf s gid m fun c =>
    { accFill c (accKey t 0 0) (tileFrom bs) with
      tiles := vset c.tiles t ⟨true, true, busy, BitVec.ofNat 64 kts, true⟩ }

/-- Make a scratchpad block of the gang present with its bytes. -/
def presentSpad (s : State) (g : Gang) (b : Nat) (bs : List Byte) : State :=
  let s := spadWrites s g.cluster (g.task.spadBase + 4096 * b) bs
  match findGang s g.id with
  | none => s
  | some g => putGang s { g with absent := g.absent.filter fun x => x ≠ b }

/-- Bytes of a scratchpad block as a dispatch gives them (R179). -/
def dispatchSpad (s : State) (g : Gang) (b : Nat) : List Byte :=
  match s.images.find? fun i => i.id = g.image with
  | none => zeros 4096
  | some i => sliceBytes i.spad (4096 * b) 4096

/-- Touch an absent register block (R309, R321, R322, R327): its storage may belong to another image, whose block is
written out first; the image's own resident copy is adopted; a block without a saved copy holds 0. -/
def actBlock (s : State) (g : Gang) (m b : Nat) : State :=
  let c := getCtx g m
  let saved := if b = 0 then c.touchS else vget false c.touchV (b - 1)
  let req := (if b = 0 then 2 else 3, m, b - 1)
  match slotOwner s g.cluster c.core g.slot b with
  | some o =>
    if g.fromImage = some o.ibase ∧ o.member = m then
      presentRegs (dropResident s o.ibase req.1 m (b - 1)) g.id m b (some o.data)
    else requestPull s g.id req
  | none => if saved then requestPull s g.id req else presentRegs s g.id m b none

/-- Does a saved image own a frame of the core? -/
def someOwned (k : Core) : Bool :=
  k.frames.toList.any fun f => match f with
    | .owned _ _ _ => true
    | .free | .retired | .held _ _ _ => false

/-- The lowest-numbered frame that holds a tile which a saved image owns and no operation keeps busy (R204, R205). -/
def ownedFrame (s : State) (k : Core) : Option (Nat × Nat × Nat) :=
  k.frames.toList.findSome? fun f => match f with
    | .owned i m t => if blockBusy s i 4 m t then none else some (i, m, t)
    | .free | .retired | .held _ _ _ => none

/-- Mark the gang as frozen on a claim of a frame. -/
def frameClaim (s : State) (gid : Nat) : State :=
  match findGang s gid with
  | none => s
  | some g => putGang s { g with claim := { g.claim with frame := true } }

/-- Adopt the image's own tile where it stands (R322). -/
def adoptTile (s : State) (g : Gang) (m t : Nat) (o : OwnedTile) : State :=
  let c := getCtx g m
  let k := getCore s g.cluster c.core
  let k := { k with frames := k.frames.map fun f => if f = .owned o.ibase o.member o.tile then .held g.id m t else f }
  let s := setCore { s with ownedTiles := s.ownedTiles.filter fun x => x != o } g.cluster c.core k
  presentTile s g.id m t (tileData (accSlice o.data 0 2048)) o.kts.toNat o.busy

/-- Does an earlier request of another gang wait for the frame that the image's own tile stands in (R321)? -/
def tileWanted (s : State) (g : Gang) (m t : Nat) : Bool :=
  let core := gangCore g m
  match g.fromImage with
  | none => false
  | some ib =>
    decide (ownedFrame s (getCore s g.cluster (getCtx g m).core) = some (ib, m, t)) &&
    (claimsBefore s g (4, m, t)).any fun c => decide (c.1 ≠ g.id) && needsFrame s core c &&
      (match findGang s c.1 with
        | none => false
        | some h => (frameFor s h c.2.2.1 c.2.2.2).isNone)

/-- Claim a frame for a tile (R203, R204), after the requests made before it (R321). -/
def actClaim (s : State) (g : Gang) (m t : Nat) : State :=
  let c := getCtx g m
  let k := getCore s g.cluster c.core
  match ownTile s g m t with
  | some o => if tileWanted s g m t then requestPull (frameClaim s g.id) g.id (4, m, t) else adoptTile s g m t o
  | none =>
    if frameHeld k g.id m t then s
    else
      match frameFor s g m t with
      | some i =>
        let s := setCore s g.cluster c.core (holdFrame k i g.id m t)
        if (vget ({} : TileSt) c.tiles t).touched then requestPull s g.id (4, m, t) else modCtxOf s g.id m fun c => claimTile c t
      | none =>
        let s := frameClaim s g.id
        if someOwned k || (freeFrame k).isSome then requestPull s g.id (4, m, t) else claimWaits s g.id c.core false

/-- Touch an absent scratchpad block of a gang. -/
def actSpad (s : State) (g : Gang) (b : Nat) : State :=
  let pb := g.task.spadBase / 4096 + b
  match spadOwner s g.cluster pb, g.fromImage with
  | some (ib, ob), some mine =>
    if ib = mine ∧ ob = b then presentSpad (dropResident s ib 5 0 ob) g b (spadReads s g.cluster (4096 * pb) 4096)
    else requestPull s g.id (5, 0, b)
  | _, _ => requestPull s g.id (5, 0, b)

/-- Perform a storage action of an attempt. -/
def performAct (gid : Nat) (s : State) (a : Act) : State :=
  match findGang s gid with
  | none => s
  | some g =>
    match a with
    | .claim m t => if (vget {} (getCtx g m).tiles t).present then s else actClaim s g m t
    | .block m b => if (if b = 0 then (getCtx g m).presS else vget true (getCtx g m).presV (b - 1)) then s else actBlock s g m b
    | .spad b => if g.absent.contains b then actSpad s g b else s
    | .fill m l => putGang s (modCtx g m fun c => { c with lakes := vmod c.lakes l fun x =>
        if x.fill = .none then { x with fill := .filling, pend := true } else x })
    | .segment m n => putGang s (modCtx g m fun c =>
        if c.segReq.contains n then c else { c with segReq := c.segReq ++ [n] })

/-- The block of another image that stands in the storage a pull needs: KIND, image, member, block (R321). -/
def pullBlocker (s : State) (g : Gang) (r : Nat × Nat × Nat) : Option (Nat × Nat × Nat × Nat) :=
  let c := getCtx g r.2.1
  if r.1 = 5 then (spadOwner s g.cluster (g.task.spadBase / 4096 + r.2.2)).map fun o => (5, o.1, 0, o.2)
  else if r.1 = 4 then
    (let k := getCore s g.cluster c.core
     if frameHeld k g.id r.2.1 r.2.2 || (frameFor s g r.2.1 r.2.2).isSome || (ownTile s g r.2.1 r.2.2).isSome then none
     else (ownedFrame s k).map fun o => (4, o.1, o.2.1, o.2.2))
  else
    let b := if r.1 = 2 then 0 else 1 + r.2.2
    (slotOwner s g.cluster c.core g.slot b).map fun o => (r.1, o.ibase, o.member, r.2.2)

/-- A pull of a tile still finds no frame: the image's tiles of its core are all busy, or others hold every frame (R204); or
an earlier request waits for the frame its own tile stands in (R321). -/
def noFrame (s : State) (g : Gang) (r : Nat × Nat × Nat) : Bool :=
  let k := getCore s g.cluster (getCtx g r.2.1).core
  decide (r.1 = 4) && !frameHeld k g.id r.2.1 r.2.2 &&
  (if (ownTile s g r.2.1 r.2.2).isSome then tileWanted s g r.2.1 r.2.2 else (frameFor s g r.2.1 r.2.2).isNone)

/-- The gang whose request for storage waits for a block of an image to leave it, and the request: requests are served in the
order in which they were made. -/
def claimerOf (s : State) (b : Nat × Nat × Nat × Nat) : Option (Gang × Nat × Nat × Nat) :=
  s.claims.findSome? fun c => (findGang s c.1).bind fun g =>
    if g.killed.isNone && g.pulls.contains c.2 && decide (pullBlocker s g c.2 = some b) then some (g, c.2) else none

/-- The frame that a tile has left passes to its claimer (R321). -/
def passFrame (s : State) (g : Gang) (r : Nat × Nat × Nat) : State :=
  let co := (getCtx g r.2.1).core
  let k := getCore s g.cluster co
  if r.1 ≠ 4 ∨ frameHeld k g.id r.2.1 r.2.2 then s
  else
    match freeFrame k with
    | none => s
    | some f => setCore s g.cluster co (holdFrame k f g.id r.2.1 r.2.2)

/-- The gang in whose allocation a scratchpad block of an image stands. -/
def allocHolder (s : State) (ibase b : Nat) : Option Gang :=
  (findOwnedSpad s ibase b).bind fun e => s.gangs.find? fun g => g.cluster = e.1 && g.killed.isNone &&
    g.absent.any fun x => decide (g.task.spadBase / 4096 + x = e.2)

/-- Write an owned block out for the request that waits for its storage, which then passes to it; where none waits, the block
stays, but for a scratchpad block in another task's allocation (R321). -/
def writeForClaim (s : State) (ibase kind m idx : Nat) : State :=
  match claimerOf s (kind, ibase, m, idx), (if kind = 5 then allocHolder s ibase idx else none) with
  | some (g, r), _ => passFrame (writeOut s ibase kind m idx true g.id) g r
  | none, some g => writeOut s ibase kind m idx true g.id
  | none, none => writeOut s ibase kind m idx false 0

/-- Does a block of the gang have a saved copy (R309)? -/
def hasCopy (g : Gang) (r : Nat × Nat × Nat) : Bool :=
  let c := getCtx g r.2.1
  g.fromImage.isSome &&
  (if r.1 = 2 then c.touchS else if r.1 = 3 then vget false c.touchV r.2.2
   else if r.1 = 4 then (vget {} c.tiles r.2.2).touched else true)

/-- Give a pulled block its data (R327). -/
def finishPull (s : State) (g : Gang) (r : Nat × Nat × Nat) (d : Option (List Byte × Nat)) : State :=
  let free := frameFor s g r.2.1 r.2.2
  let s := pullDone s g.id r
  if r.1 = 2 then presentRegs s g.id r.2.1 0 (d.map (·.1))
  else if r.1 = 3 then presentRegs s g.id r.2.1 (1 + r.2.2) (d.map (·.1))
  else if r.1 = 4 then
    (let c := getCtx g r.2.1
     let k := getCore s g.cluster c.core
     if frameHeld k g.id r.2.1 r.2.2 then
       (match d with
         | none => modCtxOf s g.id r.2.1 fun c => claimTile c r.2.2
         | some (bs, kts) => presentTile s g.id r.2.1 r.2.2 bs kts 0)
     else
       match free with
       | none => s
       | some i =>
         let s := setCore s g.cluster c.core (holdFrame k i g.id r.2.1 r.2.2)
         match d with
         | none => modCtxOf s g.id r.2.1 fun c => claimTile c r.2.2
         | some (bs, kts) => presentTile s g.id r.2.1 r.2.2 bs kts 0)
  else presentSpad s g r.2.2 (match d with | none => dispatchSpad s g r.2.2 | some (bs, _) => bs)

/-- A failed pull kills its task (R328): the image is INCOMPLETE (DEDUCED, log entry 77). -/
def failPull (s : State) (g : Gang) (code : Code) (reason : Nat) : State :=
  let s := match g.fromImage with
    | none => s
    | some ib => setImageState s ib 2
  killTask s g.id code reason 0 0 0

/-- DEV of a group's location (R313). -/
def locDev (s : State) (ibase kind m : Nat) : Nat := hdrNat s ibase (locOff kind m) 2 % 32768

/-- A pull meets an uncorrectable error reading its location (R328): a page of this device is retired. -/
def lostPull (s : State) (g : Gang) (ib : Nat) (r : Nat × Nat × Nat) : State :=
  match locPa s (locDesc s ib) (hdrNat s ib (locOff r.1 r.2.1 + 8) 8 + (blockPlace r.1 r.2.2).1) with
  | .ok pa => failPull (retirePage s pa) g .pullUncorrectable 4
  | .error _ => failPull s g .pullUncorrectable 4

/-- A pull that takes its block from where the image left it (R327). -/
def pullFrom (s : State) (g : Gang) (ib : Nat) (r : Nat × Nat × Nat) (out : PullOut) : State :=
  match residentData s ib r.1 r.2.1 r.2.2 with
  | some d =>
    match (if r.1 = 4 then ownTile s g r.2.1 r.2.2 else none) with
    | some o => adoptTile (pullDone s g.id r) g r.2.1 r.2.2 o
    | none =>
      if blockBusy s ib r.1 r.2.1 r.2.2 then s
      else finishPull (dropResident s ib r.1 r.2.1 r.2.2) g r (some d)
  | none =>
    let written := mapBit s ib true r.1 r.2.1 r.2.2
    let local_ := written && decide (locDev s ib r.1 r.2.1 = s.devId)
    match out with
    | .peerLost => if local_ then s else failPull s g .pullPeerLost 4
    | .remote bs kts => if local_ then s else finishPull s g r (some (bs, kts.toNat))
    | .memError => if local_ then lostPull s g ib r else failPull s g .pullUncorrectable 4
    | .here =>
      if local_ then
        (match readBlock s ib r.1 r.2.1 r.2.2 with
          | .ok d => finishPull s g r (some d)
          | .error (c, va) =>
            if c = causeUncorr then lostPull s g ib r
            else raiseTicket (pullDone s g.id r) .pullArea c r.1 r.2.2 r.2.1 ib va g.id g.id)
      else s

/-- Is the block of a pull PRESENT: a tile without a saved copy may have claimed a freed frame meanwhile (R203)? -/
def pullPresent (g : Gang) (r : Nat × Nat × Nat) : Bool :=
  let c := getCtx g r.2.1
  if r.1 = 2 then c.presS else if r.1 = 3 then vget true c.presV r.2.2
  else if r.1 = 4 then (vget {} c.tiles r.2.2).present else !g.absent.contains r.2.2

/-- A pull comes to its end: first the block of another image leaves the storage (R321). -/
def endPull (s : State) (g : Gang) (r : Nat × Nat × Nat) (out : PullOut) : State :=
  if pullPresent g r then pullDone s g.id r
  else if (pullBlocker s g r).isSome || noFrame s g r then s
  else
    match g.fromImage with
    | none => finishPull s g r none
    | some ib => if hasCopy g r then pullFrom s g ib r out else finishPull s g r none

/-! ### Putting a gang back -/

/-- STALE as a write of the same step left it in the state's copy of a lake (R232). -/
def mergeLake (old now work : LakeSt) : LakeSt :=
  if work.bound && now.stale && !old.stale then { work with stale := true } else work

/-- A gang's working copy with the staleness that writes of the same step gave the state's copy. -/
def mergeStale (old now work : Gang) : Gang :=
  { work with members := (List.range work.members.length).map fun m =>
      let c := getCtx work m
      { c with lakes := Vector.ofFn fun (l : Fin 16) =>
          mergeLake (vget {} (getCtx old m).lakes l.val) (vget {} (getCtx now m).lakes l.val) (vget {} c.lakes l.val) } }

/-- Replace a gang, keeping staleness found since `old`. -/
def putMerged (s : State) (old work : Gang) : State :=
  match findGang s work.id with
  | none => s
  | some now => putGang s (mergeStale old now work)

/-! ### What the logical clock brings due (R9, R43, R114, R139, R310) -/

/-- Write a register of a context. -/
def landResult (c : Ctx) (r : Result) : Ctx :=
  let put := fun (w : Word) => ((ofWord w &&& ~~~r.mask) ||| (r.val &&& r.mask)).setWidth 64
  match r.file with
  | .s => { c with s := vmod c.s r.num put }
  | .a => { c with a := vmod c.a r.num put }
  | .q => { c with q := vmod c.q r.num put }
  | .h => { c with h := vmod c.h r.num put }
  | .e => { c with e := vset c.e r.num (r.val.setWidth 8) }
  | .v => { c with v := vmod c.v r.num fun x => (x &&& ~~~r.mask) ||| (r.val &&& r.mask) }
  | .ss => { c with ss := vmod c.ss r.num put }
  | .sa => { c with sa := vmod c.sa r.num put }
  | .sq => { c with sq := vmod c.sq r.num put }

/-- Can a result be written: its far data have arrived, and its block is present (R276, R310)? -/
def resultReady (c : Ctx) (r : Result) : Bool :=
  (match r.far with
    | none => true
    | some id => c.farq.any fun o => o.id = id && o.done) &&
  (match r.file with
    | .s | .a | .q | .e | .h => c.presS
    | .v => vget true c.presV (r.num / 4)
    | .ss | .sa | .sq => true)

/-- Write a result; a far load's entry is freed with it (R276), and the releases it read stand before later fences (R289). -/
def landOne (c : Ctx) (r : Result) : Ctx :=
  let c := match r.far with
    | none => landResult c r
    | some id =>
      let v := match c.farq.find? fun o => o.id = id with
        | none => 0
        | some o => o.data
      { landResult c { r with val := ofWord v } with farq := c.farq.filter fun o => o.id ≠ id }
  let c := r.rels.foldl (fun c x => noteRel x c) c
  match r.file with
  | .v => { c with touchV := vset c.touchV (r.num / 4) true }
  | .s | .a | .q | .e | .h => { c with touchS := true }
  | .ss | .sa | .sq => c

/-- Results due at logical cycle `t`, in issue order (R115). -/
def dueResults (c : Ctx) (t : Nat) : List Result := c.results.filter fun r => decide (r.due ≤ t)

/-- Land the results due at `t` in issue order; one that cannot land keeps later ones of its register behind it. -/
def landList (t : Nat) : List Result → List Result → Ctx → Ctx
  | [], kept, c => { c with results := kept }
  | r :: rs, kept, c =>
    let behind := kept.any fun x => decide (x.due ≤ t) && x.file = r.file && x.num = r.num
    if decide (r.due ≤ t) && resultReady c r && !behind then landList t rs kept (landOne c r)
    else landList t rs (kept ++ [r]) c

/-- Land the results due at `t` that can. -/
def landDue (c : Ctx) (t : Nat) : Ctx := landList t c.results [] c

/-- Land the tile statuses due at `t` whose tiles are present (R43); a halted member's status of a tile that is discarded goes
with it (R205). -/
def landPend (c : Ctx) (t : Nat) : Ctx :=
  let ready := fun (e : PendStatus) => decide (e.due ≤ t) && (c.halted || (vget {} c.tiles e.tile).present)
  let c' := (c.pend.filter ready).foldl (fun c e =>
    { c with tiles := vmod c.tiles e.tile fun x => if x.present then { x with kts := e.val } else x }) c
  { c' with pend := c.pend.filter fun e => !ready e }

/-- Move the load data that have arrived by `t` from the LAQ (R139, R192). -/
def arriveLoads (c : Ctx) (t : Nat) : Ctx :=
  let here := c.laq.filter fun e => decide (e.arrive ≤ t)
  { c with
    laq := c.laq.filter fun e => decide (t < e.arrive)
    ldq := c.ldq ++ (here.filter fun e => !e.vec && !e.atomic).map fun e => e.data.setWidth 64
    vldq := c.vldq ++ (here.filter fun e => e.vec && !e.atomic).map fun e => e.data }

/-- A context at the start of logical cycle `t` (DEDUCED, log entry 56). -/
def advanceCtx (c : Ctx) (t : Nat) : Ctx := arriveLoads (landPend (landDue c t) t) t

/-- Handler results due by a wall cycle (R337). -/
def landWall (c : Ctx) (wall : Nat) : Ctx :=
  let ready := fun (r : Result) => decide (r.due ≤ wall) && resultReady c r
  { (c.hresults.filter ready).foldl landOne c with hresults := c.hresults.filter fun r => !ready r }

/-- Handler results of a member, all written: its wall time stands still for a save. -/
def landHandler (c : Ctx) : Ctx := { c.hresults.foldl landOne c with hresults := [] }

/-- The member whose handler runs, if any (R337). -/
def handlerOf (g : Gang) : Option Nat := (List.range g.members.length).find? fun m => decide ((getCtx g m).mode ≠ 0)

end Sys2Proof.Machine
end

