-- ==== Sys2Proof/Machine/Save.lean ====
section
/-! DEFINITION. Save: taking a pre-emption (R316 to R320, R462), what follows it, the checks of a resumption (R326), and the
answers of a supervisor to its records (R324, R325). -/

namespace Sys2Proof.Machine

/-! ### Far accesses at a pre-emption (R278, R317 step 2) -/

/-- An uncorrectable error on a far access (R278): the page is retired and the task killed; an access of a service handler
is a fault of service code (R338). -/
def farError (s : State) (g : Gang) (m : Nat) (o : FarOp) : State :=
  let s := retirePage s o.pa
  let tval := BitVec.ofNat 64 o.va
  if o.svc then faultTask s g.id .farUncorrectable 0 0 tval m else killTask s g.id .farUncorrectable 0 0 tval m

/-- The first far access of a gang still to be performed that meets an uncorrectable error. -/
def farLost (s : State) (g : Gang) : Option (Nat × FarOp) :=
  (List.range g.members.length).findSome? fun m =>
    ((getCtx g m).farq.find? fun o => !o.done && badRange s [(o.pa, o.bytes)]).map fun o => (m, o)

/-- Give the result that waits for a far load its data and the releases it read. -/
def feedResult (o : FarOp) (v : Vec) (rels : List RelRead) (r : Result) : Result :=
  if r.far = some o.id then { r with val := v, far := none, rels := r.rels ++ rels } else r

/-- Perform the far accesses of a member: stores in order, and every load has its data. -/
def settleFar (s : State) (c : Ctx) : State × Ctx :=
  c.farq.foldl (fun sc o =>
    if o.store then farStore sc.1 sc.2 o
    else
      let feed := if o.done then feedResult o (ofWord o.data) []
        else feedResult o (ofWord (BitVec.ofNat 64 (physNat sc.1 o.pa o.bytes))) (farRels sc.1 c o.pa o.va o.bytes true 0)
      (sc.1, { sc.2 with results := sc.2.results.map feed, hresults := sc.2.hresults.map feed }))
    (s, { c with farq := [] })

/-! ### Pulls in progress at a pre-emption (R316) -/

/-- Does a pull take its block from another device? -/
def remotePull (s : State) (g : Gang) (r : Nat × Nat × Nat) : Bool :=
  match g.fromImage with
  | none => false
  | some ib =>
    !(pullPresent g r || (pullBlocker s g r).isSome || noFrame s g r) && hasCopy g r &&
    (residentData s ib r.1 r.2.1 r.2.2).isNone &&
    !(mapBit s ib true r.1 r.2.1 r.2.2 && decide (locDev s ib r.1 r.2.1 = s.devId))

/-- Can a pull read its block on this device now? -/
def localCopy (s : State) (ib : Nat) (r : Nat × Nat × Nat) : Bool :=
  match residentData s ib r.1 r.2.1 r.2.2 with
  | some _ => !blockBusy s ib r.1 r.2.1 r.2.2
  | none =>
    match readBlock s ib r.1 r.2.1 r.2.2 with
    | .ok _ => true
    | .error _ => false

/-- A pull at a pre-emption: one in progress completes into its storage; one that still waits for storage, or whose location
cannot be read, is given up. -/
def settlePull (gid : Nat) (s : State) (r : Nat × Nat × Nat) : State :=
  match findGang s gid with
  | none => s
  | some g =>
    if pullPresent g r || (pullBlocker s g r).isSome || noFrame s g r then pullDone s gid r
    else
      match g.fromImage with
      | none => finishPull s g r none
      | some ib =>
        if !hasCopy g r then finishPull s g r none
        else if localCopy s ib r then pullFrom s g ib r .here
        else pullDone s gid r

/-! ### The image (R309, R312, R317 to R320, R377) -/

/-- CMAP of a member (R309, R312). -/
def cmapOf (c : Ctx) : Nat :=
  c.touchS.toNat + ((List.range 8).foldl (fun a j => a + (vget false c.touchV j).toNat * 2 ^ (1 + j)) 0) +
  ((List.range 16).foldl (fun a t => a + (vget {} c.tiles t).touched.toNat * 2 ^ (9 + t)) 0)

/-- The header of a new image (R312), its maps of written copies and locations still empty. -/
def headerBytes (s : State) (g : Gang) (sp : SavePool) (used : Nat) : List Byte :=
  let nblk := g.task.spadSize / 4096
  placeBytes 2048
    [(0, leBytes 4 imgMagic ++ leBytes 2 1 ++ leBytes 1 g.members.length ++ leBytes 1 0 ++ leBytes 8 g.id ++
       leBytes 8 g.launch.xdesc ++ leBytes 8 sp.sdesc ++
       leBytes 1 (sp.flush.toNat + 2 * g.conf.toNat + 4 * (s.remote.any fun o => o.gang = g.id && !o.lost).toNat + 8 * g.svc.toNat) ++
       leBytes 1 g.slot ++ leBytes 1 g.cluster ++ zeros 1 ++ leBytes 2 s.devId),
     (40, leBytes 8 g.lc ++ leBytes 8 sp.sabase ++ leBytes 8 sp.sasize ++ leBytes 8 used ++ leBytes 4 s.boot.toNat),
     (80, g.members.flatMap fun c => leBytes 4 (cmapOf c)),
     (1024, sliceBytes g.task.bytes 0 256),
     (1280, (List.range 256).map fun i => BitVec.ofNat 8 (packNat 1 (fun j => (decide (8 * i + j < nblk)).toNat) 8))]

/-- SAUSED of a new image (R377): a later image at the same base continues it. -/
def usedAt (s : State) (sp : SavePool) : Nat :=
  if hdrNat s sp.ibase 0 4 = imgMagic ∧ hdrNat s sp.ibase 4 2 = 1 ∧ hdrNat s sp.ibase 48 8 = sp.sabase then
    hdrNat s sp.ibase 64 8 else 0

/-- Every copy of an image is written at its location (R326). -/
def allWritten (s : State) (ib : Nat) : Bool :=
  ((List.range 8).all fun m => (List.range 25).all fun b =>
    !bitAt (hdrNat s ib (80 + 4 * m) 4) b || bitAt (hdrNat s ib (112 + 4 * m) 4) b) &&
  (List.range 2048).all fun b =>
    !bitAt (hdrNat s ib (1280 + b / 8) 1) (b % 8) || bitAt (hdrNat s ib (1536 + b / 8) 1) (b % 8)

/-- Is the pool's image still in use (R377): OPEN or SAVED so that it can still be resumed, or the image of another running
task? -/
def poolBusy (s : State) (g : Gang) (sp : SavePool) : Bool :=
  let st := hdrNat s sp.ibase 7 1
  (decide (hdrNat s sp.ibase 0 4 = imgMagic) && decide (st < 2) &&
    (decide (hdrNat s sp.ibase 72 4 = s.boot.toNat) || (decide (st = 1) && allWritten s sp.ibase))) ||
  s.gangs.any fun h => h.id ≠ g.id && h.fromImage = some sp.ibase

/-- Is the boot count of an image's ORIGIN still the image's, so that copies not yet written are resident there (R326)?
Another device answers with its own (DESIGN CHOICE, log entry 15). -/
def originUp (s : State) (ib : Nat) : Bool :=
  if imgOrigin s ib = s.devId then decide (hdrNat s ib 72 4 = s.boot.toNat)
  else
    match Config.peerBoot s.free (imgOrigin s ib) with
    | none => false
    | some b => decide (hdrNat s ib 72 4 = b.toNat)

/-- The image passes the checks of R326. -/
def canResume (s : State) (ib : Nat) : Bool :=
  decide (hdrNat s ib 0 4 = imgMagic) && decide (hdrNat s ib 4 2 = 1) && decide (1 ≤ hdrNat s ib 6 1) &&
  decide (hdrNat s ib 6 1 ≤ 8) && decide (hdrNat s ib 7 1 = 1) && (allWritten s ib || originUp s ib)

/-- Must the resumption of another device's image wait: remote operations of its task are unresolved (R326)? -/
def remoteWaits (s : State) (ib : Nat) : Bool := decide (imgOrigin s ib ≠ s.devId) && bitAt (hdrNat s ib 32 1) 2

/-- A SAVED image that fails the check becomes INCOMPLETE (R326). -/
def spoilImage (s : State) (ib : Nat) : State :=
  if hdrNat s ib 0 4 = imgMagic ∧ hdrNat s ib 7 1 = 1 ∧ ¬canResume s ib then setImageState s ib 2 else s

/-- Give the blocks an old image still owns to a new one (R320). -/
def renameOwner (s : State) (old new : Nat) : State :=
  if old = new then s
  else
    { s with
      ownedRegs := s.ownedRegs.map fun o => if o.ibase = old then { o with ibase := new } else o
      ownedTiles := s.ownedTiles.map fun o => if o.ibase = old then { o with ibase := new } else o
      cores := s.cores.map fun e => (e.1, { e.2 with frames := e.2.frames.map fun f => match f with
        | .owned i m t => if i = old then .owned new m t else f
        | .free => .free
        | .retired => .retired
        | .held a b c => .held a b c })
      clusters := s.clusters.map fun e => (e.1, { e.2 with owned := e.2.owned.map fun o =>
        if o.2.1 = old then (o.1, new, o.2.2) else o }) }

/-- The registers and tiles of a member become owned by an image (R317 step 5). -/
def ownMember (s : State) (g : Gang) (ibase m : Nat) : State :=
  let c := getCtx g m
  let regs := (List.range 9).filterMap fun b =>
    let here := if b = 0 then c.presS && c.touchS else vget true c.presV (b - 1) && vget false c.touchV (b - 1)
    if here then some (⟨g.cluster, c.core, g.slot, ibase, m, b, regBlock c b⟩ : OwnedRegs) else none
  let tiles := (List.range 16).filterMap fun t =>
    let x := vget {} c.tiles t
    if x.present && (!c.halted || decide (x.busy ≠ 0)) then
      some (⟨gangCore g m, g.id, ibase, m, t, x.kts, x.busy,
        (c.acc.filter fun e => accKey t 0 0 ≤ e.1 && e.1 < accKey (t + 1) 0 0).map fun e => (e.1 - accKey t 0 0, e.2),
        c.halted⟩ : OwnedTile)
    else none
  let k := getCore s g.cluster c.core
  let s := setCore s g.cluster c.core { k with frames := k.frames.map fun f => match f with
    | .held gid m' t => if gid = g.id ∧ m' = m then (if (vget {} c.tiles t).present then .owned ibase m t else .free) else f
    | .free => .free
    | .retired => .retired
    | .owned a b d => .owned a b d }
  { s with ownedRegs := s.ownedRegs ++ regs, ownedTiles := s.ownedTiles ++ tiles }

/-- The present scratchpad blocks of a gang become owned by an image. -/
def ownSpad (s : State) (g : Gang) (ibase : Nat) : State :=
  let c := getCluster s g.cluster
  let new := (List.range (g.task.spadSize / 4096)).filterMap fun b =>
    if g.absent.contains b then none else some (g.task.spadBase / 4096 + b, ibase, b)
  setCluster s g.cluster { c with owned := c.owned ++ new }

/-- Evict a member's lakes (R236): array slots are given up, watch entries pass to the image, as stale as the record says. -/
def evictLakes (s : State) (g : Gang) (ibase m : Nat) : State :=
  (List.range 16).foldl (fun s l =>
    let x := vget {} (getCtx g m).lakes l
    let s := if x.bound then dropArr s g m l else s
    if x.bound && x.pinned then
      (match mapGet none s.watch x.watch with
        | none => s
        | some w => { s with watch := mapSet none s.watch x.watch (some { w with ibase := some ibase, stale := x.stale }) })
    else s) s

/-- The lowest port at which the gang holds fabric state (R413): an inbound word, a reply outstanding, or a message
open. -/
def fabricState (g : Gang) : Option Nat :=
  (List.range 48).find? fun p => g.members.any fun c =>
    let f := vget {} c.fifos p
    !f.ib.isEmpty || decide (f.resv ≠ 0) || decide (f.openLen ≠ 0)

/-- A failure of step 4, as ktval shows it (R462). -/
def saveFailVal (why : Nat) : SaveFail → Word
  | .full => preemptFail why 2 0
  | .protect => preemptFail why 4 0
  | .xlat c _ => preemptFail why 3 c

/-- Write a member's control record, and its held writes where it holds some (R317 step 4). -/
def saveControl (s : State) (g : Gang) (ibase m : Nat) : Except SaveFail State :=
  let c := getCtx g m
  match allocGroup s ibase 1 m with
  | .error f => .error f
  | .ok (s, va) =>
    let sdesc := hdrNat s ibase 24 8
    match farWriteExt s sdesc va (controlRecord c g.lc) with
    | .error e => .error (.xlat e va)
    | .ok s =>
      if c.held.isEmpty then .ok s
      else
        match allocGroup s ibase 6 m with
        | .error f => .error f
        | .ok (s, va) =>
          match farWriteExt s sdesc va (heldGroup g.lc c.held) with
          | .error e => .error (.xlat e va)
          | .ok s => .ok s

/-- Step 4 for every member from `m`. -/
def saveControls (s : State) (g : Gang) (ibase : Nat) : Nat → Except SaveFail State
  | 0 => .ok s
  | n + 1 =>
    match saveControl s g ibase (g.members.length - (n + 1)) with
    | .error f => .error f
    | .ok s => saveControls s g ibase n

/-- Is some block of a group of the gang present? -/
def groupTouched (g : Gang) (kind m : Nat) : Bool :=
  let c := getCtx g m
  if kind = 2 then c.presS
  else if kind = 3 then (List.range 8).any fun j => vget true c.presV j && vget false c.touchV j
  else if kind = 4 then (List.range 16).any fun t => (vget {} c.tiles t).present
  else (List.range (g.task.spadSize / 4096)).any fun b => !g.absent.contains b

/-- Is a block of the gang still absent with a copy that its image supplies? -/
def stillAbsent (g : Gang) (kind m i : Nat) : Bool :=
  let c := getCtx g m
  if kind = 2 then !c.presS && c.touchS
  else if kind = 3 then !(vget true c.presV i) && vget false c.touchV i
  else if kind = 4 then !(vget {} c.tiles i).present && (vget {} c.tiles i).touched
  else g.absent.contains i

/-- Blocks of a group that are absent and whose copy lies at an old image's location, or, not written, on the other device
that is its ORIGIN: each with whether it is written. Those resident here pass to the new image as they stand. -/
def oldCopies (s : State) (g : Gang) (old kind m : Nat) : List (Nat × Bool) :=
  ((List.range (if kind = 5 then g.task.spadSize / 4096 else if kind = 4 then 16 else if kind = 3 then 8 else 1)).filter fun i =>
    stillAbsent g kind m i && (mapBit s old true kind m i || decide (imgOrigin s old ≠ s.devId))).map fun i =>
      (i, mapBit s old true kind m i)

/-- What an old image knows of the copies of one group that a new one still needs (R320). -/
structure OldGroup where
  kind : Nat
  member : Nat
  /-- the location entry -/
  loc : List Byte
  copies : List (Nat × Bool)
deriving DecidableEq, Repr

/-- The groups of an old image that a new one still needs. -/
def oldGroups (s : State) (g : Gang) : List OldGroup :=
  match g.fromImage with
  | none => []
  | some old =>
    ((5, 0) :: (List.range g.members.length).flatMap fun m => [(2, m), (3, m), (4, m)]).filterMap fun e =>
      let is := oldCopies s g old e.1 e.2
      if is.isEmpty then none else some ⟨e.1, e.2, memReads s.mem (old + locOff e.1 e.2) 16, is⟩

/-- What an image's member holds beside its record. -/
def keptMember (s : State) (ib m : Nat) : Option KeptCtx := (mapGet none s.kept ib).bind fun k => k.members[m]?

/-- Does a scalar block still hold the ring registers and queue counts of its member, as the resumption found them? -/
def scalarSame (s : State) (old m : Nat) (c : Ctx) : Bool :=
  match keptMember s old m with
  | none => false
  | some k => decide (k.ring = ringRegs c) && decide (k.counts = queueLengths c)

/-- The gathers of one group of an old image. -/
def gathersOf (s : State) (g : Gang) (old ibase : Nat) (e : OldGroup) : List Gather :=
  e.copies.map fun x => ⟨ibase, g.id, e.kind, e.member, x.1,
    if x.2 then fieldLe e.loc 0 2 % 32768 else imgOrigin s old, locDesc s old, fieldLe e.loc 8 8, none⟩

/-- Does a new image take a group's location from the old one (R320): no block of the group was made present, every copy is
written there, and the location means the same under the new header (R313)? -/
def keepsLoc (s : State) (g : Gang) (old sdesc : Nat) (e : OldGroup) : Bool :=
  let dev := fieldLe e.loc 0 2 % 32768
  !groupTouched g e.kind e.member && (e.copies.all fun x => x.2) &&
  (decide (e.kind ≠ 2) || scalarSame s old e.member (getCtx g e.member)) &&
  (if dev = s.devId then decide (locDesc s old = some sdesc) else decide (dev ≠ imgOrigin s old))

/-- Keep the absent copies of one group in a new image: its old location, or its copies to be gathered. -/
def keepGroup (ibase : Nat) (s : State) (e : OldGroup × Option (List Gather)) : State :=
  match e.2 with
  | none =>
    e.1.copies.foldl (fun s x => setMapBit s ibase e.1.kind e.1.member x.1)
      (physWrite s (ibase + locOff e.1.kind e.1.member) e.1.loc)
  | some ts => { s with gathers := s.gathers ++ ts }

/-- STATE becomes SAVED once no copy remains to be gathered (R317 step 6). -/
def closeImage (s : State) (ibase : Nat) : State :=
  if (s.gathers.any fun t => t.ibase = ibase) || decide (hdrNat s ibase 7 1 ≠ 0) then s else setImageState s ibase 1

/-- A gathered block as the new image holds it. -/
def gatheredBytes (s : State) (t : Gather) (bs : List Byte) : List Byte :=
  match t.kind, keptMember s t.ibase t.member with
  | 2, some k => patchScalar k bs
  | _, _ => bs

/-- Write a gathered block into the new group; a failure stops on that block with a SAVE_AREA record (R320, R323). -/
def gatherPut (s : State) (t : Gather) (d : List Byte × Nat) : State :=
  match writeBlock s t.ibase t.kind t.member t.index (gatheredBytes s t d.1) d.2 with
  | .ok s => closeImage { s with gathers := s.gathers.filter fun x => x != t } t.ibase
  | .error f => raiseTicket s .saveArea (saveCause f) t.kind t.index t.member t.ibase (saveVa s t.ibase f) t.task 0

/-- Gather a block from its location on this device, or a scratchpad block's dispatch value; an uncorrectable error is left
to BLOCK_PULL_COMPLETE. -/
def gatherLocal (s : State) (t : Gather) : State :=
  match t.bytes with
  | some bs => gatherPut s t (bs, 0)
  | none =>
    if t.dev ≠ s.devId then s
    else
      match readCopy s t.desc t.addr t.kind t.index with
      | .ok d => gatherPut s t d
      | .error (c, va) =>
        if c = causeUncorr then s else raiseTicket s .saveArea c t.kind t.index t.member t.ibase va t.task 0

/-- The scratchpad blocks of a gang that are absent since its dispatch, since their storage is another image's: each has its
dispatch value as its saved copy (R179, R309). -/
def freshGathers (s : State) (g : Gang) (ibase : Nat) : List Gather :=
  if g.fromImage.isSome then []
  else g.absent.map fun b => ⟨ibase, g.id, 5, 0, b, s.devId, none, 0, some (dispatchSpad s g b)⟩

/-- A member as it stands for its record: far accesses settled, second reads made, handler results written and a waiting
return taken, and what is due at the boundary landed (R317 steps 1 to 3). -/
def settleMember (sg : State × Gang) (m : Nat) : State × Gang :=
  let r := settleFar sg.1 (getCtx sg.2 m)
  (r.1, modCtx sg.2 m fun _ => finishReturn (landHandler r.2))

/-- Land what is due at the boundary, where no handler holds the logical clock. -/
def settleDue (g : Gang) : Gang :=
  if (handlerOf g).isSome then g else { g with members := g.members.map fun c => advanceCtx c g.lc }

/-- A gang as it stands for its image, and the state after its far accesses. -/
def settleGangFor (s : State) (g : Gang) : State × Gang :=
  let sg := (List.range g.members.length).foldl settleMember (stopReads s g)
  (sg.1, settleDue sg.2)

/-- Take the gang out of the machine: its segments, its places in channel orders, its slots, its requests for storage
(R317 step 5). -/
def removeGang (s : State) (g : Gang) : State :=
  let s := (List.range g.members.length).foldl (fun s m => freeSegs s g m) s
  { s with gangs := s.gangs.filter fun h => h.id ≠ g.id, rsStats := s.rsStats.filter fun r => r.gang ≠ g.id,
           claims := s.claims.filter fun c => c.1 ≠ g.id }

/-- What the image holds beside its bytes; resident scalar blocks carry the ring registers and queue counts of now. -/
def keepBeside (s : State) (g : Gang) (ibase : Nat) : State :=
  let k := keptOf g
  { s with
    kept := mapSet none s.kept ibase (some k)
    ownedRegs := s.ownedRegs.map fun o => if o.ibase = ibase ∧ o.block = 0 then
      (match k.members[o.member]? with
        | none => o
        | some x => { o with data := patchScalar x o.data }) else o }

/-- The old image that a resumed gang leaves, as a new one is made at `ibase`: the blocks it owns pass on, and what it held
beside its bytes goes (R320). -/
def leaveImage (s : State) (g : Gang) (ibase : Nat) : State :=
  match g.fromImage with
  | none => s
  | some ib => renameOwner { s with kept := mapSet none s.kept ib none } ib ibase

/-- Steps 3 to 6 of R317: the image, or the kill of R462. -/
def saveGang (s : State) (g : Gang) (sp : SavePool) (why : Nat) : State × Bool :=
  let old := g.fromImage.getD 0
  let groups := (oldGroups s g).map fun e =>
    (e, if keepsLoc s g old sp.sdesc e then none else some (gathersOf s g old sp.ibase e))
  let s2 := physWrite (leaveImage s g sp.ibase) sp.ibase (headerBytes s g sp (usedAt s sp))
  match saveControls s2 g sp.ibase g.members.length with
  | .error f =>
    let g' := { g with kill := some ⟨codeNum .preemptFailed, 6, 0, saveFailVal why f, 0⟩, preempt := none }
    (putGang s g', false)
  | .ok s3 =>
    let s4 := (List.range g.members.length).foldl (fun s m => evictLakes (ownMember s g sp.ibase m) g sp.ibase m) s3
    let s5 := keepBeside (ownSpad s4 g sp.ibase) g sp.ibase
    let s6 := groups.foldl (keepGroup sp.ibase) { s5 with gathers := s5.gathers ++ freshGathers s g sp.ibase }
    let sg := phaseAddAll ((s6.gathers.filter fun t => t.ibase = sp.ibase).foldl gatherLocal s6) g
    (closeImage (removeGang { sg.1 with saved := mapSet 0 sg.1.saved sp.ibase g.image } g) sp.ibase, true)

/-- May a pre-emption asked of a gang be taken now (R317 step 1)? -/
def preemptReady (g : Gang) : Bool :=
  g.killed.isNone && g.kill.isNone && (g.calls.isEmpty || (handlerOf g).isSome) &&
  (g.stopped || g.members.all fun c => c.held.isEmpty)

/-- Completion record and word of a launch (R378); a record that cannot be written is dropped (R461). -/
def completeLaunch (s : State) (l : Launch) (gid : Nat) (time : Nat × Nat) (status : Nat) (detail : Word) : State :=
  let (t, s) := stamp s
  let rec_ := placeBytes 64
    [(0, leBytes 4 status ++ zeros 4 ++ leBytes 8 detail.toNat ++ leBytes 8 gid ++ leBytes 6 time.1),
     (32, leBytes 4 time.2 ++ zeros 4 ++ leBytes 6 t.1 ++ zeros 2 ++ leBytes 4 t.2)]
  let s := if l.crec = 0 then s
    else match deviceWrite s l.qdesc l.crec rec_ with
      | .ok s' => s'
      | .error c => deliver s (cwRecord 3 c l.crec gid 0)
  if l.cw = 0 then s else decFarWord s l.qdesc l.cw 2 gid

/-- What follows a save: a detached task completes (R379); another waits to be resumed as its queue's first (R377). -/
def afterSave (s : State) (g : Gang) (sp : SavePool) (detach : Bool) : State :=
  if detach then completeLaunch s g.launch g.id g.time 2 (BitVec.ofNat 64 sp.ibase)
  else
    let l := { g.launch with resume := true, image := sp.ibase, prio := g.prio, savep := some sp, time := some g.time }
    { s with ready := ⟨g.launch.queue, l, true⟩ :: s.ready }

/-- Does the gang still have a complete packet in an outbound FIFO (R413)? -/
def fifoOut (s : State) (g : Gang) : Bool := s.remote.any fun o => o.gang = g.id && decide (0 < o.obw)

/-- Save a gang that has stopped, and what follows. -/
def savePool (s : State) (g : Gang) (sp : SavePool) (r : PreReq) : State :=
  let s := g.pulls.foldl (settlePull g.id) s
  match findGang s g.id with
  | none => s
  | some g =>
    let sg := settleGangFor s g
    let s := putMerged sg.1 g sg.2
    match findGang s g.id with
    | none => s
    | some g =>
      let x := saveGang s g sp r.why
      if x.2 then afterSave x.1 g sp r.detach else x.1

/-- Take the pre-emption asked of a gang, if it may be taken (R317): fabric state is lost with its task (R413); a pull from
another device first ends (R316), complete packets are first sent (R413), and an uncorrectable error on a far access kills
the task (R278). -/
def takePreempt (s : State) (gid : Nat) : State :=
  match findGang s gid with
  | none => s
  | some g =>
    match g.preempt with
    | none => s
    | some r =>
      if !preemptReady g then s
      else
        match fabricState g with
        | some port => killTask s gid .fabricStateLost 0 0 (BitVec.ofNat 64 port) 0
        | none =>
          match r.pool with
          | none => s
          | some sp =>
            if poolBusy s g sp || (g.pulls.any (remotePull s g)) || fifoOut s g then s
            else
              match farLost s g with
              | some (m, o) =>
                farError (modCtxOf s gid m fun c => { c with farq := c.farq.filter fun x => x != o }) g m o
              | none => savePool s g sp r

/-! ### What reaches a saved task (R238, R344, R406) -/

/-- Image bases of images saved on this device that hold an identity's task. -/
def savedBases (s : State) (gid : Nat) : List Nat :=
  (s.saved.filter fun e => hdrNat s e.1 8 8 = gid && [0, 1].contains (hdrNat s e.1 7 1)).map fun e => e.1

/-- The physical address of a byte of a member's control record, where that lies on this device. -/
def recordPa (s : State) (ib m off : Nat) : Option Nat :=
  if hdrNat s ib 6 1 ≤ m ∨ hdrNat s ib (locOff 1 m) 2 % 32768 ≠ s.devId ∨ hdrNat s ib (locOff 1 m + 8) 8 = 0 then none
  else
    match locPa s (locDesc s ib) (hdrNat s ib (locOff 1 m + 8) 8 + off) with
    | .error _ => none
    | .ok pa => some pa

/-- Change what is kept beside an image for a member. -/
def modKept (s : State) (ib m : Nat) (f : KeptCtx → KeptCtx) : State :=
  match mapGet none s.kept ib with
  | none => s
  | some k => { s with kept := mapSet none s.kept ib (some { k with members := k.members.modify m f }) }

/-- Raise CW on a member of a saved task (R344): kuip travels in its control record (R352). -/
def raiseSaved (m arg : Nat) (s : State) (ib : Nat) : State :=
  match recordPa s ib m 2992 with
  | none => s
  | some pa =>
    let v := physNat s pa 8
    if bitAt v 6 || ((keptMember s ib m).any fun k => k.halted) then s
    else modKept (physWrite s pa (leBytes 8 (v + 64))) ib m fun k => { k with cwArg := arg }

/-- Revoke a lake slot of a saved member (R238): its lake record (R236), its watch entry and its count. -/
def revokeSaved (m l : Nat) (s : State) (ib : Nat) : State :=
  match recordPa s ib m (1024 + 32 * l) with
  | none => s
  | some pa =>
    let x := readLake (zeros (1024 + 32 * l) ++ memReads s.mem pa 32) (hdrNat s ib 40 8) l
    if !x.bound then s
    else
      let s := if x.pinned then { s with watch := mapSet none s.watch x.watch none } else s
      let y := { x with bound := false, pinned := false, stale := false, fillErr := none, gen := x.gen + 1 }
      modKept (physWrite s pa (lakeBytes y)) ib m fun k => { k with lakes := k.lakes.set l (none, true) }

/-! ### Answers of a supervisor (R325) -/

/-- What a saved task still is of a gang: its identity, its tenant and its logical cycle. -/
def savedGang (s : State) (ibase : Nat) : Gang :=
  { id := hdrNat s ibase 8 8
    cluster := 0
    slot := 0
    members := []
    lc := hdrNat s ibase 40 8
    tenant := descTenant s (hdrNat s ibase 16 8) }

/-- Address of the next bundle of a saved task's member 0 (R314, R352): its handler's in MODE 1 to 3; a free value where its
control record cannot be read. -/
def savedPc (s : State) (ibase : Nat) : Nat × State :=
  let at_ := fun (off : Nat) => locRead s (locDesc s ibase) (hdrNat s ibase (locOff 1 0 + 8) 8 + off) 8
  match at_ 0, at_ 2944, at_ 3016 with
  | .ok pc, .ok mode, .ok hpc => (if leNat mode % 4 = 0 then leNat pc else leNat hpc, s)
  | _, _, _ => let f := takeFree s
               (f.1.toNat, f.2)

/-- The trap record of a task killed while it is saved (R343): cluster and slot are those of its image's header (R312); the
core, which no byte of the image gives, is a free value (DESIGN CHOICE, log entry 21). -/
def savedRecord (s : State) (ibase : Nat) (code : Code) (tval kc : Word) : Record × State :=
  let g := savedGang s ibase
  let pc := savedPc s ibase
  let core := takeFree pc.2
  (⟨code, 0, placeBytes 64 [(0, leBytes 2 (codeNum code) ++ zeros 1 ++ leBytes 1 (hdrNat s ibase 34 1) ++
      leBytes 1 (core.1.toNat % 8 + 8 * (hdrNat s ibase 33 1 % 4))), (8, leBytes 8 g.id),
    (16, leBytes 8 tval.toNat ++ leBytes 8 pc.1 ++ leBytes 8 g.lc ++ leBytes 8 kc.toNat)]⟩, core.2)

/-- What this device keeps for an image that is lost: watch entries with their counts (R238), gathers, records, and what the
image holds beside its bytes. -/
def forgetImage (s : State) (ibase : Nat) : State :=
  { s with
    watch := s.watch.map fun e => (e.1, e.2.filter fun w => w.ibase ≠ some ibase)
    gathers := s.gathers.filter fun t => t.ibase ≠ ibase
    tickets := s.tickets.filter fun t => t.ibase ≠ ibase
    kept := mapSet none s.kept ibase none }

/-- Kill the task of a saved image (R325, R328, R329, R348): its plans stop, its abort and release words are written, its
trap record is delivered, the blocks it owns are discarded, and a launch that still waits for it completes with STATUS
KILLED. -/
def killImage (s : State) (ibase : Nat) (code : Code) (reason : Nat) (tval : Word) : State :=
  let g := savedGang s ibase
  let kc := killCode reason g.id 0 (codeNum code)
  let task := memReads s.mem (ibase + 1024) 256
  let xdesc := hdrNat s ibase 16 8
  let waiting := s.ready.filter fun r => r.again && decide (r.launch.image = ibase)
  let s := sendAborts (stopPlans (setImageState s ibase 2) g.id) g
  let s := (List.range (min 8 (fieldLe task 37 1))).foldl (fun s i => writeRelease xdesc g.id kc s (fieldLe task (144 + 8 * i) 8)) s
  let d := savedRecord s ibase code tval kc
  let s := forgetImage (discardOwned (deliver d.2 d.1) ibase) ibase
  let s := { s with ready := s.ready.filter fun r => !waiting.contains r }
  waiting.foldl (fun s r => completeLaunch s r.launch g.id (r.launch.time.getD (0, 0)) 1 kc) s

/-- A gather ends (R320, R327, R328): a block of this device is read now; another device's comes, or its task is killed. -/
def gatherEnd (s : State) (t : Gather) (out : PullOut) : State :=
  let lost := fun (s : State) => killImage s t.ibase .pullUncorrectable 4 0
  let lostHere := fun (s : State) => match locPa s t.desc (t.addr + (blockPlace t.kind t.index).1) with
    | .ok pa => lost (retirePage s pa)
    | .error _ => lost s
  if ticketFor s .saveArea t.ibase t.kind t.member t.index then s
  else if t.bytes.isSome then gatherLocal s t
  else if t.dev = s.devId then
    match out with
    | .here =>
      (match readCopy s t.desc t.addr t.kind t.index with
        | .error (c, _) => if c = causeUncorr then lostHere s else gatherLocal s t
        | .ok _ => gatherLocal s t)
    | .memError => lostHere s
    | .remote _ _ => s
    | .peerLost => s
  else
    match out with
    | .remote bs kts => gatherPut s t (bs, kts.toNat)
    | .memError => lost s
    | .peerLost => killImage s t.ibase .pullPeerLost 4 0
    | .here => s

/-- ABANDON of a SAVE_AREA record: the image is lost, and its task is killed. -/
def abandonImage (s : State) (ibase : Nat) : State :=
  match s.gangs.filter fun g => g.fromImage = some ibase && g.killed.isNone with
  | [] => killImage s ibase .saveArea 5 0
  | running =>
    forgetImage (discardOwned (running.foldl (fun s g => killTask s g.id .saveArea 5 0 0 0) (setImageState s ibase 2)) ibase) ibase

/-- Repeat the work of a record (R325). -/
def retryTicket (s : State) (t : Ticket) : State :=
  let s := { s with tickets := s.tickets.filter fun x => x.ticket ≠ t.ticket }
  if t.code = .saveArea then
    (match s.gathers.find? fun x => x.ibase = t.ibase && x.kind = t.kind && x.member = t.member && x.index = t.index with
      | some x => gatherLocal s x
      | none => writeForClaim s t.ibase t.kind t.member t.index)
  else if t.code = .pullArea then requestPull s t.gang (t.kind, t.member, t.index)
  else
    match findGang s t.gang with
    | none => s
    | some g => putGang s { g with walks := g.walks ++ [(t.member, t.index)] }

/-- Give up the work of a record (R325; DEDUCED, log entry 54). -/
def abandonTicket (s : State) (t : Ticket) : State :=
  let s := { s with tickets := s.tickets.filter fun x => x.ticket ≠ t.ticket }
  if t.code = .saveArea then
    abandonImage s t.ibase
  else
    match findGang s t.gang with
    | none => s
    | some g => failPull s g t.code 5

/-- A write of kisvc (R325). -/
def answerTicket (s : State) (v : Word) : State :=
  match s.tickets.find? fun t => t.ticket = bitsOf v.toNat 63 32 with
  | none => s
  | some t =>
    if v.toNat % 16 = 1 then retryTicket s t else if v.toNat % 16 = 2 then abandonTicket s t else s

end Sys2Proof.Machine
end

