-- ==== Sys2Proof/Machine/Trap.lean ====
section
/-! DEFINITION. Trap: the tr operations and every control register (R350 to R354). Taking a trap, a call or an interrupt
and the returns stand in Ops.lean; Issue.lean makes them happen at a boundary. -/

namespace Sys2Proof.Machine

/-! ### Which accesses a privilege allows (R351) -/

/-- A register that only service privilege may name. -/
def csrService (n : Nat) : Bool :=
  n = 0x001 || n = 0x002 || n = 0x003 || n = 0x009 || n = 0x011 || (decide (0x030 ≤ n) && decide (n ≤ 0x034)) || n = 0x041 ||
  decide (0x800 ≤ n)

/-- A register that user privilege may read and not write. -/
def csrUserRead (n : Nat) : Bool :=
  n = 0x000 || n = 0x007 || n = 0x010 || n = 0x015 || (decide (0x020 ≤ n) && decide (n ≤ 0x02F))

/-! ### Reads -/

/-- kgang (R104). -/
def kgangWord (g : Gang) (m : Nat) : Word :=
  BitVec.ofNat 64 (g.prio % 4 * 2 ^ 26 + g.cluster % 64 * 2 ^ 16 + (getCtx g m).core % 8 * 2 ^ 10 + g.slot % 4 * 2 ^ 8 +
    g.members.length % 16 * 2 ^ 4 + m % 8)

/-- kpres (R311; DEDUCED, log entry 28). -/
def kpresWord (c : Ctx) : Word :=
  BitVec.ofNat 64 (c.presS.toNat + (List.range 8).foldl (fun a j => a + (vget true c.presV j).toNat * 2 ^ (1 + j)) 0 +
    (List.range 16).foldl (fun a t => a + (vget {} c.tiles t).pres.toNat * 2 ^ (9 + t)) 0)

/-- kolb (R35). -/
def kolbWord (c : Ctx) : Word := BitVec.ofNat 64 (c.olfull.toNat * 2 ^ 63 + c.olbase % 2 ^ 20 * 8)
/-- koln (R35; DEDUCED, log entry 81). -/
def kolnWord (c : Ctx) : Word := BitVec.ofNat 64 (c.oltake.toNat * 2 ^ 32 + c.olput.toNat)

/-- ksvec of the member's context slot. -/
def ksvecWord (p : Perf) : Word := ksvecOf p.st (clusterOf p) (oldCtx p).core p.is.old.slot

/-- kxinv as it reads: BUSY while an invalidation this context wrote is incomplete (R279). -/
def kxinvWord (p : Perf) : Word :=
  if p.st.invals.any fun i => i.gang = p.is.old.id && i.member = p.is.m then BitVec.ofNat 64 (2 ^ 63) else 0

/-- The queue port seen through the window (R351 as R56): outside RUN mode no queue is reached, so that a read gives a
free value (DESIGN CHOICE, log entry 8). -/
def readUserPort (p : Perf) : Word × Perf := if (oldCtx p).mode = 0 then popLdq p else freeWord p

/-- The user register of a window number (R351). -/
def windowPlace (k : Nat) : Option (RFile × Nat) :=
  if k < 0x800 ∨ 0x848 ≤ k then none
  else if k < 0x820 then some (.s, k - 0x800)
  else if k < 0x830 then some (.a, k - 0x820)
  else if k < 0x838 then some (.q, k - 0x830)
  else if k < 0x840 then some (.e, k - 0x838)
  else some (.h, k - 0x840)

/-- A user register by its number in the window (R351). -/
def readWindow (p : Perf) (n : Nat) : Word × Perf :=
  let c := oldCtx p
  if n = 0x800 then (0, p)
  else if n = 0x81F then readUserPort p
  else
    let v : Word :=
      if n < 0x820 then vget 0 c.s (n - 0x800)
      else if n < 0x830 then vget 0 c.a (n - 0x820)
      else if n = 0x830 then BitVec.allOnes 64
      else if n < 0x838 then vget 0 c.q (n - 0x830)
      else if n = 0x838 then 0
      else if n < 0x840 then (vget 0 c.e (n - 0x838)).setWidth 64
      else vget 0 c.h (n - 0x840)
    (v, if n = 0x830 ∨ n = 0x838 then p
        else match windowPlace n with
          | none => p
          | some (f, k) => readReg (touchBlock p 0) f k)

/-- Kreg(N) as a read finds it (R351). -/
def readCsr (p : Perf) (n : Nat) : Word × Perf :=
  let c := oldCtx p
  if n = 0x000 then (BitVec.ofNat 64 c.mode, p)
  else if n = 0x001 then (c.kcause, p)
  else if n = 0x002 then (c.ktval, p)
  else if n = 0x003 then (c.kepc, p)
  else if n = 0x004 then (c.kuvec, p)
  else if n = 0x005 then (c.kuie, p)
  else if n = 0x006 then (c.kuip, p)
  else if n = 0x007 then (c.kucause, p)
  else if n = 0x008 then (c.kuepc, p)
  else if n = 0x009 then (ksvecWord p, p)
  else if n = 0x010 then (kgangWord p.is.old p.is.m, p)
  else if n = 0x011 then (BitVec.ofNat 64 p.is.old.kbudget, p)
  else if n = 0x012 then (BitVec.ofNat 64 c.kfdlat, p)
  else if n = 0x013 then (c.kfsr, p)
  else if n = 0x014 then (c.kcfg, p)
  else if n = 0x015 then (c.kfst, p)
  else if n = 0x018 then (kolbWord c, p)
  else if n = 0x019 then (BitVec.ofNat 64 c.olcap, p)
  else if n = 0x01A then (kolnWord c, p)
  else if 0x020 ≤ n ∧ n ≤ 0x02F then readKts p (n - 0x020)
  else if n = 0x030 then (0, p)
  else if n = 0x031 then (BitVec.ofNat 64 p.is.old.launch.xdesc, p)
  else if n = 0x032 then (kxinvWord p, p)
  else if n = 0x033 then (kpresWord c, p)
  else if n = 0x034 then (0, p)
  else if n = 0x040 then (c.kfmie, p)
  else if 0x041 ≤ n ∧ n ≤ 0x05F then (0, p)
  else if 0x800 ≤ n then readWindow p n
  else (0, p)

/-- `tr.csrr sD, kN` (R350, R354). -/
def execTrCsrr (d : SReg) (n : Fin 4096) (s : State) : Host.Outcome State Fault Refusal :=
  slotOp s (always fun p =>
    if !privileged p && csrService n.val then raise p .privilege (BitVec.ofNat 64 n.val)
    else
      let (v, p) := readCsr p n.val
      writeS p d.val 1 v)

/-! ### Writes -/

/-- An instruction address field, bits 17:2 (R352). -/
def codeAddr (v : Word) : Word := BitVec.ofNat 64 (v.toNat % 2 ^ 18 / 4 * 4)

/-- Bits of a register that a write keeps. -/
def keepBits (v : Word) (mask : Nat) : Word := v &&& BitVec.ofNat 64 mask

/-- A write of kuip (R351, R354): bits written as 1 clear; clearing PKT clears every ring's flag (R345). -/
def clearPending (c : Ctx) (v : Word) : Ctx :=
  { c with kuip := c.kuip &&& ~~~v, pktRings := if v.getLsbD 4 then [] else c.pktRings }

/-- A write of kcfg (R304): OVF is read only; MODE 11 stores 10. -/
def writeKcfg (c : Ctx) (v : Word) : Ctx :=
  let mode := if bitsOf v.toNat 2 1 = 3 then 2 else bitsOf v.toNat 2 1
  { c with kcfg := BitVec.ofNat 64 (c.kcfg.toNat % 2 + 2 * mode + (v.getLsbD 3).toNat * 8) }

/-- LAT of kfdlat (R276). -/
def clampLat (v : Word) : Nat :=
  let l := v.toNat % 8192
  if l < 6 then 6 else if 4096 < l then 4096 else l

/-- LIMIT of kbudget (R123). -/
def clampBudget (v : Word) : Nat :=
  let l := v.toNat % 8192
  if l = 0 then 1 else if 4096 < l then 4096 else l

/-- Set the device budget limit (R123). -/
def setBudget (s : State) (v : Word) : State := { s with kbudget := clampBudget v }

/-- A link named by kflctl enters a state with its record (R392, R414). -/
def linkRecord (code : Code) (port cause peer retrans : Nat) : Record :=
  ⟨code, 3, leBytes 2 (codeNum code) ++ leBytes 1 port ++ leBytes 1 cause ++ leBytes 2 peer ++ zeros 2 ++ leBytes 4 retrans⟩

/-- Retransmissions in the last 1 ms: at most those counted since the link entered UP, and more than 16 where they fence
the link (R392); which of them the last 1 ms holds is a free value (DESIGN CHOICE, log entry 5). -/
def recentRetrans (s : State) (l : Link) (cause : Nat) : Nat × State :=
  let (v, s) := takeFree s
  (if cause = 1 then 17 + v.toNat % (l.retrans - 16) else v.toNat % (l.retrans + 1), s)

/-- A link becomes FENCED, with its record and its log entry (R389, R392). -/
def fenceLink (s : State) (port cause : Nat) : State :=
  let l := linkOf s port
  let (n, s) := recentRetrans s l cause
  let s := setLink s port { l with st := .fenced, heldPeer := none, retReq := 0, retRsp := 0 }
  let s := deliver s (linkRecord .linkFenced port cause (if l.st = .down then 0 else l.peer) n)
  logAppend s 4 (logPort port) 0 (codeNum .linkFenced)

/-- A link enters TRAINING (R389); one that left through FENCED or DOWN keeps no far end. -/
def trainLink (s : State) (port : Nat) : State := setLink s port { linkOf s port with st := .training }

/-- UNFENCE of a FENCED link (R389). -/
def unfenceLink (s : State) (port : Nat) : State :=
  if linkPort port && decide ((linkOf s port).st = .fenced) then trainLink s port else s

/-- FENCE of a link that is not FENCED. -/
def fenceByCtl (s : State) (port : Nat) : State :=
  if linkPort port && decide ((linkOf s port).st ≠ .fenced) then fenceLink s port 2 else s

/-- RETRAIN of a link: from any state but FENCED, which only UNFENCE leaves (R389). -/
def retrainLink (s : State) (port : Nat) : State :=
  let l := linkOf s port
  if linkPort port && decide (l.st ≠ .fenced) then
    setLink s port { l with st := .training, heldPeer := if l.st = .up then some (l.peer, l.peerPort) else l.heldPeer }
  else s

/-- A write of kflctl (R414). -/
def writeKflctl (s : State) (v : Word) : State :=
  let port := v.toNat % 64
  let act := bitsOf v.toNat 11 8
  if act = 1 then fenceByCtl s port else if act = 2 then unfenceLink s port else if act = 3 then retrainLink s port else s

/-- Set ksvec of the member's context slot (R352). -/
def writeKsvec (p : Perf) (v : Word) : Perf :=
  let co := (oldCtx p).core
  let k := getCore p.st (clusterOf p) co
  let w := keepBits v (2 ^ 63 + 0x3FFC)
  { p with st := setCore p.st (clusterOf p) co { k with ksvec := vset k.ksvec p.is.old.slot (some w) } }

/-- A write of the queue port through the window. -/
def writeUserPort (p : Perf) (v : Word) : Perf := if (oldCtx p).mode = 0 then pushSdq p 1 v else p

/-- A write of a user register by its number in the window (R351): performed at c. -/
def writeWindow (p : Perf) (n : Nat) (v : Word) : Perf :=
  if n = 0x800 ∨ n = 0x830 ∨ n = 0x838 then p
  else if n = 0x81F then writeUserPort p v
  else
    modWork (touchBlock p 0) fun c =>
      if n < 0x820 then { c with s := vset c.s (n - 0x800) v }
      else if n < 0x830 then { c with a := vset c.a (n - 0x820) v }
      else if n < 0x838 then { c with q := vset c.q (n - 0x830) v }
      else if n < 0x840 then { c with e := vset c.e (n - 0x838) (v.setWidth 8) }
      else { c with h := vset c.h (n - 0x840) v }

/-- A gang's working copy after a device-level operation acted on it: answers of kisvc act on the device's gangs, so the
issuing gang stands among them while they run. -/
def withDevice (p : Perf) (f : State → State) : Perf :=
  let s := f (putGang p.st p.is.work)
  match findGang s p.is.work.id with
  | none => { p with st := s }
  | some g => { st := s, is := { p.is with work := g } }

/-- Kreg(N) = v (R351): a write of a read-only register has no effect, and reserved bits store 0 (R350; DEDUCED, log entry 73). -/
def writeCsr (p : Perf) (n : Nat) (v : Word) : Perf :=
  if n = 0x003 then modWork p fun c => { c with kepc := codeAddr v }
  else if n = 0x004 then modWork p fun c => { c with kuvec := codeAddr v }
  else if n = 0x005 then modWork p fun c => { c with kuie := keepBits v 0xFF }
  else if n = 0x006 then modWork p fun c => clearPending c v
  else if n = 0x008 then modWork p fun c => { c with kuepc := codeAddr v }
  else if n = 0x009 then writeKsvec p v
  else if n = 0x011 then { p with st := setBudget p.st v }
  else if n = 0x012 then modWork p fun c => { c with kfdlat := clampLat v }
  else if n = 0x013 then modWork p fun c => { c with kfsr := keepBits v 0x7FFFC1 }
  else if n = 0x014 then modWork p fun c => writeKcfg c v
  else if n = 0x018 then modWork p fun c => { c with olfull := v.getLsbD 63, olbase := bitsOf v.toNat 22 3 }
  else if n = 0x019 then modWork p fun c => { c with olcap := min (v.toNat % 2 ^ 17) 65536 }
  else if n = 0x01A then modWork p fun c =>
    { c with oltake := BitVec.ofNat 32 (bitsOf v.toNat 63 32), olput := BitVec.ofNat 32 (bitsOf v.toNat 31 0) }
  else if n = 0x030 then writeKlsvc p v
  else if n = 0x032 then writeKxinv p v
  else if n = 0x034 then withDevice p fun s => answerTicket s v
  else if n = 0x040 then modWork p fun c => { c with kfmie := keepBits v (2 ^ 48 - 1) }
  else if n = 0x041 then { p with st := writeKflctl p.st v }
  else if 0x800 ≤ n then writeWindow p n v
  else p

/-- `tr.csrw sD, kN` (R350, R354). -/
def execTrCsrw (d : SReg) (n : Fin 4096) (s : State) : Host.Outcome State Fault Refusal :=
  slotOp s (always fun p =>
    if !privileged p && (csrService n.val || csrUserRead n.val) then raise p .privilege (BitVec.ofNat 64 n.val)
    else
      let (v, p) := readS p d.val
      writeCsr p n.val v)

/-! ### The other tr operations (R353, R354) -/

/-- `tr.trap k` (R340): the call is taken at the boundary after the bundle. -/
def execTrTrap (k : BitVec 16) (s : State) : Host.Outcome State Fault Refusal :=
  slotOp s (always fun p => { p with is := { p.is with calls := p.is.calls ++ [(p.is.m, k.setWidth 64)] } })

/-- `tr.rft` (R341, R354). -/
def execTrRft (q : QReg) (s : State) : Host.Outcome State Fault Refusal :=
  slotOp s (gated q fun p =>
    if (oldCtx p).mode < 2 then raise p .privilege 0 else { p with is := { p.is with rft := true } })

/-- `tr.rfu` (R347, R354). -/
def execTrRfu (q : QReg) (s : State) : Host.Outcome State Fault Refusal :=
  slotOp s (gated q fun p =>
    if (oldCtx p).mode ≠ 1 then violate p else { p with is := { p.is with rfu := true } })

/-- `tr.yld` (R354): asks for a pre-emption at the boundary after the bundle; no effect outside MODE 0 (DEDUCED, log entry 53). -/
def execTrYld (q : QReg) (s : State) : Host.Outcome State Fault Refusal :=
  slotOp s (gated q fun p =>
    if (oldCtx p).mode = 0 then { p with is := { p.is with work := { p.is.work with yld := true } } } else p)

/-- `tr.halt` (R102, R143, R354). -/
def execTrHalt (q : QReg) (s : State) : Host.Outcome State Fault Refusal :=
  slotOp s (gated q fun p =>
    if (oldCtx p).mode ≠ 0 then violate p else { p with is := { p.is with halt := some p.is.slot } })

/-- `tr.kill sA` (R348, R354): reason 1, argument Sreg[A][15:0] (DEDUCED, log entry 26). -/
def execTrKill (a : SReg) (q : QReg) (s : State) : Host.Outcome State Fault Refusal :=
  slotOp s (gated q fun p =>
    let (x, p) := readS p a.val
    let arg := x.toNat % 65536
    let k : KillReq := ⟨codeNum .kill, 1, arg, BitVec.ofNat 64 arg, p.is.m⟩
    { p with is := { p.is with work := { p.is.work with kill := p.is.work.kill.orElse fun _ => some k } } })

end Sys2Proof.Machine
end

