-- ==== Sys2Proof/Machine/Reshard.lean ====
section
/-! DEFINITION. Reshard: rs.go and rs.stat, which start Madder plans and read their status (R433, R434). -/

namespace Sys2Proof.Machine

/-- The RS status word (R434). -/
def rsWord : Option RsStat → Word
  | none => 0
  | some r => BitVec.ofNat 64 (r.state % 8 * 2 ^ 61 + r.cause % 256 * 2 ^ 48 + r.steps % 2 ^ 48)

/-- Replace the RS status of a member. -/
def setRsStat (s : State) (r : RsStat) : State :=
  { s with rsStats := r :: s.rsStats.filter fun x => !(x.gang = r.gang && x.member = r.member) }

/-- `rs.go sA` (R433): a context has at most one plan STARTING or RUNNING; the start itself happens in wall time (DEDUCED, log entry 42). -/
def execRsGo (a : SReg) (q : QReg) (s : State) : Host.Outcome State Fault Refusal :=
  slotOp s (gated q fun p =>
    let (x, p) := readS p a.val
    if x.toNat % 256 ≠ 0 then raise p .farAlign x
    else
      let g := p.is.old
      if ownPlan p.st g.id p.is.m || (rsStatOf p.st g.id p.is.m).any fun r => decide (r.state = 1) || decide (r.state = 2) then
        let r := (rsStatOf p.st g.id p.is.m).getD ⟨g.id, p.is.m, logicalCycle p, 0, 0, 0, true⟩
        { p with st := setRsStat p.st { r with state := 6, cause := 0x32, steps := 0, refused := true } }
      else
        let st := setRsStat p.st ⟨g.id, p.is.m, logicalCycle p, 1, 0, 0, false⟩
        let start : PlanStart := ⟨g.id, p.is.m, x.toNat, g.launch.xdesc, g.tenant, (oldCtx p).interval,
          entryOf p.st g p.is.m 7 false, cfgFar (oldCtx p)⟩
        modWork { p with st := { st with starts := st.starts ++ [start] } } fun c => { c with rsArea := x.toNat })

/-- `rs.stat sD` (R433). -/
def execRsStat (d : SReg) (q : QReg) (s : State) : Host.Outcome State Fault Refusal :=
  slotOp s (gated q fun p => writeS p d.val 1 (rsWord (rsStatOf p.st p.is.old.id p.is.m)))

end Sys2Proof.Machine
end

