-- ==== Sys2Proof/Machine/Scalar.lean ====
section
/-! DEFINITION. Scalar: the sx operations (R144 to R151). -/

namespace Sys2Proof.Machine

/-- `sx.nop` (R48): nothing. -/
def execSxNop (s : State) : Host.Outcome State Fault Refusal := slotOp s id

/-- R144 for two operands: both read by the type, the exact result wrapped and extended. -/
def intOp2 (lat : Nat) (op : IntTy → Int → Int → Int) (d a b : SReg) (ty : IntTy) (p : Perf) : Perf :=
  let (x, p) := readS p a.val
  let (y, p) := readS p b.val
  writeS p d.val lat (typeExt ty (op ty (typeRead ty x) (typeRead ty y)))

/-- R144 for one operand, given as its full word. -/
def intOp1 (op : IntTy → Word → Int) (d a : SReg) (ty : IntTy) (p : Perf) : Perf :=
  let (x, p) := readS p a.val
  writeS p d.val 1 (typeExt ty (op ty x))

/-- R146: the pattern of A, and B in full. -/
def shiftOp (op : IntTy → Word → Nat → Nat) (d a b : SReg) (ty : IntTy) (p : Perf) : Perf :=
  let (x, p) := readS p a.val
  let (y, p) := readS p b.val
  writeS p d.val 1 (typeExt ty (op ty x y.toNat : Nat))

/-- R151 for two FP32 operands. -/
def fpOp2 (lat : Nat) (op : Nat → Nat → Nat) (d a b : SReg) (p : Perf) : Perf :=
  let (x, p) := readS p a.val
  let (y, p) := readS p b.val
  writeS p d.val lat (BitVec.ofNat 64 (op (bitsOf x.toNat 31 0) (bitsOf y.toNat 31 0)))

/-- `sx.add.T` (R145). -/
def execSxAdd (d a b : SReg) (ty : IntTy) (q : QReg) (s : State) : Host.Outcome State Fault Refusal :=
  slotOp s (gated q (intOp2 1 (fun _ x y => x + y) d a b ty))

/-- `sx.sub.T` (R145). -/
def execSxSub (d a b : SReg) (ty : IntTy) (q : QReg) (s : State) : Host.Outcome State Fault Refusal :=
  slotOp s (gated q (intOp2 1 (fun _ x y => x - y) d a b ty))

/-- `sx.mul.T` (R145). -/
def execSxMul (d a b : SReg) (ty : IntTy) (q : QReg) (s : State) : Host.Outcome State Fault Refusal :=
  slotOp s (gated q (intOp2 3 (fun _ x y => x * y) d a b ty))

/-- `sx.mulh.T` (R145). -/
def execSxMulh (d a b : SReg) (ty : IntTy) (q : QReg) (s : State) : Host.Outcome State Fault Refusal :=
  slotOp s (gated q (intOp2 3 (fun ty x y => x * y / 2 ^ tyWidth ty) d a b ty))

/-- `sx.div.T` (R145). -/
def execSxDiv (d a b : SReg) (ty : IntTy) (q : QReg) (s : State) : Host.Outcome State Fault Refusal :=
  slotOp s (gated q (intOp2 20 (fun _ x y => divInt x y) d a b ty))

/-- `sx.rem.T` (R145). -/
def execSxRem (d a b : SReg) (ty : IntTy) (q : QReg) (s : State) : Host.Outcome State Fault Refusal :=
  slotOp s (gated q (intOp2 20 (fun _ x y => remInt x y) d a b ty))

/-- `sx.min.T` (R145). -/
def execSxMin (d a b : SReg) (ty : IntTy) (q : QReg) (s : State) : Host.Outcome State Fault Refusal :=
  slotOp s (gated q (intOp2 1 (fun _ x y => min x y) d a b ty))

/-- `sx.max.T` (R145). -/
def execSxMax (d a b : SReg) (ty : IntTy) (q : QReg) (s : State) : Host.Outcome State Fault Refusal :=
  slotOp s (gated q (intOp2 1 (fun _ x y => max x y) d a b ty))

/-- `sx.and.T` (R145). -/
def execSxAnd (d a b : SReg) (ty : IntTy) (q : QReg) (s : State) : Host.Outcome State Fault Refusal :=
  slotOp s (gated q (intOp2 1 (fun ty x y => andInt (tyWidth ty) x y) d a b ty))

/-- `sx.or.T` (R145). -/
def execSxOr (d a b : SReg) (ty : IntTy) (q : QReg) (s : State) : Host.Outcome State Fault Refusal :=
  slotOp s (gated q (intOp2 1 (fun ty x y => orInt (tyWidth ty) x y) d a b ty))

/-- `sx.xor.T` (R145). -/
def execSxXor (d a b : SReg) (ty : IntTy) (q : QReg) (s : State) : Host.Outcome State Fault Refusal :=
  slotOp s (gated q (intOp2 1 (fun ty x y => xorInt (tyWidth ty) x y) d a b ty))

/-- `sx.shl.T` (R146). -/
def execSxShl (d a b : SReg) (ty : IntTy) (q : QReg) (s : State) : Host.Outcome State Fault Refusal :=
  slotOp s (gated q (shiftOp (fun ty x amt => shlBits (tyWidth ty) (tyBits ty x) amt) d a b ty))

/-- `sx.shr.T` (R146). -/
def execSxShr (d a b : SReg) (ty : IntTy) (q : QReg) (s : State) : Host.Outcome State Fault Refusal :=
  slotOp s (gated q (shiftOp (fun ty x amt => shrBits (tyWidth ty) (tyBits ty x) amt) d a b ty))

/-- `sx.sra.T` (R146). -/
def execSxSra (d a b : SReg) (ty : IntTy) (q : QReg) (s : State) : Host.Outcome State Fault Refusal :=
  slotOp s (gated q (shiftOp (fun ty x amt => sraBits (tyWidth ty) (tyBits ty x) amt) d a b ty))

/-- `sx.ext.T` (R146). -/
def execSxExt (d a b : SReg) (ty : IntTy) (q : QReg) (s : State) : Host.Outcome State Fault Refusal :=
  slotOp s (gated q (shiftOp (fun ty x amt => extBits (tyWidth ty) x.toNat amt) d a b ty))

/-- `sx.clz.T` (R145). -/
def execSxClz (d a : SReg) (ty : IntTy) (q : QReg) (s : State) : Host.Outcome State Fault Refusal :=
  slotOp s (gated q (intOp1 (fun ty x => (countLeadZero (tyWidth ty) (tyBits ty x) : Nat)) d a ty))

/-- `sx.ctz.T` (R145). -/
def execSxCtz (d a : SReg) (ty : IntTy) (q : QReg) (s : State) : Host.Outcome State Fault Refusal :=
  slotOp s (gated q (intOp1 (fun ty x => (countTrailZero (tyBits ty x) (tyWidth ty) : Nat)) d a ty))

/-- `sx.cnt.T` (R145). -/
def execSxCnt (d a : SReg) (ty : IntTy) (q : QReg) (s : State) : Host.Outcome State Fault Refusal :=
  slotOp s (gated q (intOp1 (fun ty x => (countOnes (tyBits ty x) (tyWidth ty) : Nat)) d a ty))

/-- `sx.mov.T` (R145). -/
def execSxMov (d a : SReg) (ty : IntTy) (q : QReg) (s : State) : Host.Outcome State Fault Refusal :=
  slotOp s (gated q (intOp1 (fun ty x => typeRead ty x) d a ty))

/-- `sx.ceq.T` (R145). -/
def execSxCeq (d a b : SReg) (ty : IntTy) (q : QReg) (s : State) : Host.Outcome State Fault Refusal :=
  slotOp s (gated q (intOp2 1 (fun _ x y => ofBool (x == y)) d a b ty))

/-- `sx.clt.T` (R145). -/
def execSxClt (d a b : SReg) (ty : IntTy) (q : QReg) (s : State) : Host.Outcome State Fault Refusal :=
  slotOp s (gated q (intOp2 1 (fun _ x y => ofBool (decide (x < y))) d a b ty))

/-- `sx.cle.T` (R145). -/
def execSxCle (d a b : SReg) (ty : IntTy) (q : QReg) (s : State) : Host.Outcome State Fault Refusal :=
  slotOp s (gated q (intOp2 1 (fun _ x y => ofBool (decide (x ≤ y))) d a b ty))

/-- `sx.sel.T` (R147): always performed; Q is the selector. -/
def execSxSel (d a b : SReg) (ty : IntTy) (q : QReg) (s : State) : Host.Outcome State Fault Refusal :=
  slotOp s (always fun p =>
    let (x, p) := readS p a.val
    let (y, p) := readS p b.val
    let (c, p) := readQ p q.val
    writeS p d.val 1 (wordOfInt (if c.getLsbD 0 then typeRead ty x else typeRead ty y)))

/-- The predicate `sx.qset` writes (R148): the mask itself at 64 bits, else one truth value over all lanes. -/
def qsetMask (ty : IntTy) (x : Word) : Word :=
  if tyWidth ty = 64 then x else if typeRead ty x ≠ 0 then BitVec.allOnes 64 else 0

/-- `sx.qset.T` (R148). -/
def execSxQset (d : QReg) (a : SReg) (ty : IntTy) (q : QReg) (s : State) : Host.Outcome State Fault Refusal :=
  slotOp s (gated q fun p =>
    let (x, p) := readS p a.val
    writeQ p d.val 1 (BitVec.allOnes 64) (qsetMask ty x))

/-- `sx.fadd.M` (R151). -/
def execSxFadd (d a b : SReg) (r : Rnd) (q : QReg) (s : State) : Host.Outcome State Fault Refusal :=
  slotOp s (gated q (fpOp2 3 (fAdd f32F r) d a b))

/-- `sx.fmul.M` (R151). -/
def execSxFmul (d a b : SReg) (r : Rnd) (q : QReg) (s : State) : Host.Outcome State Fault Refusal :=
  slotOp s (gated q (fpOp2 3 (fMul f32F r) d a b))

/-- `sx.fma.M` (R151): the addend is the old Sreg[D], read after A and B. -/
def execSxFma (d a b : SReg) (r : Rnd) (q : QReg) (s : State) : Host.Outcome State Fault Refusal :=
  slotOp s (gated q fun p =>
    let (x, p) := readS p a.val
    let (y, p) := readS p b.val
    let (z, p) := readS p d.val
    writeS p d.val 4 (BitVec.ofNat 64 (fFma f32F r (bitsOf x.toNat 31 0) (bitsOf y.toNat 31 0) (bitsOf z.toNat 31 0))))

/-- `sx.fceq` (R151): the rounding bits are ignored. -/
def execSxFceq (d a b : SReg) (_r : Rnd) (q : QReg) (s : State) : Host.Outcome State Fault Refusal :=
  slotOp s (gated q (fpOp2 1 (fun x y => (fEq f32F x y).toNat) d a b))

/-- `sx.fclt` (R151): the rounding bits are ignored. -/
def execSxFclt (d a b : SReg) (_r : Rnd) (q : QReg) (s : State) : Host.Outcome State Fault Refusal :=
  slotOp s (gated q (fpOp2 1 (fun x y => (fLt f32F x y).toNat) d a b))

/-- `sx.fcvi.M` (R151): to i64, saturated; NaN gives 0. -/
def execSxFcvi (d a : SReg) (r : Rnd) (q : QReg) (s : State) : Host.Outcome State Fault Refusal :=
  slotOp s (gated q fun p =>
    let (x, p) := readS p a.val
    writeS p d.val 2 (wordOfInt ((f32F.read (bitsOf x.toNat 31 0)).toInt r (-2 ^ 63) (2 ^ 63 - 1))))

/-- `sx.fcif.M` (R151): from i64, rounded to FP32. -/
def execSxFcif (d a : SReg) (r : Rnd) (q : QReg) (s : State) : Host.Outcome State Fault Refusal :=
  slotOp s (gated q fun p =>
    let (x, p) := readS p a.val
    writeS p d.val 2 (BitVec.ofNat 64 (f32F.write r (FVal.ofInt (typeRead .i64 x) 0 false))))

end Sys2Proof.Machine
end

