-- ==== Sys2Proof/Machine/Slots.lean ====
section
/-! DEFINITION. Slots: the meaning of each slot of a bundle, for the issue of bundles (R47). -/

namespace Sys2Proof.Machine

/-- Perform one slot by its meaning; a step that is no slot stands in no bundle. -/
def execSlot (i : Instr) (s : State) : Host.Outcome State Fault Refusal :=
  match i with
  | .sxNop => execSxNop s
  | .sxAdd d a b ty q => execSxAdd d a b ty q s
  | .sxSub d a b ty q => execSxSub d a b ty q s
  | .sxMul d a b ty q => execSxMul d a b ty q s
  | .sxMulh d a b ty q => execSxMulh d a b ty q s
  | .sxDiv d a b ty q => execSxDiv d a b ty q s
  | .sxRem d a b ty q => execSxRem d a b ty q s
  | .sxMin d a b ty q => execSxMin d a b ty q s
  | .sxMax d a b ty q => execSxMax d a b ty q s
  | .sxAnd d a b ty q => execSxAnd d a b ty q s
  | .sxOr d a b ty q => execSxOr d a b ty q s
  | .sxXor d a b ty q => execSxXor d a b ty q s
  | .sxShl d a b ty q => execSxShl d a b ty q s
  | .sxShr d a b ty q => execSxShr d a b ty q s
  | .sxSra d a b ty q => execSxSra d a b ty q s
  | .sxClz d a ty q => execSxClz d a ty q s
  | .sxCtz d a ty q => execSxCtz d a ty q s
  | .sxCnt d a ty q => execSxCnt d a ty q s
  | .sxExt d a b ty q => execSxExt d a b ty q s
  | .sxMov d a ty q => execSxMov d a ty q s
  | .sxCeq d a b ty q => execSxCeq d a b ty q s
  | .sxClt d a b ty q => execSxClt d a b ty q s
  | .sxCle d a b ty q => execSxCle d a b ty q s
  | .sxSel d a b ty q => execSxSel d a b ty q s
  | .sxQset d a ty q => execSxQset d a ty q s
  | .sxFadd d a b r q => execSxFadd d a b r q s
  | .sxFmul d a b r q => execSxFmul d a b r q s
  | .sxFma d a b r q => execSxFma d a b r q s
  | .sxFceq d a b r q => execSxFceq d a b r q s
  | .sxFclt d a b r q => execSxFclt d a b r q s
  | .sxFcvi d a r q => execSxFcvi d a r q s
  | .sxFcif d a r q => execSxFcif d a r q s
  | .siLi d k => execSiLi d k s
  | .siIh1 d k => execSiIh1 d k s
  | .siIh2 d k => execSiIh2 d k s
  | .siIh3 d k => execSiIh3 d k s
  | .siAddi d k => execSiAddi d k s
  | .siOri d k => execSiOri d k s
  | .siCeqi d k => execSiCeqi d k s
  | .siClti d k => execSiClti d k s
  | .brJ k => execBrJ k s
  | .brCall d k => execBrCall d k s
  | .brBz d k => execBrBz d k s
  | .brBnz d k => execBrBnz d k s
  | .brBlt d k => execBrBlt d k s
  | .brBge d k => execBrBge d k s
  | .brBq d k => execBrBq d k s
  | .brBnq d k => execBrBnq d k s
  | .brJr a => execBrJr a s
  | .brRet a => execBrRet a s
  | .brLvl a b l => execBrLvl a b l s
  | .brLoop l n => execBrLoop l n s
  | .brLend l a => execBrLend l a s
  | .brBud d => execBrBud d s
  | .adLd d p a b z q => execAdLd d p a b z q s
  | .adSt d p a b z q => execAdSt d p a b z q s
  | .adVld d p a b q => execAdVld d p a b q s
  | .adVst d p a b q => execAdVst d p a b q s
  | .adFld d p a b z q => execAdFld d p a b z q s
  | .adFst d p a b z q => execAdFst d p a b z q s
  | .adTch p a b q => execAdTch p a b q s
  | .adAdd d a b q => execAdAdd d a b q s
  | .adMov d b q => execAdMov d b q s
  | .adGet d a q => execAdGet d a q s
  | .adAadd d a b o w q => execAdAadd d a b o w q s
  | .adAand d a b o w q => execAdAand d a b o w q s
  | .adAor d a b o w q => execAdAor d a b o w q s
  | .adAxor d a b o w q => execAdAxor d a b o w q s
  | .adAmin d a b o w q => execAdAmin d a b o w q s
  | .adAmax d a b o w q => execAdAmax d a b o w q s
  | .adNmin d a b o w q => execAdNmin d a b o w q s
  | .adNmax d a b o w q => execAdNmax d a b o w q s
  | .adXchg d a b o w q => execAdXchg d a b o w q s
  | .adCas d a b o w q => execAdCas d a b o w q s
  | .adFadd d a b o q => execAdFadd d a b o q s
  | .adBadd d a b o q => execAdBadd d a b o q s
  | .vxAdd d a b f q r => execVxAdd d a b f q r s
  | .vxSub d a b f q r => execVxSub d a b f q r s
  | .vxMul d a b f q r => execVxMul d a b f q r s
  | .vxFma d a b f q r => execVxFma d a b f q r s
  | .vxMin d a b f q => execVxMin d a b f q s
  | .vxMax d a b f q => execVxMax d a b f q s
  | .vxAbs d a f q => execVxAbs d a f q s
  | .vxNeg d a f q => execVxNeg d a f q s
  | .vxAnd d a b q => execVxAnd d a b q s
  | .vxOr d a b q => execVxOr d a b q s
  | .vxXor d a b q => execVxXor d a b q s
  | .vxNot d a q => execVxNot d a q s
  | .vxShl d a b f q => execVxShl d a b f q s
  | .vxShr d a b f q => execVxShr d a b f q s
  | .vxSra d a b f q => execVxSra d a b f q s
  | .vxMulh d a b f q => execVxMulh d a b f q s
  | .vxAdds d a b f q => execVxAdds d a b f q s
  | .vxSubs d a b f q => execVxSubs d a b f q s
  | .vxMov d a q => execVxMov d a q s
  | .vxSel d a b q => execVxSel d a b q s
  | .vxCeq d a b f q => execVxCeq d a b f q s
  | .vxCne d a b f q => execVxCne d a b f q s
  | .vxClt d a b f q => execVxClt d a b f q s
  | .vxCle d a b f q => execVxCle d a b f q s
  | .vxQand d a b q => execVxQand d a b q s
  | .vxQor d a b q => execVxQor d a b q s
  | .vxQxor d a b q => execVxQxor d a b q s
  | .vxQnot d a q => execVxQnot d a q s
  | .vxPerm d a b q => execVxPerm d a b q s
  | .vxLsh d a b q => execVxLsh d a b q s
  | .vxLrot d a b q => execVxLrot d a b q s
  | .vxBcast d a f q => execVxBcast d a f q s
  | .vxExt d a b f q => execVxExt d a b f q s
  | .vxRadd d a f q => execVxRadd d a f q s
  | .vxRmax d a f q => execVxRmax d a f q s
  | .vxRmin d a f q => execVxRmin d a f q s
  | .vxRcp d a f q => execVxRcp d a f q s
  | .vxRsq d a f q => execVxRsq d a f q s
  | .vxExp2 d a f q => execVxExp2 d a f q s
  | .vxLog2 d a f q => execVxLog2 d a f q s
  | .vyCvt d a part sf f q r => execVyCvt d a part sf f q r s
  | .vyCvs d a part sf f q => execVyCvs d a part sf f q s
  | .vyCvo d a part sf f q => execVyCvo d a part sf f q s
  | .vyPpk d a n3 sf n q => execVyPpk d a n3 sf n q s
  | .vyPun d a n3 sf n q => execVyPun d a n3 sf n q s
  | .mxMma t z a lake f pl => execMxMma t z a lake f pl s
  | .mxMms t z a lake f pl => execMxMms t z a lake f pl s
  | .mxClr t q => execMxClr t q s
  | .mxDrn t clr a hi b q => execMxDrn t clr a hi b q s
  | .mxFil t a hi b q => execMxFil t a hi b q s
  | .mxSt t out a f q => execMxSt t out a f q s
  | .mxLd t a bf q => execMxLd t a bf q s
  | .mxCmp a inc b f q => execMxCmp a inc b f q s
  | .mxTsr t b q => execMxTsr t b q s
  | .mxAcp t add src q => execMxAcp t add src q s
  | .lkAlloc d a b f sp q => execLkAlloc d a b f sp q s
  | .lkLoad a q => execLkLoad a q s
  | .lkPin a q => execLkPin a q s
  | .lkUnpin a q => execLkUnpin a q s
  | .lkRevk a q => execLkRevk a q s
  | .lkQry d a q => execLkQry d a q s
  | .lkQuota a b q => execLkQuota a b q s
  | .lkSclr a q => execLkSclr a q s
  | .cpLvl d a b ch q => execCpLvl d a b ch q s
  | .cpSrc a ch far q => execCpSrc a ch far q s
  | .cpDst a ch far q => execCpDst a ch far q s
  | .cpBnd d a b ch q => execCpBnd d a b ch q s
  | .cpGo a b ch dec q => execCpGo a b ch dec q s
  | .cpWmk d ch q => execCpWmk d ch q s
  | .cpCncl ch q => execCpCncl ch q s
  | .cpRpl a q => execCpRpl a q s
  | .cpBput a q => execCpBput a q s
  | .cpBlat a q => execCpBlat a q s
  | .rsGo a q => execRsGo a q s
  | .rsStat d q => execRsStat d q s
  | .fxPush port b q => execFxPush port b q s
  | .fxPop port b q => execFxPop port b q s
  | .fxSt port a b w q => execFxSt port a b w q s
  | .fxLd port a w q => execFxLd port a w q s
  | .fxAt port a b op q => execFxAt port a b op q s
  | .fxRep port a b w q => execFxRep port a b w q s
  | .fxMark port b q => execFxMark port b q s
  | .fxDrn b q => execFxDrn b q s
  | .fxMsg port b q => execFxMsg port b q s
  | .fxLst port b q => execFxLst port b q s
  | .syFence ord sc q => execSyFence ord sc q s
  | .syXf paths q => execSyXf paths q s
  | .syDrn d paths sc q => execSyDrn d paths sc q s
  | .syWait d sc q => execSyWait d sc q s
  | .syPhase d q => execSyPhase d q s
  | .syLcr d q => execSyLcr d q s
  | .trTrap k => execTrTrap k s
  | .trRft q => execTrRft q s
  | .trRfu q => execTrRfu q s
  | .trCsrr d n => execTrCsrr d n s
  | .trCsrw d n => execTrCsrw d n s
  | .trYld q => execTrYld q s
  | .trHalt q => execTrHalt q s
  | .trKill a q => execTrKill a q s
  | .scUse a b q => execScUse a b q s
  | .scLd d a b q => execScLd d a b q s
  | .scLdm a b q => execScLdm a b q s
  | .pxRep n => execPxRep n s
  | .pxFirst l => execPxFirst l s
  | .pxLast l => execPxLast l s
  | .pxSeg n => execPxSeg n s
  | _ => .next s

end Sys2Proof.Machine
end

