-- ==== Sys2Proof/Machine/Attempt.lean ====
section
/-! DEFINITION. Attempt: what a gang's bundles at one logical cycle would do: results that land, held writes, reissues,
the slots, store pairing and back edges, on a tentative state (R54, R71, R106, R110 to R143). Nothing is final before
Issue.lean commits it. -/

namespace Sys2Proof.Machine

/-! ### What the logical clock brings due (R114, R310) -/

/-- A result that is due and cannot land freezes the gang: on its far data, or on its absent block. -/
def stuckResult (p : Perf) (r : Result) : Perf :=
  let c := workCtx p
  if resultReady c r then p
  else
    match r.far with
    | some id =>
      if c.farq.any fun o => o.id = id && o.done then touchBlock p (if r.file = .v then vecBlock r.num else 0)
      else freezeOn p .farQueue
    | none => touchBlock p (if r.file = .v then vecBlock r.num else 0)

/-! ### Held writes and appends (R36, R37, R310, R318) -/

/-- Change the member both as the bundle reads it and in the working copy: effects that belong to an earlier issue. -/
def modBoth (p : Perf) (f : Ctx → Ctx) : Perf :=
  { p with is := { p.is with old := modCtx p.is.old p.is.m f, work := modCtx p.is.work p.is.m f } }

/-- Held writes due at `t`, in the order of one cycle: matrix stores before vector conversions (R37). R37 orders M before V0
and V1 within a bundle, yet the appends of an mx.st in OUT mode come at c + 4 and those of a vy.cvo at c + 3: for the two in
one bundle the cycles decide, and the vy.cvo appends first (DESIGN CHOICE, log entry 104). -/
def dueHeld (c : Ctx) (t : Nat) : List Held := cycleHeld (c.held.filter fun h => decide (h.due ≤ t))

/-- OutlierAppend (R36): the ring after it, the entry's address when it was written, and whether the element is written as
NaN. An entry outside the allocation is not written (R174, R219). -/
def appendOutlier (g : Gang) (r : RingRegs) : RingRegs × Option Nat :=
  let a := r.base * 8 + 8 * (r.put.toNat % r.cap)
  if r.cap ≠ 0 ∧ (r.put - r.take).toNat < r.cap ∧ inAlloc g a 8 then ({ r with put := r.put + 1 }, some a)
  else ({ r with full := true }, none)

/-- NaN code of a tapered format. -/
def nanTaper (t6 : Bool) : Nat := if t6 then 32 else 128

/-- Write a narrow element of vD (R318). -/
def setVecByte (c : Ctx) (d i code : Nat) : Ctx :=
  { c with v := vmod c.v d fun x =>
      (x &&& ~~~(BitVec.ofNat 2048 (255 * 2 ^ (8 * i)))) ||| BitVec.ofNat 2048 (code % 256 * 2 ^ (8 * i)) }

/-- Write an element of an mx.st as NaN among the bytes that store writes this cycle (R218, R318): the byte of a
row-major layout, or the sign plane's bit of a planar one. -/
def nanInto (tgt i : Nat) (t6 : Bool) (h : Held) : Held :=
  match h.kind with
  | .bytes a d =>
    if storePlanes (StFmt.ofCode tgt) = 0 then
      { h with kind := .bytes a (patchBytes d i [BitVec.ofNat 8 (nanTaper t6)]) }
    else { h with kind := .bytes a (patchBytes d (i / 8) [(d.getD (i / 8) 0) ||| BitVec.ofNat 8 (2 ^ (i % 8))]) }
  | .app _ _ _ _ _ => h

/-- Set OLF in the pending status that follows an append by four cycles (R42, R318). -/
def setOlf (c : Ctx) (due : Nat) : Ctx :=
  { c with pend := c.pend.map fun e => if e.due = due + 4 then { e with val := e.val ||| 4 } else e }

/-- State of the appends of one cycle: the attempt, the ring, and the byte writes still to make. -/
structure Appends where
  p : Perf
  ring : RingRegs
  bytes : List Held
deriving DecidableEq, Repr

/-- Is a held write the byte write of an mx.st to `base`? -/
def isStoreTo (base : Nat) (h : Held) : Bool :=
  match h.kind with
  | .bytes a _ => h.mx && decide (a = base)
  | .app _ _ _ _ _ => false

/-- The byte writes of a cycle with the NaN code of an element put into the store that appended it: the first to its base,
since an mx.cmp whose write is due in that cycle issued later. -/
def nanStore (f : Held → Held) (base : Nat) : List Held → List Held
  | [] => []
  | h :: r => if isStoreTo base h then f h :: r else h :: nanStore f base r

/-- Perform one append (R36). The narrow element it decides is written after the results that land in that cycle, as R318 has
it, also over a later-issued write of vD that lands then, which R115 would keep (DESIGN CHOICE, log entry 105). -/
def doAppend (x : Appends) (h : Held) : Appends :=
  match h.kind with
  | .bytes _ _ => x
  | .app i src tgt base t6 =>
    let r := appendOutlier x.p.is.old x.ring
    match r.2 with
    | some a =>
      let entry := leBytes 4 i ++ leBytes 4 src.toNat
      let ent := if h.mx then entryOf x.p.st x.p.is.old x.p.is.m 7 false else writeEntry x.p
      let p := addOp (checkRace (touchKnown x.p a 8) a 8 true false (if h.mx then 2 else 0)) (.store a entry ent)
      { x with p := if h.mx then p else releaseWrite (modBoth p fun c => setVecByte c (tgt % 128) i 0), ring := r.1 }
    | none =>
      let p := if h.mx then modBoth x.p fun c => setOlf c h.due
        else modBoth x.p fun c => setVecByte c (tgt % 128) i (nanTaper t6)
      { x with p := p, ring := r.1, bytes := if h.mx then nanStore (nanInto tgt i t6) base x.bytes else x.bytes }

/-- Make one byte write of a held group: presence, rows and races as its path has them. -/
def doBytes (p : Perf) (h : Held) : Perf :=
  match h.kind with
  | .app _ _ _ _ _ => p
  | .bytes a d =>
    let p := checkRace (needRows (touchKnown p a d.length) a d.length) a d.length true false 2
    addOp p (.store a d (entryOf p.st p.is.old p.is.m 7 false))

/-- Is the held write a byte write? -/
def isBytes (h : Held) : Bool :=
  match h.kind with
  | .bytes _ _ => true
  | .app _ _ _ _ _ => false

/-- Perform the held writes and appends due in this cycle with the ring `r` of the cycle; the ring after them. -/
def performHeld (p : Perf) (r : RingRegs) : Perf × RingRegs :=
  let t := logicalCycle p
  let due := dueHeld (oldCtx p) t
  let p := modBoth p fun c => { c with held := c.held.filter fun h => decide (t < h.due) }
  let x := due.foldl doAppend ⟨p, r, due.filter isBytes⟩
  (x.bytes.foldl doBytes x.p, x.ring)

/-! ### Second reads and reissues (R131, R207, R250) -/

/-- Perform a second read, its bank rows apart (R207). -/
def finishRead (p : Perf) (r : PendRead) : Perf :=
  if r.planes = 0 then modBoth p (secondHalf (localBytes p r.addr 4096) r.tile)
  else { p with st := readPlanes p.is.old p.is.m p.st r }

/-- The second reads due in this cycle. -/
def performReads (p : Perf) : Perf :=
  let t := logicalCycle p
  let due := (oldCtx p).reads.filter fun r => decide (r.due ≤ t)
  let p := modBoth p fun c => { c with reads := c.reads.filter fun r => decide (t < r.due) }
  due.foldl (fun p r => finishRead (needRows p r.addr (if r.planes = 0 then 4096 else 256 * r.planes)) r) p

/-- The reissue of a repeat due in this cycle (R131): Areg[AREG] advances, and the operation is checked as one of its
own. -/
def performReissue (p : Perf) : Perf :=
  match (oldCtx p).rep with
  | none => p
  | some r =>
    if r.remaining = 0 ∨ logicalCycle p < r.due then p
    else
      let base := r.base + BitVec.ofNat 64 (r.k * tileBytes r.fmt)
      let p := modBoth (clearAway (touchBlock p 0)) fun c => { c with a := vset c.a r.areg.val base }
      let p := mmaStart p ((r.tile + r.k) % 16) r.z r.sp r.fmt r.pl r.lake base.toNat r.k r.eA.val r.eB.val
      let p := { p with is := { p.is with mma := false } }
      modWork p fun c => { c with rep := some { r with remaining := r.remaining - 1, k := r.k + 1, due := r.due + r.dop } }

/-! ### The slots of a member's bundle -/

/-- Perform one slot. -/
def runSlot (p : Perf) (i : Instr) : Perf :=
  match execSlot i { p.st with iss := some p.is } with
  | .next s =>
    (match s.iss with
      | some is => ⟨{ s with iss := none }, is⟩
      | none => p)
  | .fault _ => p
  | .refused _ => p

/-- Perform the slots in order. -/
def runSlots (p : Perf) (is : List Instr) : Perf := is.foldl runSlot p

/-- Is the condition of a px.first or px.last met? -/
def pxMet (c : Ctx) : Instr → Bool
  | .pxFirst l => (vget {} c.levels l.val).index == 0
  | .pxLast l => (vget {} c.levels l.val).index + 1 == (vget {} c.levels l.val).count
  | _ => true

/-- Bit 0 of a predicate as the bundle reads it. -/
def predBit (c : Ctx) (q : QReg) : Bool :=
  q.val = 0 || (if 2 ≤ c.mode then (vget 0 c.sq q.val).getLsbD 0 else (vget 0 c.q q.val).getLsbD 0)

/-- Does a performed tr.rft, tr.rfu, tr.halt or tr.kill decide what follows the bundle (R119)? -/
def trDecides (c : Ctx) : Bool → List Instr → Bool
  | _, [] => false
  | cond, i :: r =>
    if isPx i then trDecides c (cond && pxMet c i) r
    else (match i with
      | .trRft q => cond && predBit c q
      | .trRfu q => cond && predBit c q
      | .trHalt q => cond && predBit c q
      | .trKill _ q => cond && predBit c q
      | _ => false) || trDecides c true r

/-- Is the slot a br or tr slot (R123)? -/
def isBrTr (i : Instr) : Bool :=
  unitOf i = .b || (match i with
    | .trTrap _ => true
    | .trRft _ => true
    | .trRfu _ => true
    | .trCsrr _ _ => true
    | .trCsrw _ _ => true
    | .trYld _ => true
    | .trHalt _ => true
    | .trKill _ _ => true
    | _ => false)

/-- Does the slot write a register of the outlier ring? -/
def isRingWrite : Instr → Bool
  | .trCsrw _ n => n.val = 0x018 || n.val = 0x019 || n.val = 0x01A
  | _ => false

/-- Does the slot make fixed-cycle scratchpad writes or appends after its issue (R317)? -/
def isHolder : Instr → Bool
  | .mxSt .. => true
  | .mxCmp .. => true
  | .vyCvo .. => true
  | _ => false

/-- The register a name in a handler bundle stands for (R332). -/
def handlerReg (mode : Nat) (w : WFile × Nat) : Option (RFile × Nat) :=
  match w.1 with
  | .s =>
    (match placeS mode w.2 with
      | .zero | .port => none
      | .user n => some (.s, n)
      | .shadow n => some (.h, n)
      | .service n => some (.ss, n))
  | .a => some (if 2 ≤ mode then .sa else .a, w.2)
  | .q => if w.2 = 0 then none else some (if 2 ≤ mode then .sq else .q, w.2)
  | .e => some (.e, w.2)
  | .v => some (.v, w.2)
  | .k => none

/-- The user register that a window number of tr.csrr or tr.csrw names (R351). -/
def windowReg : Instr → Option (RFile × Nat)
  | .trCsrr _ n | .trCsrw _ n => windowPlace n.val
  | _ => none

/-- Must a handler bundle wait for a handler result (R337), of a register it names or reaches through the window? -/
def handlerWaits (c : Ctx) (is : List Instr) : Bool :=
  c.hresults.any fun r => is.any fun i =>
    ((namedRegs i).any fun w => handlerReg c.mode w = some (r.file, r.num)) || windowReg i = some (r.file, r.num)

/-- A violation that no slot makes: its trap value is a free value (DESIGN CHOICE, log entry 13). -/
def violateFree (p : Perf) : Perf :=
  let (v, p) := freeWord p
  raise p .scheduleViolation v

/-! ### Store pairing (R141) -/

/-- Put operations before those from index `n` on. -/
def insertOps (p : Perf) (n : Nat) (new : List MemOp) : Perf :=
  { p with is := { p.is with ops := p.is.ops.take n ++ new ++ p.is.ops.drop n } }

/-- An atomic's place in the SDQ after an entry has left it. -/
def shiftSdq (m : Nat) : MemOp → MemOp
  | .atomic op b a y c m' dst (some i) due ent => .atomic op b a y c m' dst (if m' = m then some (i - 1) else some i) due ent
  | .atomic op b a y c m' dst none due ent => .atomic op b a y c m' dst none due ent
  | .store a d e => .store a d e
  | .latch a m' s e => .latch a m' s e

/-- One pair of scalar kind: the store, the stores so far, and the entry taken. -/
def pairScalar (p : Perf) (e : SaqEntry) (d : SdqEntry) : Perf × List MemOp :=
  let n := p.is.ops.length
  let p := releaseWrite (addOp (accessLocal p e.ea e.bytes true true 0) (.store e.ea (leBytes e.bytes d.data.toNat) (writeEntry p)))
  let p := modWork p fun c => { c with sdq := c.sdq.drop 1 }
  ({ p with is := { p.is with ops := (p.is.ops.take n).map (shiftSdq p.is.m) } }, p.is.ops.drop n)

/-- One pair of vector kind. -/
def pairVector (p : Perf) (e : SaqEntry) (d : SdqEntry) : Perf × List MemOp :=
  let n := p.is.ops.length
  let p := storeLanes (accessLanes p e.ea e.lanes true) e.ea e.lanes d.data
  let p := modWork p fun c => { c with vsdq := c.vsdq.drop 1 }
  ({ p with is := { p.is with ops := p.is.ops.take n } }, p.is.ops.drop n)

/-- Does a pair form at logical cycle `t` (R141)? -/
def canPair (c : Ctx) (t : Nat) : Bool :=
  ((c.saq.any fun e => !e.vec) && (match c.sdq with
    | d :: _ => decide (d.present ≤ t)
    | [] => false)) ||
  ((c.saq.any fun e => e.vec) && (match c.vsdq with
    | d :: _ => decide (d.present ≤ t)
    | [] => false))

/-- State of the pairing: the attempt, the entries kept, the stores formed, and the kinds blocked by an unpaired entry. -/
structure Pairing where
  p : Perf
  keep : List SaqEntry
  new : List MemOp
  stopS : Bool
  stopV : Bool
deriving DecidableEq, Repr

/-- Consider one SAQ entry. -/
def pairOne (x : Pairing) (e : SaqEntry) : Pairing :=
  let t := logicalCycle x.p
  if e.vec then
    match (workCtx x.p).vsdq with
    | d :: _ =>
      if !x.stopV && decide (d.present ≤ t) then
        let r := pairVector x.p e d
        { x with p := r.1, new := x.new ++ r.2 }
      else { x with keep := x.keep ++ [e], stopV := true }
    | [] => { x with keep := x.keep ++ [e], stopV := true }
  else
    match (workCtx x.p).sdq with
    | d :: _ =>
      if !x.stopS && decide (d.present ≤ t) then
        let r := pairScalar x.p e d
        { x with p := r.1, new := x.new ++ r.2 }
      else { x with keep := x.keep ++ [e], stopS := true }
    | [] => { x with keep := x.keep ++ [e], stopS := true }

/-- Form the pairs of this cycle; their stores come before those of the bundle's slots from index `n` on. -/
def pairStores (p : Perf) (n : Nat) : Perf :=
  let x := (workCtx p).saq.foldl pairOne ⟨clearAway p, [], [], false, false⟩
  insertOps (modWork x.p fun c => { c with saq := x.keep }) n x.new

/-! ### The end of a member's bundle: back edges (R127), the run counter (R123), the repeat's window (R131) -/

/-- The innermost active level whose body ends at `e`: the one that starts last (R127). -/
def edgeLevel (p : Perf) (e : Nat) (ls : List (Nat × LevelSt)) : Option (Nat × LevelSt) :=
  (ls.filter fun l => bodyEnd p.st p.is.old p.is.m l.2 = e).foldl (fun b l =>
    match b with
    | none => some l
    | some x => if x.2.start ≤ l.2.start then some l else some x) none

/-- The back edges after a bundle that ends at `e`: the levels after them, the strides, and where the PC goes. A pass that
begins captures the body, which later passes replay from the buffer (R126): a level that a resumed gang finds active was not
captured, so its next pass is. -/
def backEdge (p : Perf) (e : Nat) : Nat → Ctx → List (Nat × Word) → Ctx × List (Nat × Word) × Option Nat
  | 0, c, ss => (c, ss, none)
  | n + 1, c, ss =>
    match edgeLevel p e (activeLevels c) with
    | none => (c, ss, none)
    | some (l, v) =>
      let v' := { v with index := v.index + 1 }
      let ss := ss ++ v.strides
      if v'.index < v'.count ∧ v'.stop = false then
        ({ c with levels := vset c.levels l { v' with cap := min 2 (v.cap + 1) } }, ss, some v.start)
      else backEdge p e n { c with levels := vset c.levels l { v' with active := false, stop := false, cap := 0 } } ss

/-- Does the bundle take a back edge (R123)? -/
def takesEdge (p : Perf) (e : Nat) : Bool := (edgeLevel p e (activeLevels (oldCtx p))).isSome

/-- The register a repeat in its window advances (R131): one begun before, or by this bundle (DEDUCED, log entry 85). -/
def repWindow (p : Perf) : Option AReg :=
  match (workCtx p).rep with
  | none => none
  | some r => if logicalCycle p < (workCtx p).mFree then some r.areg else none

/-- A violation of a slot, found after the slots. -/
def violateSlot (p : Perf) (m slot : Nat) : Perf :=
  { p with is := { p.is with traps := p.is.traps ++ [⟨m, slot, .scheduleViolation, BitVec.ofNat 64 slot⟩] } }

/-- The rules of R131 on a bundle in a repeat's window: the slot that writes the repeat's register is in violation (R339), and
so is a back edge that steps it. -/
def checkRepeat (p : Perf) (is : List Instr) (strides : List (Nat × Word)) : Perf :=
  match repWindow p with
  | none => p
  | some a =>
    let bad := (List.range is.length).filter fun i => match is[i]? with
      | none => false
      | some x => (writeSetIn (oldCtx p).mode x).contains (.a, a.val)
    let p := bad.foldl (fun p i => violateSlot p p.is.m i) p
    if strides.any fun s => s.1 = a.val then violateFree p else p

/-- What one attempt of a gang's bundles gives. -/
structure Att where
  p : Perf
  /-- strides to apply after the landing: member, register, stride -/
  strides : List (Nat × Nat × Word) := []
  /-- units of the bundle on each core that issues -/
  units : List (Nat × List IUnit) := []
  /-- members that issue, with whether the bundle holds a slot for a unit (R117) -/
  busy : List (Nat × Bool) := []
  /-- members that halt -/
  halts : List Nat := []
  /-- members whose handler returns: from service, from a user-level handler -/
  rft : List Nat := []
  rfu : List Nat := []
deriving DecidableEq, Repr

/-- The register entry of a member whose parity fails in this wall cycle. -/
def parityOf (s : State) (gid m : Nat) : Option BadReg := s.badReg.filter fun b => b.gang = gid && b.member = m

/-- The record at the start of a member's part. -/
def startMember (p : Perf) (m fa nxt : Nat) (handler brOff : Bool) : Perf :=
  { p with is := { p.is with
      par := parityOf p.st p.is.old.id m
      m := m, slot := 0, fa := fa, nxt := nxt, cond := true, rep := 0, scale := none, brOff := brOff, npc := none,
      handler := handler, halt := none, rft := false, rfu := false, mma := false } }

/-- Raise BUDGET_EXCEEDED where the run is too long (R123; DEDUCED, log entry 83). -/
def checkRun (p : Perf) (run : Nat) : Perf :=
  if p.is.old.budget < run then raise p .budgetExceeded (BitVec.ofNat 64 run) else p

/-- A tr.halt with stores not yet paired is a violation (R143). -/
def checkHalt (p : Perf) : Perf :=
  match p.is.halt with
  | none => p
  | some slot =>
    let c := workCtx p
    if c.saq.isEmpty && c.sdq.isEmpty && c.vsdq.isEmpty then p
    else raise p .scheduleViolation (BitVec.ofNat 64 slot)

/-- What comes due before the slots: held writes with the ring `r`, second reads, the reissue. -/
def memberParts (p : Perf) (r : RingRegs) : Perf × RingRegs :=
  let x := performHeld p r
  (performReissue (performReads x.1), x.2)

/-- What a member that has not halted finds due at this cycle; a result that is due and cannot land holds the gang. -/
def memberDue (p : Perf) (r : RingRegs) : Perf × RingRegs :=
  memberParts ((dueResults (workCtx p) (logicalCycle p)).foldl stuckResult p) r

/-- A member without a bundle (it has halted): only what comes due. A result that is late no longer holds the gang (R105). -/
def haltedPart (p : Perf) (m : Nat) : Perf :=
  let p := startMember p m 0 0 false true
  let x := memberParts p (ringRegs (oldCtx p))
  modBoth x.1 fun c => setRing c x.2

/-- A member's part before its slots, with the ring of the cycle: a tr.csrw of the bundle to a ring register comes first
(R37), and then the registers of the bundle's own write stay for its slots. -/
def beforeSlots (p : Perf) (is : List Instr) : Perf × Option RingRegs :=
  let c := oldCtx p
  if is.any isRingWrite && !(dueHeld c (logicalCycle p)).isEmpty then
    let dry := runSlots (memberDue p (ringRegs c)).1 is
    let x := memberDue p (ringRegs (workCtx dry))
    (x.1, some x.2)
  else
    let x := memberDue p (ringRegs c)
    (modBoth x.1 fun c => setRing c x.2, none)

/-- A member's gang bundle (RUN mode). The pairs of the cycle form after the slots, which find the queues without the places
those pairs free: a push on a full queue is a violation although a pair of that cycle leaves it (R140, R141; DESIGN CHOICE,
log entry 106). -/
def memberPart (a : Att) (m : Nat) (is : List Instr) (nxt : Nat) : Att :=
  let c := getCtx a.p.is.old m
  let p := startMember a.p m c.pc nxt false (trDecides c true is)
  let b := beforeSlots p is
  let n := b.1.is.ops.length
  let p := runSlots b.1 is
  let p := match b.2 with
    | none => p
    | some r => modWork p fun c => setRing c r
  let p := pairStores p n
  let e := if p.is.npc.isSome then (workCtx p, [], p.is.npc)
    else backEdge p nxt 6 (workCtx p) []
  let p := checkRepeat p is e.2.1
  let p := if e.2.1.isEmpty then p else e.2.1.foldl (fun p s => readReg p .a s.1) (touchBlock p 0)
  let run := if is.any isBrTr then 0 else c.run + 1
  let p := checkHalt (checkRun p run)
  let p := modWork p fun w => { w with
    levels := e.1.levels
    pc := e.2.2.getD nxt
    run := if p.is.npc.isNone && takesEdge p nxt then 0 else run
    rep := w.rep.filter fun r => decide (r.remaining ≠ 0) || decide (logicalCycle p + 1 < w.mFree) }
  { p := p
    strides := a.strides ++ e.2.1.map fun s => (m, s.1, s.2)
    units := a.units ++ [(c.core, is.map unitOf)]
    busy := a.busy ++ [(m, is.any fun i => unitOf i != .none)]
    halts := if p.is.halt.isSome then a.halts ++ [m] else a.halts
    rft := a.rft
    rfu := a.rfu }

/-- ILLEGAL_ENCODING of a member, with the address of its bundle (R69). -/
def illegalPart (a : Att) (m : Nat) : Att :=
  { a with p := raise (startMember a.p m 0 0 false false) .illegalEncoding (BitVec.ofNat 64 (nextPc (getCtx a.p.is.old m))) }

/-- A bundle start: reached by forming bundles from the segment's first word (R345). -/
def startsBundle (rd : Nat → Nat) (addr : Nat) : Nat → Nat → Bool
  | 0, _ => false
  | n + 1, a =>
    if a = addr then true
    else if addr < a then false
    else
      match bundleWords rd a 8 a with
      | none => false
      | some ws => startsBundle rd addr n (a + 4 * ws.length)

/-- Is an address the start of a bundle of the image (R345)? -/
def isBundleStart (s : State) (g : Gang) (m addr : Nat) : Bool :=
  decide (addr < segBytes * g.task.nseg) && startsBundle (codeWord s g m) addr 4097 (addr / segBytes * segBytes)

/-- A handler bundle (R337; DEDUCED, log entry 74). -/
def handlerPart (a : Att) (m : Nat) : Att :=
  let g := a.p.is.old
  let c := getCtx g m
  let seg := c.hpc / segBytes
  let p := startMember a.p m c.hpc 0 true false
  if c.mode = 1 ∧ seg < g.task.nseg ∧ (segOf c seg).isNone then { a with p := addAct (freezeOn p .segment) (.segment m seg) }
  else if c.hret ≠ 0 then { a with p := freezeOn p .service }
  else if c.hfirst ∧ !isBundleStart p.st g m c.hpc then { a with p := raise p .instrAddress c.kuvec }
  else
    match nextBundle p.st g m with
    | none => illegalPart a m
    | some (is, nxt) =>
      let p := startMember a.p m c.hpc nxt true (trDecides c true is)
      if handlerWaits c is then { a with p := freezeOn p .service }
      else
        let p := runSlots p is
        let p := if c.mode = 1 then checkRepeat p is [] else p
        let p := if (p.is.rft || p.is.rfu) && !c.hresults.isEmpty then freezeOn p .service else p
        let p := modWork p fun w => { w with hpc := p.is.npc.getD nxt, hfirst := false }
        { a with
          p := p
          units := a.units ++ [(c.core, is.map unitOf)]
          rft := if p.is.rft then a.rft ++ [m] else a.rft
          rfu := if p.is.rfu then a.rfu ++ [m] else a.rfu }

/-- A latch whose gang puts nothing on the bus is a violation of its slot (R194). -/
def checkLatches (p : Perf) : Perf :=
  if p.is.bput.isSome then p
  else p.is.ops.foldl (fun p o => match o with
    | .latch _ m slot _ => violateSlot p m slot
    | .store .. => p
    | .atomic .. => p) p

/-- Is a member's next bundle in a segment that is present, or replayed from the loop buffer (R106, R126, R382)? An address
reached in sequence at or past 16,384 · NSEG needs no segment: its words read 0, which is no legal bundle (R47; DESIGN CHOICE,
log entry 124). -/
def segReady (s : State) (g : Gang) (m : Nat) : Bool :=
  let c := getCtx g m
  (segOf c (c.pc / segBytes)).isSome || decide (g.task.nseg ≤ c.pc / segBytes) || inBuffer s g m c.pc

/-- Add one member to an attempt in RUN mode. A halted member needs no place on its core (R108; DESIGN CHOICE, log entry
127). -/
def runPart (a : Att) (m : Nat) : Att :=
  let g := a.p.is.old
  let c := getCtx g m
  if c.halted then { a with p := haltedPart a.p m }
  else if !segReady a.p.st g m then
    { a with p := addAct (freezeOn (startMember a.p m 0 0 false false) .segment) (.segment m (c.pc / segBytes)) }
  else
    match nextBundle a.p.st g m with
    | none => illegalPart a m
    | some (is, nxt) => memberPart a m is nxt

/-- Attempt a gang's bundles, or its handler bundle (R106; DEDUCED, log entry 24). -/
def attempt (s : State) (g : Gang) : Att :=
  let a : Att := { p := ⟨{ s with iss := none }, { old := g, work := g, m := 0 }⟩ }
  let a := match handlerOf g with
    | some m => handlerPart a m
    | none => (List.range g.members.length).foldl runPart a
  { a with p := checkLatches a.p }

/-! ### What an attempt comes to -/

/-- Is the code replayable, as R334 ranks it? -/
def trapRank (t : TrapReq) : List Nat :=
  [if t.code = .illegalEncoding then 0 else if codeReplayable t.code then 2 else 1, t.member, t.slot]

/-- The trap that is taken (R334). -/
def chooseTrap : List TrapReq → Option TrapReq
  | [] => none
  | t :: r =>
    match chooseTrap r with
    | none => some t
    | some u => if trapRank u < trapRank t then some u else some t

/-- Would the next bundle of a member hold an mx.st, mx.cmp or vy.cvo (R317, R336)? -/
def nextHolds (s : State) (g : Gang) : Bool :=
  (List.range g.members.length).any fun m =>
    !(getCtx g m).halted && (match nextBundle s g m with
      | none => false
      | some (is, _) => is.any isHolder)

end Sys2Proof.Machine
end

