-- ==== Sys2Proof/Machine/Place.lean ====
section
/-! DEFINITION. Place: task records (R96) and where a ready task fits (R103, R178, R376, R381). -/

namespace Sys2Proof.Machine

/-- A task record's fields (R96): NGROUP above 4 and NREL above 8 count as 4 and 8, any NSEG is taken, and an ENTRY beyond GANG,
a GROUP beyond NGROUP and a RELEASE beyond NREL are ignored whatever they hold (DESIGN CHOICE, log entry 117). -/
def decodeTask (bs : List Byte) : TaskRec :=
  { gang := fieldLe bs 4 1
    nseg := fieldLe bs 5 1
    budget := fieldLe bs 6 2
    spadBase := fieldLe bs 8 8
    spadSize := fieldLe bs 16 8
    olBase := fieldLe bs 24 8
    olCap := fieldLe bs 32 4
    groups := (List.range (min 4 (fieldLe bs 36 1))).map fun i => fieldLe bs (112 + 8 * i) 8
    releases := (List.range (min 8 (fieldLe bs 37 1))).map fun i => fieldLe bs (144 + 8 * i) 8
    entries := (List.range 8).map fun i => fieldLe bs (48 + 8 * i) 8
    bytes := sliceBytes bs 0 256 }

/-- A loaded image by its id. -/
def findImage (s : State) (id : Nat) : Option Image := s.images.find? fun i => i.id = id

/-- The task record of a launch: of its image, or of the saved image it resumes. -/
def launchTask (s : State) (l : Launch) : Option TaskRec :=
  if l.resume then some (decodeTask (memReads s.mem (l.image + 1024) 256))
  else (findImage s l.image).map fun i => i.task

/-- Is a context slot FREE (R102)? -/
def slotFree (gangs : List Gang) (cl co sl : Nat) : Bool :=
  !gangs.any fun g => g.cluster = cl && g.slot = sl && g.members.any fun c => c.core = co

/-- Segments a member of the task holds (R381). -/
def segNeed (t : TaskRec) (iseg : Nat) : Nat := if iseg = 0 then min t.nseg 4 else min iseg t.nseg

/-- Free task segments of a core. -/
def freeSegList (k : Core) : List Nat := (List.range 15).filter fun i => (vget none k.segOwner i).isNone

/-- Segments of a core that the gangs considered do not hold. -/
def segRoom (s : State) (gangs : List Gang) (cl co : Nat) : Nat :=
  let k := getCore s cl co
  ((List.range 15).filter fun i => match vget none k.segOwner i with
    | none => true
    | some o => !gangs.any fun g => g.id = o.1).length

/-- Does an allocation overlap none of the cluster's tasks (R178)? -/
def spadFits (gangs : List Gang) (cl : Nat) (t : TaskRec) : Bool :=
  decide (t.spadSize = 0) || !gangs.any fun g =>
    g.cluster = cl && decide (g.task.spadSize ≠ 0) && rangesMeet t.spadBase t.spadSize g.task.spadBase g.task.spadSize

/-- Cores of a cluster that can take a member at a slot index. -/
def coresFor (s : State) (gangs : List Gang) (cl sl cmask need : Nat) : List Nat :=
  (List.range 8).filter fun co =>
    (decide (cmask % 256 = 0) || bitAt cmask co) && slotFree gangs cl co sl && decide (need ≤ segRoom s gangs cl co)

/-- A place: cluster, slot index, cores. -/
structure Place where
  cluster : Nat
  slot : Nat
  cores : List Nat
deriving DecidableEq, Repr

/-- The place with the lowest-numbered cores within a cluster (DEDUCED, log entry 79). -/
def placeIn (s : State) (gangs : List Gang) (l : Launch) (t : TaskRec) (cl : Nat) : Option Place :=
  if !spadFits gangs cl t then none
  else
    (List.range 4).foldl (fun (best : Option Place) sl =>
      let cs := coresFor s gangs cl sl l.cmask (segNeed t l.iseg)
      if cs.length < t.gang then best
      else
        let p : Place := ⟨cl, sl, cs.take t.gang⟩
        match best with
        | none => some p
        | some b => if p.cores < b.cores then some p else some b) none

/-- May the launch use a cluster: ONLINE, or TESTING for a test run (R441, R447)? -/
def clusterOpen (s : State) (l : Launch) (cl : Nat) : Bool :=
  let c := getCluster s cl
  (if l.test then decide (c.state = .testing) else decide (c.state = .online)) && !c.fenced &&
  (decide (l.cluster = 255) || decide (l.cluster = cl))

/-- Where a launch fits among the gangs given (R376). -/
def placeAmong (s : State) (gangs : List Gang) (l : Launch) : Option Place :=
  match launchTask s l with
  | none => none
  | some t => (List.range 40).findSome? fun cl => if clusterOpen s l cl then placeIn s gangs l t cl else none

/-- Where a launch fits now. -/
def placeNow (s : State) (l : Launch) : Option Place := placeAmong s s.gangs l

/-- Would a pre-emption of this gang place a ready task of its PRIO or a lower number that fits nowhere now (R354)? -/
def yieldWanted (s : State) (g : Gang) : Bool :=
  s.ready.any fun r =>
    decide (r.launch.prio ≤ g.prio) && (placeNow s r.launch).isNone &&
    (placeAmong s (s.gangs.filter fun h => h.id ≠ g.id) r.launch).isSome

end Sys2Proof.Machine
end

