-- ==== Sys2Proof/Machine/Loader.lean ====
section
/-! DEFINITION. Loader: GHO files (R92 to R97), the loader's checks (R99 to R101), and installing an image. -/

namespace Sys2Proof.Machine

/-- A section of a GHO file (R93). -/
structure Sect where
  type : Nat
  seg : Nat
  size : Nat
  off : Nat
  addr : Nat
deriving DecidableEq, Repr

/-- The codes of R100, as statuses (R357). -/
def codeFormat : Nat := 0x100
/-- LOAD_SEGMENT. -/
def codeSegment : Nat := 0x101
/-- LOAD_ENTRY. -/
def codeEntry : Nat := 0x102
/-- LOAD_SPAD. -/
def codeSpad : Nat := 0x103
/-- LOAD_LAKE. -/
def codeLake : Nat := 0x104
/-- LOAD_LAYOUT. -/
def codeLayout : Nat := 0x105
/-- LOAD_BUDGET. -/
def codeBudget : Nat := 0x106
/-- LOAD_RELOC. -/
def codeReloc : Nat := 0x107

/-! ### The file (R92 to R94) -/

/-- A table of `n` entries of `k` bytes at `off` lies in the file. -/
def inFile (f : List Byte) (off k n : Nat) : Bool := decide (off + k * n ≤ f.length)

/-- The header keeps R92 as a linked image, with its tables in the file. -/
def fileHeaderOk (f : List Byte) : Bool :=
  decide (64 ≤ f.length) && decide (fieldLe f 0 4 = 0x314F4847) && decide (fieldLe f 4 2 = 1) && decide (fieldLe f 6 2 = 2) &&
  decide (fieldLe f 48 16 = 0) && inFile f (fieldLe f 16 8) 48 (fieldLe f 8 4) && inFile f (fieldLe f 24 8) 32 (fieldLe f 12 4) &&
  inFile f (fieldLe f 32 8) 1 (fieldLe f 40 8)

/-- The sections of a file, in the order of its section table. -/
def fileSects (f : List Byte) : List Sect :=
  (List.range (fieldLe f 8 4)).map fun i =>
    let b := fieldLe f 16 8 + 48 * i
    ⟨fieldLe f (b + 4) 1, fieldLe f (b + 5) 1, fieldLe f (b + 16) 8, fieldLe f (b + 24) 8, fieldLe f (b + 32) 8⟩

/-- A string offset lies in the file: its first byte does. One at or past STRSIZE is accepted (DESIGN CHOICE, log entry 121). -/
def nameOk (f : List Byte) (n : Nat) : Bool := inFile f (fieldLe f 32 8 + n) 1 1

/-- Names of every section and symbol entry lie in the file, and reserved bytes are 0. -/
def tablesOk (f : List Byte) : Bool :=
  ((List.range (fieldLe f 8 4)).all fun i =>
    let b := fieldLe f 16 8 + 48 * i
    nameOk f (fieldLe f b 4) && decide (fieldLe f (b + 6) 2 = 0) && decide (fieldLe f (b + 44) 4 = 0)) &&
  (List.range (fieldLe f 12 4)).all fun i =>
    let b := fieldLe f 24 8 + 32 * i
    nameOk f (fieldLe f b 4) && decide (fieldLe f (b + 26) 6 = 0)

/-- The sections of a type. -/
def sectsOf (ss : List Sect) (t : Nat) : List Sect := ss.filter fun x => x.type = t

/-- A section's bytes; a FAR section is zero-filled (R86). -/
def sectBytes (f : List Byte) (x : Sect) : List Byte := if x.type = 4 then zeros x.size else sliceBytes f x.off x.size

/-- The lake records of a file. -/
def lakeRecords (f : List Byte) (ss : List Sect) : List (List Byte) :=
  (sectsOf ss 6).flatMap fun x => (List.range (x.size / 32)).map fun i => sliceBytes f (x.off + 32 * i) 32

/-- Records and sections keep what R93 and R96 fix of them: a known type, offsets and bytes within the file (a FAR section has
no bytes there), and reserved fields 0, those of relocation entries (R95) among them; one TASK section of one record, and
whole lake records. ALIGN that is no power of two, SEG other than 0 outside TEXT and FILEOFF other than 0 of a FAR section
are accepted (DESIGN CHOICE, log entry 122). -/
def sectsOk (f : List Byte) (ss : List Sect) : Bool :=
  (ss.all fun x => decide (1 ≤ x.type) && decide (x.type ≤ 8) && inFile f x.off 1 (if x.type = 4 then 0 else x.size)) &&
  (match sectsOf ss 5 with
    | [x] => decide (x.size = 256) && nameOk f (fieldLe f x.off 4) && decide (fieldLe f (x.off + 38) 10 = 0) &&
        decide (fieldLe f (x.off + 208) 48 = 0)
    | _ => false) &&
  ((sectsOf ss 6).all fun x => decide (x.size % 32 = 0)) &&
  ((sectsOf ss 8).all fun x => (List.range (x.size / 24)).all fun i => decide (fieldLe f (x.off + 24 * i + 14) 2 = 0)) &&
  ((lakeRecords f ss).all fun r => nameOk f (fieldLe r 0 4) && decide (fieldLe r 6 2 = 0) && decide (fieldLe r 24 8 = 0))

/-- The task record of a file. -/
def fileTask (f : List Byte) (ss : List Sect) : List Byte :=
  match sectsOf ss 5 with
  | x :: _ => sliceBytes f x.off 256
  | [] => zeros 256

/-! ### Code (R99, R101) -/

/-- The words of a byte string. -/
def codeWords (bs : List Byte) : List Nat := (List.range (bs.length / 4)).map fun i => fieldLe bs (4 * i) 4

/-- Parse words into bundles by their stop bits; none where a bundle has fewer than 4 words or more than 8, or the last
has no stop slot. No words make no bundle, and are accepted (DESIGN CHOICE, log entry 116). -/
def parseBundles : List Nat → List Nat → Option (List (List Nat))
  | [], [] => some []
  | _ :: _, [] => none
  | cur, w :: ws =>
    let b := cur ++ [w]
    if bitAt w 31 then
      (if b.length < 4 ∨ 8 < b.length then none else (parseBundles [] ws).map (b :: ·))
    else if 8 ≤ b.length then none
    else parseBundles b ws

/-- The bundles of a TEXT section. -/
def sectBundles (f : List Byte) (x : Sect) : Option (List (List Nat)) :=
  if x.size % 4 = 0 then parseBundles [] (codeWords (sectBytes f x)) else none

/-- Class of a slot word, and its O field (R48). -/
def wordClass (w : Nat) : Nat := bitsOf w 30 27

/-- Does the bundle end a straight-line run: it holds a br or tr slot (R101)? -/
def endsRun (b : List Nat) : Bool := b.any fun w => decide (wordClass w = 2) || decide (wordClass w = 0xB)

/-- Lengths of the straight-line runs of a section's bundles. -/
def runLengths (n : Nat) : List (List Nat) → List Nat
  | [] => if n = 0 then [] else [n]
  | b :: bs => if endsRun b then (n + 1) :: runLengths 0 bs else runLengths (n + 1) bs

/-- Lengths of the loop bodies of a section: IMM16 bits 8:0 of each br.loop. -/
def bodyLengths (bs : List (List Nat)) : List Nat :=
  bs.flatMap fun b => (b.filter fun w => decide (wordClass w = 2) && decide (bitsOf w 26 21 = 11)).map fun w => w % 512

/-- Addresses of the bundle starts of a section. -/
def bundleStarts (a : Nat) : List (List Nat) → List Nat
  | [] => []
  | b :: bs => a :: bundleStarts (a + 4 * b.length) bs

/-- The bundles of every TEXT section with its segment; none where one does not parse. -/
def fileBundles (f : List Byte) (ss : List Sect) : List (Nat × Option (List (List Nat))) :=
  (sectsOf ss 1).map fun x => (x.seg, sectBundles f x)

/-! ### The checks of R100, in the order of its table -/

/-- LOAD_SEGMENT. -/
def segmentsOk (f : List Byte) (ss : List Sect) (nseg : Nat) : Bool :=
  (sectsOf ss 1).all fun x => decide (x.size ≤ segBytes) && decide (x.seg < nseg) && (sectBundles f x).isSome

/-- LOAD_ENTRY. -/
def entriesOk (t : TaskRec) (bs : List (Nat × List (List Nat))) : Bool :=
  decide (1 ≤ t.gang) && decide (t.gang ≤ 8) &&
  (List.range t.gang).all fun m => bs.any fun b => (bundleStarts (segBytes * b.1) b.2).contains (t.entries.getD m 0)

/-- LOAD_SPAD; a misaligned SPADBASE or SPADSIZE, and OLCAP above 65,536, give it too, while an OLBASE that is no multiple of 8
is accepted and OLBASE / 8 rounds down (DESIGN CHOICE, log entry 117). -/
def spadOk (t : TaskRec) : Bool :=
  decide (t.spadBase % 4096 = 0) && decide (t.spadSize % 4096 = 0) && decide (t.spadBase + t.spadSize ≤ 2 ^ 23) &&
  decide (t.olCap ≤ 65536) &&
  (decide (t.olCap = 0) || (decide (t.spadBase ≤ t.olBase) && decide (t.olBase + 8 * t.olCap ≤ t.spadBase + t.spadSize)))

/-- LOAD_LAKE, for one record: its source is translated under the calling client's descriptor (DESIGN CHOICE, log entry
115). -/
def lakeOk (s : State) (desc : Nat) (r : List Byte) : Bool :=
  let fmt := fieldLe r 4 1
  let sp := fieldLe r 5 1
  let f : MFmt := if fmt = 0 then .t8 else if fmt = 1 then .t6 else .bf16
  decide (fmt < 3) && decide (sp < 2) && decide (fieldLe r 16 8 = lakeLen f (decide (sp = 1))) &&
  (match xlatRange s desc (fieldLe r 8 8) (lakeLen f (decide (sp = 1))) false with | .ok _ => true | .error _ => false)

/-- The layout records of a section from an offset on, within the fuel, keep R89 and R97. -/
def layoutsOk (b : List Byte) : Nat → Nat → Bool
  | 0, i => decide (b.length ≤ i)
  | n + 1, i =>
    let h := sliceBytes b i 88
    let len := 88 + 16 * layoutDevs h
    decide (b.length ≤ i) ||
    (decide (i + len ≤ b.length) && layoutHeadOk h && layoutOnce h &&
      layoutPosOk (sliceBytes b (i + 88) (16 * layoutDevs h)) (layoutDevs h) && layoutsOk b n (i + len))

/-- LOAD_BUDGET, which BUDGET 0 gives too (DESIGN CHOICE, log entry 117). -/
def budgetOk (limit : Nat) (t : TaskRec) (bs : List (List (List Nat))) : Bool :=
  decide (1 ≤ t.budget) && decide (t.budget ≤ limit) &&
  bs.all fun b => (runLengths 0 b ++ bodyLengths b).all fun n => decide (n ≤ t.budget)

/-- The loader's checks of a file for the task of a descriptor: none, or the code (R100; DEDUCED, log entry 57). A nonzero
reserved field of a layout record gives LOAD_LAYOUT (DESIGN CHOICE, log entry 114). -/
def checkFile (s : State) (desc : Nat) (f : List Byte) : Option Nat :=
  let ss := fileSects f
  if !fileHeaderOk f || !tablesOk f || !sectsOk f ss then some codeFormat
  else
    let t := decodeTask (fileTask f ss)
    let bs := (fileBundles f ss).map fun b => (b.1, b.2.getD [])
    if !segmentsOk f ss t.nseg then some codeSegment
    else if !entriesOk t bs then some codeEntry
    else if !spadOk t then some codeSpad
    else if !((lakeRecords f ss).all (lakeOk s desc)) then some codeLake
    else if !((sectsOf ss 7).all fun x => decide (x.addr % 8 = 0) && layoutsOk (sectBytes f x) (x.size / 88) 0) then
      some codeLayout
    else if !budgetOk s.kbudget t (bs.map fun b => b.2) then some codeBudget
    else if !(sectsOf ss 8).isEmpty then some codeReloc
    else none

/-! ### Installing (R100, R419) -/

/-- Write the DATA, FAR and LAYOUT sections at their far addresses. -/
def installFar (desc : Nat) (f : List Byte) : List Sect → State → Except Nat State
  | [], s => .ok s
  | x :: r, s =>
    match farWriteExt s desc x.addr (sectBytes f x) with
    | .error c => .error c
    | .ok s => installFar desc f r s

/-- The scratchpad image of a task: each SPAD section at its own address. One that does not lie within the allocation is
accepted, and its bytes outside the allocation are not placed (DESIGN CHOICE, log entry 118). -/
def fileSpad (f : List Byte) (ss : List Sect) (t : TaskRec) : List Byte :=
  (sectsOf ss 3).foldl (fun b x =>
    (patchBytes b (x.addr - t.spadBase) ((sectBytes f x).drop (t.spadBase - x.addr))).take t.spadSize) (zeros t.spadSize)

/-- The instruction segments of a file. Of two TEXT sections with one SEG the first is taken, and of overlapping SPAD sections
the later bytes stand (R98; DESIGN CHOICE, log entry 123). -/
def fileSegs (f : List Byte) (ss : List Sect) : List (List Byte) :=
  (List.range 16).map fun n => match (sectsOf ss 1).find? fun x => x.seg = n with
    | none => []
    | some x => sectBytes f x

/-- LOAD (R356, R100): the image id and the state, or the status. -/
def loadImage (s : State) (client desc va len : Nat) : Except Nat (Nat × State) :=
  match farRead s desc va len with
  | .error _ => .error 8
  | .ok f =>
    match checkFile s desc f with
    | some c => .error c
    | none =>
      let ss := fileSects f
      match installFar desc f (sectsOf ss 2 ++ sectsOf ss 4 ++ sectsOf ss 7) s with
      | .error _ => .error 8
      | .ok t =>
        let id := s.nextImage + 1
        let task := decodeTask (fileTask f ss)
        let img : Image := ⟨id, task, fileSegs f ss, fileSpad f ss task, client⟩
        .ok (id, { t with images := t.images ++ [img], nextImage := id })

/-- Is a loaded image used by a running task, a launch or a saved image (R356; DEDUCED, log entry 58)? -/
def imageUsed (s : State) (i : Image) : Bool :=
  (s.gangs.any fun g => g.image = i.id) || (s.ready.any fun r => !r.launch.resume && r.launch.image = i.id) ||
  s.saved.any fun e => e.2 = i.id && decide (hdrNat s e.1 0 4 = imgMagic) && [0, 1].contains (hdrNat s e.1 7 1)

/-- UNLOAD: the state, or the status (DEDUCED, log entry 94). -/
def unloadImage (s : State) (id : Nat) : Except Nat State :=
  match findImage s id with
  | none => .error 3
  | some i => if imageUsed s i then .error 4 else .ok { s with images := s.images.filter fun x => x.id ≠ id }

end Sys2Proof.Machine
end

