-- ==== Sys2Proof/Machine/Steer.lean ====
section
/-! DEFINITION. Steer: rings of packets in scratchpad, and the packets held for an absent block (R196 to R199, R380). -/

namespace Sys2Proof.Machine

/-- UDP ports that are never steered: Deceo, RoCEv2 and the two of PTP (R380). -/
def unsteered (udp : Nat) : Bool := udp = 7418 || udp = 4791 || udp = 319 || udp = 320

/-- The lowest-numbered rule a packet matches. -/
def ruleFor (s : State) (hp udp : Nat) : Option Steer :=
  if unsteered udp then none
  else (List.range 256).findSome? fun i => s.steers.find? fun r => r.rule = i && bitAt r.ports hp && decide (r.udp = udp)

/-- Bytes of a packet ring: header and slots (R196). -/
def packetRingBytes (r : Steer) : Nat := 64 + 2 ^ r.nslotLog * 2 ^ r.slotLog

/-- The running task a rule stores for (R198). -/
def ruleGang (s : State) (r : Steer) : Option Gang :=
  (findGang s r.task).filter fun g => g.killed.isNone && g.members.any fun c => !c.halted

/-- Address of the slot of packet number `n`. -/
def slotAt (r : Steer) (n : Nat) : Nat := r.base + 64 + 2 ^ r.slotLog * (n % 2 ^ r.nslotLog)

/-- The slot record of a packet (R197). -/
def packetRecord (len stored hp rule : Nat) (t : Nat × Nat) : List Byte :=
  leBytes 2 len ++ leBytes 2 stored ++ leBytes 1 hp ++ leBytes 1 rule ++ leBytes 1 (decide (stored < len)).toNat ++ zeros 1 ++
  leBytes 6 t.1 ++ zeros 2 ++ leBytes 4 t.2 ++ zeros 12

/-- The host port writes scratchpad: the sectors lose their writer (R301). -/
def portWrite (s : State) (cl a : Nat) (bs : List Byte) : State := clearShadow (spadWrites s cl a bs) cl a bs.length

/-- Count in a 32-bit word of a ring's header. -/
def countWord (s : State) (cl a n : Nat) : State := portWrite s cl a (leBytes 4 (leNat (spadReads s cl a 4) + n))
/-- Count one. -/
def bumpWord (s : State) (cl a : Nat) : State := countWord s cl a 1

/-- Count a drop in a rule's own counter (DEDUCED, log entry 48). -/
def countRule (s : State) (rule : Nat) : State :=
  { s with steers := s.steers.map fun r => if r.rule = rule then { r with dropped := r.dropped + 1 } else r }

/-- Raise the packet-arrival interrupt for a ring unless it is already pending (R198). -/
def raiseRing (s : State) (r : Steer) : State :=
  match r.member with
  | none => s
  | some m => raiseUser s r.task m 4 fun c =>
      if c.pktRings.contains r.rule then c else { c with pktRings := c.pktRings ++ [r.rule] }

/-- Change a rule. -/
def modRule (s : State) (rule : Nat) (f : Steer → Steer) : State :=
  { s with steers := s.steers.map fun r => if r.rule = rule then f r else r }

/-- Count in DROP the drops that waited for the ring's header to be present. -/
def payDrops (s : State) (r : Steer) (g : Gang) : State :=
  if r.owed = 0 then s else countWord (modRule s r.rule fun x => { x with owed := 0 }) g.cluster (r.base + 8) r.owed

/-- Store a packet that came in at a time in its ring, or drop it (R197, R198). -/
def storePacket (s : State) (r : Steer) (g : Gang) (a : Arrival) : State :=
  let cl := g.cluster
  let put := leNat (spadReads s cl r.base 4)
  let take := leNat (spadReads s cl (r.base + 4) 4)
  if 2 ^ r.nslotLog ≤ (put + 2 ^ 32 - take) % 2 ^ 32 then bumpWord s cl (r.base + 8)
  else
    let stored := min a.len (2 ^ r.slotLog - 32)
    let s := portWrite s cl (slotAt r put) (packetRecord a.len stored a.port r.rule a.time ++ sliceBytes a.bytes 0 stored)
    let s := if stored < a.len then bumpWord s cl (r.base + 12) else s
    raiseRing (bumpWord s cl r.base) r

/-- Absent blocks of the ring's header. -/
def headAbsent (r : Steer) (g : Gang) : List Nat := (blocksOf g r.base 64).filter fun b => g.absent.contains b

/-- Absent blocks a packet's store needs. -/
def ringAbsent (s : State) (r : Steer) (g : Gang) : List Nat :=
  let put := leNat (spadReads s g.cluster r.base 4)
  if (headAbsent r g).isEmpty then (blocksOf g (slotAt r put) (2 ^ r.slotLog)).filter fun b => g.absent.contains b
  else headAbsent r g

/-- Bytes an arrival buffer holds (R198). -/
def heldBytesOf (s : State) (hp : Nat) : Nat :=
  ((s.arrivals.filter fun a => a.port = hp).map fun a => a.bytes.length).foldl (· + ·) 0

/-- Try to store a packet of a rule; a block that it needs is asked for, and may be there at once. The flag says that a block
is still absent. -/
def tryPacket : Nat → State → Steer → Arrival → State × Bool
  | 0, s, _, _ => (s, true)
  | n + 1, s, r, a =>
    match ruleGang s r with
    | none => (countRule s r.rule, false)
    | some g =>
      let s := if (headAbsent r g).isEmpty then payDrops s r g else s
      let miss := ringAbsent s r g
      if miss.isEmpty then (storePacket s r g a, false)
      else tryPacket n (miss.foldl (fun s b => performAct g.id s (.spad b)) s) r a

/-- Hold a packet whose ring has an absent block, or drop it when its port's 512 KiB buffer is full: the drop is counted in
DROP, once the block that holds DROP is present. -/
def holdPacket (s : State) (r : Steer) (a : Arrival) : State :=
  if heldBytesOf s a.port + a.bytes.length ≤ 524288 then { s with arrivals := s.arrivals ++ [a] }
  else
    match ruleGang s r with
    | none => countRule s r.rule
    | some g =>
      if (headAbsent r g).isEmpty then bumpWord s g.cluster (r.base + 8)
      else modRule s r.rule fun x => { x with owed := x.owed + 1 }

/-- A steered packet: behind the packets of its ring that are held, else stored or held. -/
def steerPacket (s : State) (r : Steer) (a : Arrival) : State :=
  if s.arrivals.any fun b => b.rule = r.rule then holdPacket s r a
  else
    let x := tryPacket 3 s r a
    if x.2 then holdPacket x.1 r a else x.1

/-- Try the held packets again, in order; one that stays held keeps those of its rule behind it. -/
def retryArrivals : List Arrival → State → State
  | [], s => s
  | a :: rest, s =>
    match s.steers.find? fun r => r.rule = a.rule with
    | none => retryArrivals rest s
    | some r =>
      if s.arrivals.any fun b => b.rule = r.rule then retryArrivals rest { s with arrivals := s.arrivals ++ [a] }
      else
        let x := tryPacket 3 s r a
        retryArrivals rest (if x.2 then { x.1 with arrivals := x.1.arrivals ++ [a] } else x.1)

/-- The drops a rule owes are counted once its ring's header is present. -/
def settleDrops (s : State) (r : Steer) : State :=
  match ruleGang s r with
  | none => s
  | some g => if (headAbsent r g).isEmpty then payDrops s r g else s

/-- A block may have become present: the drops owed are counted, and every held packet is tried again. -/
def releaseArrivals (s : State) : State :=
  let s := (s.steers.filter fun r => decide (r.owed ≠ 0)).foldl settleDrops s
  retryArrivals s.arrivals { s with arrivals := [] }

end Sys2Proof.Machine
end

