-- ==== Sys2Proof/Machine/Issue.lean ====
section
/-! DEFINITION. Issue: committing a gang's bundles, the boundary before them (R335, R336), choosing who issues (R107 to
R111), the matrix engine's clock (R209), and a whole wall cycle of a cluster. -/

namespace Sys2Proof.Machine

/-! ### Memory operations of a bundle (R54, R185, R192, R194) -/

/-- Change the last entry that satisfies a condition. -/
def modLast {α : Type} (f : α → Bool) (g : α → α) : List α → List α
  | [] => []
  | x :: r => if f x && !r.any f then g x :: r else x :: modLast f g r

/-- Give an atomic's old value to the result or the queue entry bound for it. -/
def fillAtomic (m due : Nat) (dst : Option (RFile × Nat)) (sdq : Option Nat) (v : Word) (g : Gang) : Gang :=
  modCtx g m fun c =>
    let mine := fun (r : Result) => dst = some (r.file, r.num) && r.due = due
    let put := fun (r : Result) => { r with val := ofWord v }
    { c with
      results := modLast mine put c.results
      hresults := modLast mine put c.hresults
      sdq := match sdq with
        | none => c.sdq
        | some i => c.sdq.modify i fun d => { d with data := ofWord v } }

/-- Perform a scratchpad write, an atomic or a latch, and leave its shadow entry (R301). -/
def performOp (p : Perf) (o : MemOp) : Perf :=
  let cl := clusterOf p
  match o with
  | .store a d ent => { p with st := shadowSet (spadWrites p.st cl a d) cl a d.length false ent }
  | .latch a _ _ ent =>
    let d := p.is.bput.getD []
    { p with st := shadowSet (spadWrites p.st cl a d) cl a d.length false ent }
  | .atomic op n a y cmp m dst sdq due ent =>
    let old := leNat (spadReads p.st cl a n)
    let st := spadWrites p.st cl a (leBytes n (atomOp op (8 * n) old y.toNat cmp.toNat))
    { st := shadowSet st cl a n true ent
      is := { p.is with work := fillAtomic m due dst sdq (atomRet op (8 * n) old) p.is.work } }

/-! ### Halting and phases (R102, R117, R118, R143) -/

/-- A member's context once it halts: results in flight and held writes stay due; its tiles are discarded, a busy one once its
last operation completes (R205). -/
def haltCtx (c : Ctx) : Ctx :=
  { c with halted := true, laq := [], ldq := [], vldq := [], rep := none, kuip := 0, pktRings := [],
           touches := Vector.replicate 8 none,
           tiles := c.tiles.map fun x => { x with present := x.present && decide (x.busy ≠ 0), touched := false },
           chans := c.chans.map fun ch => { ch with state := .idle, begun := false },
           fifos := c.fifos.map fun f => { f with ib := [], ob := [], openLen := 0 } }

/-- Add a member's phase counts to the phase area. -/
def addPhase (s : State) (gid m : Nat) : State :=
  match findGang s gid with
  | none => s
  | some g =>
    let r := phaseAdd s g m
    putMerged r.1 g r.2

/-- A member halts (R102). -/
def haltMember (s : State) (gid m : Nat) : State :=
  let s := addPhase s gid m
  match findGang s gid with
  | none => s
  | some g =>
    let r := revokeAll s g m
    let s := freeSegs (freeFrames r.1 r.2 m) r.2 m
    putGang s (modCtx r.2 m haltCtx)

/-- sy.phase (R117): the counts of the old phase are added, the bundle's own among them. -/
def setPhase (gid : Nat) (s : State) (e : Nat × Nat) : State :=
  modCtxOf (addPhase s gid e.1) gid e.1 fun c => { c with phase := e.2 }

/-! ### Committing (R54, R105, R127) -/

/-- Add a stride to an address register after the writes of its cycle (R127). -/
def applyStride (g : Gang) (e : Nat × Nat × Word) : Gang :=
  modCtx g e.1 fun c => { c with a := vmod c.a e.2.1 fun x => x + e.2.2 }

/-- Count a wall cycle of a member (R117). -/
def countIssue (second : Bool) (g : Gang) (e : Nat × Bool) : Gang :=
  modCtx g e.1 fun c =>
    { c with cnt := { c.cnt with
        lbusy := c.cnt.lbusy + e.2.toNat, lidle := c.cnt.lidle + (!e.2).toNat, wsecond := c.cnt.wsecond + second.toNat } }

/-- Count a frozen wall cycle of the members that have not halted. -/
def countFrozen (g : Gang) : Gang :=
  { g with members := g.members.map fun c =>
      if c.halted then c else { c with cnt := { c.cnt with wfrozen := c.cnt.wfrozen + 1 } } }

/-- The gang after an issue, as the ranks and the guards see it (R107, R111). -/
def issuedAt (wall : Nat) (g : Gang) : Gang :=
  { g with last := wall, starve := 0, promoted := false, claim := {}, stopped := false }

/-- Commit a handler bundle (R337, R341, R347): the logical clock stands still, and a return is taken once no handler result is
pending. -/
def commitHandler (p : Perf) (a : Att) (wall : Nat) : State :=
  let g := a.rft.foldl (fun g m => modCtx g m fun c => finishReturn { c with hret := 1 }) p.is.work
  let g := a.rfu.foldl (fun g m => modCtx g m fun c => finishReturn { c with hret := 2 }) g
  let calls := p.is.calls.map fun c => (c.1, c.2, nextPc (getCtx g c.1))
  let s := putMerged p.st p.is.old (countFrozen (issuedAt wall { g with calls := g.calls ++ calls }))
  p.is.phases.foldl (setPhase p.is.old.id) s

/-- Commit a gang's bundles: the clock advances, and what comes due lands (R105). -/
def commitRun (p : Perf) (a : Att) (wall : Nat) (second : Bool) : State :=
  let old := p.is.old
  let lc := old.lc + 1
  let g := a.busy.foldl (countIssue second) p.is.work
  let g := { g with lc := lc, members := g.members.map fun c => advanceCtx c lc }
  let g := a.strides.foldl applyStride g
  let calls := p.is.calls.map fun c => (c.1, c.2, (getCtx g c.1).pc)
  let s := putMerged p.st old (issuedAt wall { g with calls := g.calls ++ calls })
  let s := p.is.phases.foldl (setPhase old.id) s
  a.halts.foldl (fun s m => haltMember s old.id m) s

/-- Commit an attempt that neither froze nor trapped. -/
def commitAtt (a : Att) (wall : Nat) (second : Bool) : State :=
  let p := a.p.is.ops.foldl performOp a.p
  if (handlerOf a.p.is.old).isSome then commitHandler p a wall else commitRun p a wall second

/-! ### Boundaries (R335, R336) -/

/-- The address a member's kill shows. -/
def killPc (g : Gang) (m : Nat) : Nat := nextPc (getCtx g m)

/-- The code of a kill request. -/
def killReqCode (k : KillReq) : Code := if k.code = codeNum .preemptFailed then .preemptFailed else .kill

/-- The member and source of the user-level interrupt to take, lowest member first (R345). -/
def pendingInt (g : Gang) : Option (Nat × Nat) :=
  (List.range g.members.length).findSome? fun m =>
    let c := getCtx g m
    if c.halted then none else (pendingSrc c).map fun b => (m, b)

/-- Does the gang hold fixed-cycle writes or appends (R336)? -/
def holdsWrites (g : Gang) : Bool := g.members.any fun c => !c.held.isEmpty

/-- Walk a touch region of a resumed gang (R280). -/
def walkTouch (gid : Nat) (s : State) (e : Nat × Nat) : State :=
  match findGang s gid with
  | none => s
  | some g =>
    match vget none (getCtx g e.1).touches e.2 with
    | none => s
    | some t =>
      match translate s g.launch.xdesc t.region with
      | .ok x =>
        if x.r then modCtxOf s gid e.1 fun c => { c with
          touches := vset c.touches e.2 (some { t with page := x.pa, inv := s.invalNo }) }
        else raiseTicket s .resumeTranslation causePerm 0 e.2 e.1 (g.fromImage.getD 0) t.region gid 0
      | .error c => raiseTicket s .resumeTranslation c 0 e.2 e.1 (g.fromImage.getD 0) t.region gid 0

/-- Walk every region still to be walked. -/
def walkAll (s : State) (g : Gang) : State := g.walks.foldl (walkTouch g.id) (putGang s { g with walks := [] })

/-- Does a resumed gang still wait for its walks? -/
def walksWait (s : State) (gid : Nat) : Bool :=
  s.tickets.any fun t => t.code = .resumeTranslation && t.gang = gid

/-- Does a pre-emption stop the gang at this boundary (R317 step 1, R336)? -/
def preemptStops (s : State) (g : Gang) : Bool :=
  g.preempt.isSome && (g.stopped || (handlerOf g).isSome || !holdsWrites g || nextHolds s g)

/-- Is the gang fenced because its tenant's last session is gone (R459)? -/
def confFenced (s : State) (g : Gang) : Bool := g.conf && s.confFence.contains g.tenant

/-- A fenced confidential gang issues nothing; a pre-emption asked of it finds it stopped (R459, R317). -/
def fencedGang (s : State) (g : Gang) : State := putGang s { g with stopped := g.stopped || g.preempt.isSome }

/-- Is a pre-emption that tr.yld asked for due at this boundary (R354)? -/
def yieldsNow (s : State) (g : Gang) : Bool := g.yld && yieldWanted s g && g.launch.savep.isSome

/-- Act on the first cause of R335 at a gang's boundary; the flag says that the gang does not issue in this cycle (DEDUCED, log entry 87). -/
def boundary (s : State) (gid : Nat) : State × Bool :=
  match findGang s gid with
  | none => (s, true)
  | some g =>
    if g.killed.isSome then (s, true)
    else
      match g.kill with
      | some k => (killGang s g k (killReqCode k) (killPc g k.member), true)
      | none =>
        if confFenced s g then (fencedGang s g, true)
        else match g.calls.find? fun c => handlerOf g = none || handlerOf g = some c.1 with
        | some c => (takeCall s gid c.1 c.2.1 c.2.2, true)
        | none =>
          if preemptStops s g then (putGang s { g with stopped := true }, true)
          else if yieldsNow s g then
            (requestPreempt (putGang s { g with yld := false }) gid 6 none false, true)
          else
            let g := { g with yld := false }
            let s := putGang s g
            if !g.walks.isEmpty || walksWait s gid then (walkAll s g, true)
            else
              match handlerOf g, pendingInt g with
              | none, some (m, b) =>
                if !holdsWrites g || nextHolds s g then (enterUser s g m b, true) else (s, false)
              | _, _ => (s, false)

/-- Handler results due by a wall cycle, and a return that waited for them (R337). -/
def settleWall (wall : Nat) (g : Gang) : Gang :=
  { g with members := g.members.map fun c => finishReturn (landWall c wall) }

/-- Bring a gang up to the instant: results that could not land before. While a handler runs the logical clock stands still,
and a result that arrives late lands after the return (R337). -/
def settleGang (g : Gang) : Gang :=
  if (handlerOf g).isSome then g else { g with members := g.members.map fun c => advanceCtx c g.lc }

/-! ### Frozen and trapped gangs (R71, R113, R334) -/

/-- The place of a storage action: the scalar block, the vector blocks, the tiles and the scratchpad blocks, each kind in
increasing number (R310), then the others. -/
def actRank : Act → List Nat
  | .block _ b => [if b = 0 then 0 else 1, b]
  | .claim _ t => [2, t]
  | .spad b => [3, b]
  | .fill _ _ => [4, 0]
  | .segment _ _ => [4, 0]

/-- Insert an action at its place, after those of the same place. -/
def insertAct (a : Act) : List Act → List Act
  | [] => [a]
  | b :: r => if actRank a < actRank b then a :: b :: r else b :: insertAct a r

/-- The storage actions of an attempt, in the order in which they are requested. -/
def orderActs (as : List Act) : List Act := as.foldl (fun l a => insertAct a l) []

/-- The storage actions of an attempt stay in force (R71); nothing else of it does. What the gang is frozen on is noted for
R204 and R228. -/
def performActs (s : State) (a : Att) : State :=
  match findGang s a.p.is.old.id with
  | none => s
  | some g => releaseArrivals ((orderActs a.p.is.acts).foldl (performAct g.id)
      (putGang s { g with claim := { lake := a.p.is.freezes.contains .lakeFill } }))

/-- What a freeze, and so a trap, brings about at its boundary before anything else: a pre-emption stops the gang (R317
step 1), or a user-level interrupt is taken although writes are held (R335, R336). The flag says that one did. -/
def freezeTurn (s : State) (gid : Nat) : State × Bool :=
  match findGang s gid with
  | none => (s, false)
  | some g =>
    if g.preempt.isSome then (putGang s { g with stopped := true }, true)
    else
      match handlerOf g, pendingInt g with
      | none, some (m, b) => (enterUser s g m b, true)
      | _, _ => (s, false)

/-- A wall cycle in which a running gang does not issue (R117). -/
def countTurn (s : State) (gid : Nat) : State :=
  match findGang s gid with
  | none => s
  | some g => if g.killed.isSome then s else putGang s (countFrozen g)

/-- A frozen gang: its storage actions, and what a freeze brings about. -/
def frozenGang (s : State) (a : Att) : State :=
  countTurn (freezeTurn (performActs s a) a.p.is.old.id).1 a.p.is.old.id

/-- A gang whose bundles trap (R334). -/
def trappedGang (s : State) (a : Att) : State :=
  let gid := a.p.is.old.id
  let r := freezeTurn (performActs s a) gid
  countTurn (if r.2 then r.1 else match chooseTrap a.p.is.traps with
    | none => r.1
    | some t => takeTrap r.1 gid t) gid

/-! ### Who issues (R107 to R111) -/

/-- A candidate (R106): a gang and its attempt. -/
structure Cand where
  g : Gang
  a : Att
deriving DecidableEq, Repr

/-- Rank by R107, promoted gangs first. Among them the one that has waited longest comes first, which the model takes to be
the one whose last issue lies furthest back, not the one with the higher starvation count (DEDUCED, log entry 107). -/
def candBefore (x y : Cand) : Bool :=
  let k := fun (c : Cand) =>
    [(!c.g.promoted).toNat, if c.g.promoted then c.g.last else 0, c.g.prio, c.g.last, c.g.slot, (getCtx c.g 0).core]
  decide (k x < k y)

/-- Insert a candidate at its rank. -/
def insertCand (c : Cand) : List Cand → List Cand
  | [] => [c]
  | d :: r => if candBefore c d then c :: d :: r else d :: insertCand c r

/-- The candidates in rank order. -/
def rankCands (cs : List Cand) : List Cand := cs.foldl (fun l c => insertCand c l) []

/-- Do two sets of bank rows meet (R182)? -/
def rowsMeet (a b : List (Nat × Nat)) : Bool := a.any fun x => b.any fun y => x.1 = y.1 && x.2 != y.2

/-- Slots for a unit. -/
def countUnit (u : IUnit) (us : List IUnit) : Nat := (us.filter fun x => x = u).length

/-- Fits (R109). -/
def fitsUnits (p s : List IUnit) : Bool :=
  ([IUnit.s, .b, .m, .c, .f, .e].all fun u => decide (countUnit u p + countUnit u s ≤ 1)) &&
  decide (countUnit .a p + countUnit .a s ≤ 2) && decide (countUnit .v p + countUnit .v s ≤ 2)

/-- The places given in a wall cycle: by core, the units of the primary and whether a secondary is placed; the rows
reserved; and who issues, in reservation order, with whether as secondary. -/
structure Places where
  prim : List (Nat × List IUnit) := []
  sec : List Nat := []
  rows : List (Nat × Nat) := []
  who : List (Nat × Bool) := []
deriving DecidableEq, Repr

/-- Try a candidate as primary (R108). -/
def tryPrimary (x : Places) (c : Cand) : Places :=
  if (c.a.units.all fun u => !x.prim.any fun p => p.1 = u.1) && !rowsMeet c.a.p.is.rows x.rows then
    { x with prim := x.prim ++ c.a.units, rows := x.rows ++ c.a.p.is.rows, who := x.who ++ [(c.g.id, false)] }
  else x

/-- Try a candidate without a primary place as secondary (R108). -/
def trySecondary (x : Places) (c : Cand) : Places :=
  if x.who.any fun w => w.1 = c.g.id then x
  else if (c.a.units.all fun u => !x.sec.contains u.1 && (match x.prim.find? fun p => p.1 = u.1 with
      | none => false
      | some p => fitsUnits p.2 u.2)) && !rowsMeet c.a.p.is.rows x.rows then
    { x with sec := x.sec ++ c.a.units.map (·.1), rows := x.rows ++ c.a.p.is.rows, who := x.who ++ [(c.g.id, true)] }
  else x

/-- R108 over ranked candidates, with the rows engines have reserved (R184). -/
def assignPlaces (guard : List (Nat × Nat)) (cs : List Cand) : Places :=
  cs.foldl trySecondary (cs.foldl tryPrimary { rows := guard })

/-- Promote a gang whose starvation count has reached 1,024 (R111). -/
def promote (g : Gang) : Gang := if 1024 ≤ g.starve then { g with promoted := true } else g

/-- A candidate that found no place (R111; DEDUCED, log entry 82). -/
def starveGang (g : Gang) : Gang := promote { g with starve := g.starve + 1 }

/-- A chosen gang issues, unless a gang before it in this cycle has changed what its bundles meet. -/
def issueChosen (cl : Nat) (s : State) (w : Nat × Bool) : State :=
  match findGang s w.1 with
  | none => s
  | some g =>
    let a := attempt s g
    if !a.p.is.freezes.isEmpty then frozenGang s a
    else if !a.p.is.traps.isEmpty then trappedGang s a
    else commitAtt a (getCluster s cl).wall w.2

/-- A gang that a candidate list left out: frozen in this cycle for want of a place. -/
def passOver (issued : List (Nat × Bool)) (s : State) (c : Cand) : State :=
  if issued.any fun w => w.1 = c.g.id then s
  else
    match findGang s c.g.id with
    | none => s
    | some g => countTurn (freezeTurn (putGang s (starveGang g)) g.id).1 g.id

/-- A gang as a wall cycle finds it: handler results that are due are written first. -/
def openTurn (wall : Nat) (s : State) (gid : Nat) : State :=
  match findGang s gid with
  | none => s
  | some g => putGang s (settleWall wall { g with claim := {} })

/-- Consider one gang before the choice: its boundary, and then its attempt (R106, R335). The candidates so far go along. -/
def considerGang (wall : Nat) (sc : State × List Cand) (gid : Nat) : State × List Cand :=
  let b := boundary (openTurn wall sc.1 gid) gid
  match findGang b.1 gid with
  | none => (b.1, sc.2)
  | some g =>
    if g.killed.isSome then (b.1, sc.2)
    else if b.2 then (putGang b.1 (countFrozen g), sc.2)
    else
      let g := settleGang g
      let s := putGang b.1 g
      let a := attempt s g
      if !a.p.is.freezes.isEmpty then (frozenGang s a, sc.2)
      else if !a.p.is.traps.isEmpty then (trappedGang s a, sc.2)
      else (s, sc.2 ++ [⟨g, a⟩])

/-! ### The matrix engine (R209, R213) -/

/-- Free a frame that its halted or killed context no longer needs once its last operation completes (R205). -/
def releaseFrame (s : State) (g : Gang) (m t : Nat) : State :=
  let c := getCtx g m
  if (c.halted || g.killed.isSome) && decide ((vget {} c.tiles t).busy = 0) then
    let k := getCore s g.cluster c.core
    let clear := fun (f : Frame) => if f = Frame.held g.id m t then Frame.free else f
    setCore s g.cluster c.core { k with frames := k.frames.map clear }
  else s

/-- An operation's share of its array slot ends (R243). -/
def leaveArr (a : Option ArrSlot) : Option ArrSlot :=
  match a with
  | none => none
  | some x => if x.zombie && decide (x.inuse ≤ 1) then none else some { x with inuse := x.inuse - 1 }

/-- Is an owned tile the one an operation of a core works on? -/
def ownedOf (cl co : Nat) (o : ArrayOp) (t : OwnedTile) : Bool :=
  t.core = coreKey cl co && t.gang = o.gang && t.member = o.member && t.tile = o.tile

/-- Write an operation's result to a tile that a saved image owns; one that is dead is discarded once its last operation has
completed (R205). -/
def writeOwned (s : State) (cl co : Nat) (o : ArrayOp) (a : ArrSlot) : State :=
  let done := fun (t : OwnedTile) =>
    if ownedOf cl co o t then
      { t with busy := t.busy - 1, data := mapFill 0 [] 0 (arrayResult o a (accSlice t.data 0 2048)) }
    else t
  let s := { s with ownedTiles := s.ownedTiles.map done }
  match s.ownedTiles.find?
    fun t => ownedOf cl co o t && t.dead && decide (t.busy = 0) with
  | none => s
  | some t => dropResident s t.ibase 4 t.member t.tile

/-- Write an operation's result to its tile, wherever that stands, and end its use of the lake slot (R231). -/
def writeTile (s : State) (cl co : Nat) (o : ArrayOp) (a : ArrSlot) : State :=
  let s := modCtxOf s o.gang o.member fun c =>
    { c with lakes := vmod c.lakes o.lake fun x => { x with inuse := x.inuse - 1 } }
  match (findGang s o.gang).filter fun g => (vget {} (getCtx g o.member).tiles o.tile).present with
  | some g =>
    let g' := modCtx g o.member fun c =>
      { accFill c (accKey o.tile 0 0) (arrayResult o a (tileElems c o.tile)) with
        tiles := vmod c.tiles o.tile fun x => { x with busy := x.busy - 1 } }
    releaseFrame (putGang s g') g' o.member o.tile
  | none => writeOwned s cl co o a

/-- The operation at the head of a core's engine queue completes (R209). -/
def completeOp (s : State) (cl co : Nat) : State :=
  let k := getCore s cl co
  match k.engine with
  | [] => s
  | o :: r =>
    let s := match vget none k.arr o.aslot with
      | none => s
      | some a => writeTile s cl co o a
    let k := getCore s cl co
    setCore s cl co { k with engine := r, arr := vmod k.arr o.aslot leaveArr }

/-- One wall cycle of a core's engine. -/
def tickEngine (cl : Nat) (s : State) (co : Nat) : State :=
  let k := getCore s cl co
  match k.engine with
  | [] => s
  | o :: r =>
    let o := { o with left := o.left - 1 }
    let s := setCore s cl co { k with engine := o :: r }
    if o.left = 0 ∧ o.wait = false then completeOp s cl co else s

/-! ### A wall cycle (R108) -/

/-- Gangs of a cluster. -/
def gangsOf (s : State) (cl : Nat) : List Nat := (s.gangs.filter fun g => g.cluster = cl).map fun g => g.id

/-- The end of a wall cycle: engines advance, reserved rows are given back, the wall clock counts. -/
def closeCycle (s : State) (cl : Nat) : State :=
  let s := (List.range 8).foldl (tickEngine cl) s
  let c := getCluster s cl
  setCluster s cl { c with wall := c.wall + 1, guard := [] }

/-- A wall cycle of a cluster: boundaries and attempts, the choice, the issues in reservation order, the engines. -/
def wallCycle (s : State) (cl : Nat) : State :=
  let c := getCluster s cl
  let x := (gangsOf s cl).foldl (considerGang c.wall) (s, [])
  let places := assignPlaces c.guard (rankCands x.2)
  let s := places.who.foldl (issueChosen cl) x.1
  closeCycle (x.2.foldl (passOver places.who) s) cl

end Sys2Proof.Machine
end

