-- ==== Sys2Proof/Machine/Link.lean ====
section
/-! DEFINITION. Link: the events of links (R388 to R392, R414), placing packets on links (R390, R393, R404), and forwarding
(R393). -/

namespace Sys2Proof.Machine

/-! ### Placing packets (R390, R393) -/

/-- Does the fabric engine work: power is applied and the links may train (R437)? -/
def fabricRuns (s : State) : Bool := s.powered && decide (s.stage ≠ .root)

/-- Replace one operation of the engine. -/
def replaceOp (s : State) (o o' : RemOp) : State := { s with remote := s.remote.map fun x => if x = o then o' else x }

/-- Bytes an access covers. -/
def accBytes (o : RemOp) : Nat :=
  match o.kind with
  | .store => 8 * o.words.length
  | .load => 8 * o.nrep
  | .read n => n.toNat
  | _ => 8

/-- Operations of one context: of this device by its gang and member, of another by its place there. -/
def sameCtx (a b : RemOp) : Bool :=
  if a.src.isSome then a.src = b.src && a.tenant = b.tenant && a.cl = b.cl && a.co = b.co && a.sl = b.sl
  else b.src.isNone && a.gang = b.gang && a.member = b.member

/-- Is it a store, load or atomic of a slot? -/
def isAccess (o : RemOp) : Bool :=
  match o.kind with
  | .store | .load | .atomic _ => o.plan.isNone
  | _ => false

/-- Two operations of one context that are performed in issue order (R409): to one sector, or messages to one FIFO. -/
def ordered (a b : RemOp) : Bool :=
  sameCtx a b &&
  ((decide (a.kind = .msg) && decide (b.kind = .msg) && decide (bitsOf a.addr.toNat 62 31 = bitsOf b.addr.toNat 62 31)) ||
    (isAccess a && isAccess b && decide (a.addr.toNat / 2 ^ 47 = b.addr.toNat / 2 ^ 47) &&
      rangesMeet (a.addr.toNat / 64 * 64) ((a.addr.toNat % 64 + accBytes a + 63) / 64 * 64) (b.addr.toNat / 64 * 64)
        ((b.addr.toNat % 64 + accBytes b + 63) / 64 * 64)))

/-- The number of the last earlier packet of an operation's order (R409) that is still unresolved: its header tells it, so that
the target performs the two in issue order (DESIGN CHOICE, log entry 110). -/
def orderedAfter (s : State) (o : RemOp) : Option Nat :=
  ((s.remote.takeWhile fun x => x != o).filter fun x => x.dev = o.dev && !x.lost && x.ans.isNone && ordered o x).getLast?.map
    fun x => x.seq

/-- A packet leaves its outbound FIFO: its words are free (R394). -/
def leaveFifo (s : State) (o : RemOp) : State :=
  modCtxOf s o.gang o.member fun c => { c with fifos := vmod c.fifos o.port fun f => { f with obBusy := f.obBusy - o.obw } }

/-- Put a REQ packet on a link that has the allowance. -/
def putOnLink (s : State) (port : Nat) (o : RemOp) : State :=
  let l := linkOf s port
  let o' := { o with sent := true, obw := 0, via := some (port, l.peer), after := orderedAfter s o }
  sendOut (replaceOp (setLink (leaveFifo s o) port { l with allowReq := l.allowReq - o.flits }) o o') (.link port o')

/-- The port a packet goes out on: the named one when it lies on a minimal path, else another on one. -/
def pathPort (ports : List Nat) (named : Nat) : Option Nat := if ports.contains named then some named else ports.head?

/-- A marker placed now carries the number of the device at the far end (DEDUCED, log entry 65). -/
def renumber (s : State) (o : RemOp) : State × RemOp :=
  let peer := farEnd s o.port
  if peer = o.dev then (s, o)
  else
    let n := mapGet 0 s.seqNo peer
    let o' := { o with dev := peer, seq := n }
    (replaceOp { s with seqNo := mapSet 0 s.seqNo peer (n + 1) } o o', o')

/-- Two packets of one outbound FIFO: a plan's reads go through none. -/
def sameFifo (a b : RemOp) : Bool :=
  a.plan.isNone && b.plan.isNone && a.gang = b.gang && a.member = b.member && a.port = b.port

/-- Try to place one packet; an outbound FIFO whose packet stays holds the later ones back. A packet without a path is
held by the engine (DESIGN CHOICE, log entry 17), and so is a marker on a link that is not UP, which no later packet waits
for (R393, R404). -/
def placeOp (x : State × List RemOp) (o : RemOp) : State × List RemOp :=
  let s := x.1
  if o.sent || o.lost then x
  else if o.kind != .abort && x.2.any (sameFifo o) then x
  else if o.kind = .mark ∧ o.port ≠ 31 then
    (if (linkOf s o.port).st ≠ .up then x
     else if o.flits ≤ (linkOf s o.port).allowReq then (let r := renumber s o; (putOnLink r.1 o.port r.2, x.2))
     else (s, x.2 ++ [o]))
  else if o.dev = s.devId then (replaceOp (leaveFifo s o) o { o with sent := true, obw := 0 }, x.2)
  else
    match pathPort (routePorts s o.dev) o.port with
    | none => (replaceOp (leaveFifo s o) o { o with obw := 0 }, x.2)
    | some port => if o.flits ≤ (linkOf s port).allowReq then (putOnLink s port o, x.2) else (s, x.2 ++ [o])

/-- Place every packet that may go. -/
def placeOps (s : State) : State := (s.remote.foldl placeOp (s, [])).1

/-- Try to place one reply: its flits count against the RSP allowance. -/
def placeReply (x : State × List PendReply) (r : PendReply) : State × List PendReply :=
  let s := x.1
  let n := flitsOf r.words.length
  match (routePorts s r.dev).find? fun p => decide (n ≤ (linkOf s p).allowRsp) with
  | none => (s, x.2 ++ [r])
  | some p =>
    let l := linkOf s p
    (sendOut (setLink s p { l with allowRsp := l.allowRsp - n }) (.reply p r), x.2)

/-- Place every reply that may go. -/
def placeReplies (s : State) : State :=
  let x := s.replies.foldl placeReply ({ s with replies := [] }, [])
  { x.1 with replies := x.2 }

/-! ### Returning allowance (R390, R391, R394) -/

/-- Bytes the message buffer holds. -/
def messageBytes (ms : List MsgWait) : Nat := ms.foldl (fun n w => n + 8 * w.words.length) 0

/-- Is the message buffer full: it lacks room for a longest message (R394; DEDUCED, log entry 108)? -/
def bufferFull (s : State) : Bool := decide (2 ^ 19 < messageBytes s.msgBuf + 264)

/-- Return one class of what this end owes on a link. -/
def payClass (s : State) (port : Nat) (rsp : Bool) : State :=
  let l := linkOf s port
  let n := if rsp then l.retRsp else l.retReq
  if n = 0 then s
  else sendOut (setLink s port (if rsp then { l with retRsp := 0 } else { l with retReq := 0 })) (.credit port rsp n)

/-- Return what this end owes on an UP link, but for the REQ flits that a full message buffer withholds on a link that
brings messages. -/
def payReturns (s : State) (port : Nat) : State :=
  if (linkOf s port).st ≠ .up then s
  else
    let s := payClass s port true
    if (linkOf s port).msgs && bufferFull s then s else payClass s port false

/-- A packet of `n` flits has left the buffer of the link it came in on: its flits return on an UP link, accumulate over a
dark interval, and are lost with a link that holds no far end, or holds another one since (`stale`). -/
def returnFlits (s : State) (port : Nat) (rsp : Bool) (n : Nat) (stale : Bool := false) : State :=
  let l := linkOf s port
  if !stale && (decide (l.st = .up) || l.heldPeer.isSome) then
    payReturns (setLink s port (if rsp then { l with retRsp := l.retRsp + n } else { l with retReq := l.retReq + n })) port
  else s

/-! ### Packets of other devices (R393) -/

/-- A packet of another device, as an operation on its way to `dst`. -/
def transitOp (r : ReqPacket) (dst : Nat) : RemOp where
  seq := r.sn.toNat
  dev := dst
  port := 0
  gang := 0
  member := 0
  tenant := r.tenant.toNat
  kind := r.kind
  addr := r.addr
  words := r.words
  nrep := match r.kind with
    | .read n => (n.toNat + 7) / 8
    | _ => r.nrep.val
  flits := flitsOf r.words.length
  obw := 0
  sent := true
  lc := 0
  lost := false
  ans := none
  cl := r.cl.val
  co := r.co.val
  sl := r.sl.val
  group := r.group.toNat
  src := some r.dev.toNat
  after := r.after.map fun n => n.toNat

/-- A reply of another device, on its way to `dst`. -/
def transitReply (r : RspPacket) (dst : Nat) : PendReply := ⟨dst, r.sn.toNat, r.ok, r.words, some r.dev.toNat⟩

/-- Forward one packet that stands in a buffer, onto a minimal path with the allowance; one to this device stays. -/
def forward (x : State × List InPacket) (e : InPacket) : State × List InPacket :=
  let s := x.1
  let stay := (s, x.2 ++ [e])
  if e.dst = s.devId then stay
  else
    match e.pkt with
    | .req r =>
      let o := transitOp r e.dst
      (match (routePorts s e.dst).find? fun p => decide (o.flits ≤ (linkOf s p).allowReq) with
        | none => stay
        | some p =>
          let l := linkOf s p
          let s := setLink s p { l with allowReq := l.allowReq - o.flits }
          (returnFlits (sendOut s (.link p { o with via := some (p, l.peer) })) r.port.val false o.flits e.stale, x.2))
    | .rsp r =>
      let n := flitsOf r.words.length
      match (routePorts s e.dst).find? fun p => decide (n ≤ (linkOf s p).allowRsp) with
      | none => stay
      | some p =>
        let l := linkOf s p
        let s := setLink s p { l with allowRsp := l.allowRsp - n }
        (returnFlits (sendOut s (.reply p (transitReply r e.dst))) r.port.val true n e.stale, x.2)

/-- Forward every packet that may go. -/
def forwardAll (s : State) : State :=
  let x := s.pendIn.foldl forward ({ s with pendIn := [] }, [])
  { x.1 with pendIn := x.2 }

/-- The fabric engine places what it can. -/
def placePackets (s : State) : State := if fabricRuns s then forwardAll (placeReplies (placeOps s)) else s

/-! ### Link events (R389 to R392) -/

/-- A link event: only ports with a link, and only while the links work. -/
def linkEvent (s : State) (port : Nat) (f : Link → State) : State :=
  if fabricRuns s && linkPort port then f (linkOf s port) else s

/-- SIGNAL_LOCK (R389): a DOWN or DARK link trains. -/
def execSignalLock (port : Port) (s : State) : Host.Outcome State Fault Refusal :=
  .next (linkEvent s port.val fun l => if l.st = .down ∨ l.st = .dark then trainLink s port.val else s)

/-- A link enters UP (R390, R391, R405; DEDUCED, log entry 64). -/
def enterUp (l : Link) (peer peerPort : Nat) : Link :=
  let same := decide (l.heldPeer = some (peer, peerPort))
  { st := .up
    peer := peer
    peerPort := peerPort
    epoch := (l.epoch + 1) % 65536
    allowReq := if same then l.allowReq + l.oweReq else 512
    allowRsp := if same then l.allowRsp + l.oweRsp else 512
    retReq := if same then l.retReq else 0
    retRsp := if same then l.retRsp else 0
    retrans := l.retrans
    msgs := same && l.msgs }

/-- The port a packet came in on. -/
def Transit.inPort : Transit → Nat
  | .req r => r.port.val
  | .rsp r => r.port.val

/-- What still stands in the buffer of a link that another far end now holds is returned to nobody (R391). -/
def staleIn (s : State) (port : Nat) (l : Link) (peer peerPort : Nat) : State :=
  if l.heldPeer = some (peer, peerPort) then s
  else { s with pendIn := s.pendIn.map fun e => if Transit.inPort e.pkt = port then { e with stale := true } else e }

/-- TRAINING_COMPLETE (R391). -/
def execTrainingComplete (port : Port) (peer : BitVec 15) (peerPort : Port) (s : State) : Host.Outcome State Fault Refusal :=
  .next (linkEvent s port.val fun l =>
    if l.st = .training then
      let s := staleIn s port.val l peer.toNat peerPort.val
      placePackets (payReturns (setLink s port.val (enterUp l peer.toNat peerPort.val)) port.val)
    else s)

/-- SIGNAL_LOSS (R389): an UP link becomes DARK and holds its allowances (R391). -/
def execSignalLoss (port : Port) (s : State) : Host.Outcome State Fault Refusal :=
  .next (linkEvent s port.val fun l =>
    if l.st = .up then setLink s port.val { l with st := .dark, heldPeer := some (l.peer, l.peerPort) } else s)

/-- A link enters DOWN: it holds nothing of its far end any more. -/
def downLink (s : State) (port : Nat) (l : Link) : State := setLink s port { epoch := l.epoch, retrans := l.retrans }

/-- DARK_TIMEOUT (R389, R392). -/
def execDarkTimeout (port : Port) (s : State) : Host.Outcome State Fault Refusal :=
  .next (linkEvent s port.val fun l =>
    if l.st = .dark then
      let (n, s) := recentRetrans s l 3
      let s := deliver (downLink s port.val l) (linkRecord .linkDown port.val 3 l.peer n)
      logAppend s 4 (logPort port.val) 0 (codeNum .linkDown)
    else s)

/-- RETRAINING_FAILED (R389): the link is DOWN. -/
def execRetrainingFailed (port : Port) (s : State) : Host.Outcome State Fault Refusal :=
  .next (linkEvent s port.val fun l => if l.st = .training then downLink s port.val l else s)

/-- LINK_ERROR_FENCE (R392): more than 16 retransmissions, or an uncorrectable error in a buffer. -/
def execLinkErrorFence (port : Port) (ecc : Bool) (s : State) : Host.Outcome State Fault Refusal :=
  .next (linkEvent s port.val fun l =>
    if l.st ≠ .fenced ∧ (ecc ∨ 16 < l.retrans) then fenceLink s port.val (if ecc then 4 else 1) else s)

/-- FLIT_CRC_FAILURE (R392): the flit is sent again, and counted. -/
def execFlitCrcFailure (port : Port) (s : State) : Host.Outcome State Fault Refusal :=
  .next (linkEvent s port.val fun l => if l.st = .up then setLink s port.val { l with retrans := l.retrans + 1 } else s)

/-- KFLCTL_FENCE (R414). -/
def execKflctlFence (port : Port) (s : State) : Host.Outcome State Fault Refusal := .next (fenceByCtl s port.val)

/-- KFLCTL_UNFENCE (R389, R414). -/
def execKflctlUnfence (port : Port) (s : State) : Host.Outcome State Fault Refusal := .next (unfenceLink s port.val)

/-- KFLCTL_RETRAIN (R389, R414). -/
def execKflctlRetrain (port : Port) (s : State) : Host.Outcome State Fault Refusal := .next (retrainLink s port.val)

/-- CREDIT_RETURN (R390, R391): credited on an UP link; what returns while the link is dark or trains again is credited
when it is UP with the same far end. -/
def execCreditReturn (port : Port) (rsp : Bool) (n : BitVec 16) (s : State) : Host.Outcome State Fault Refusal :=
  .next (linkEvent s port.val fun l =>
    if l.st = .up then
      placePackets (setLink s port.val (if rsp then { l with allowRsp := l.allowRsp + n.toNat }
        else { l with allowReq := l.allowReq + n.toNat }))
    else if l.heldPeer.isSome then
      setLink s port.val (if rsp then { l with oweRsp := l.oweRsp + n.toNat } else { l with oweReq := l.oweReq + n.toNat })
    else s)

/-! ### Forwarding (R393) -/

/-- The packet as it stands in the buffer of its link, if it waits there. -/
def heldIn (s : State) (x : Transit) (dst : Nat) : Option InPacket := s.pendIn.find? fun e => e.pkt = x && e.dst = dst

/-- A packet stands in the buffer of its link, where it waits. -/
def holdPacketIn (s : State) (x : Transit) (dst : Nat) : State :=
  if (heldIn s x dst).isSome then s else { s with pendIn := s.pendIn ++ [{ pkt := x, dst := dst }] }

/-- PACKET_FORWARDING (R393): onto a minimal path once it has the allowance; this device's memory is not touched. -/
def execPacketForwarding (x : Transit) (dst : BitVec 15) (s : State) : Host.Outcome State Fault Refusal :=
  .next (if !fabricRuns s || decide (dst.toNat = s.devId) then s else placePackets (holdPacketIn s x dst.toNat))

end Sys2Proof.Machine
end

