-- ==== Sys2Proof/Machine/Engine.lean ====
section
/-! DEFINITION. Engine: the wall cycle of a cluster as a step, what it holds as steps of their own, the matrix engine and
lake fills (R9, R108, R111, R131, R139, R141, R200, R206, R209, R227, R228, R239, R246, R318). A step whose event
cannot occur changes nothing. -/

namespace Sys2Proof.Machine

/-! ### Errors of the arrays (R136, R200, R206) -/

/-- Kill every task of a cluster for an error that fences it (R200, R348): reason 3. -/
def killCluster (code : Code) (tval : Word) (s : State) (gid : Nat) : State := killTask s gid code 3 0 tval 0

/-- Fence a cluster after an uncorrectable scratchpad error (R200, R453). -/
def fenceCluster (s : State) (cl a : Nat) : State :=
  let c := getCluster s cl
  if c.fenced then s
  else
    let s := setCluster s cl { c with fenced := true }
    let s := logAppend s 5 (logLoc cl 0) a (codeNum .spadUncorrectable)
    (gangsOf s cl).foldl (killCluster .spadUncorrectable (BitVec.ofNat 64 a)) s

/-- The owner of a frame of a core. -/
def frameOwner (s : State) (cl co fr : Nat) : Frame := vget .retired (getCore s cl co).frames fr

/-- Retire a frame (R206). -/
def retireFrame (s : State) (cl co fr : Nat) : State :=
  let k := getCore s cl co
  setCore s cl co { k with frames := vset k.frames fr .retired }

/-- An uncorrectable accumulator error (R206): the tile's task is killed, or the saved image is incomplete. -/
def loseFrame (s : State) (cl co fr : Nat) : State :=
  match frameOwner s cl co fr with
  | .free => retireFrame s cl co fr
  | .retired => s
  | .held gid m t => killTask (retireFrame s cl co fr) gid .accUncorrectable 0 0 (BitVec.ofNat 64 t) m
  | .owned ib m t =>
    let s := setImageState s ib 2
    { retireFrame s cl co fr with
      ownedTiles := s.ownedTiles.filter fun o => !(o.ibase = ib && o.member = m && o.tile = t) }

/-- The register entry whose parity fails: bits 7:0 of the trap value number it and bits 15:8 give its file, as R315 codes it,
6 to 8 the service bank, 9 the first entry of an inbound FIFO (DESIGN CHOICE, log entry 44). A read of it in this wall cycle
raises REGISTER_PARITY (R136). -/
def badEntry (gid m : Nat) (reg : Word) : BadReg :=
  let f := bitsOf reg.toNat 15 8
  let file := if f = 6 then some RFile.ss else if f = 7 then some .sa else if f = 8 then some .sq else if f = 9 then none
    else some (fileOf f)
  ⟨gid, m, file, reg.toNat % 256, reg⟩

/-- What an error of the arrays brings about in a wall cycle of a cluster. -/
def meetError (s : State) (cl : Nat) : IssueErr → State
  | .ok => s
  | .spadFixed a => logAppend s 1 (logLoc cl 0 + a.toNat / 256 % 16) a.toNat 0
  | .spadLost a => fenceCluster s cl a.toNat
  | .parity t m reg => { s with badReg := some (badEntry t.toNat m.val reg) }
  | .accFixed co fr => logAppend s 1 (logLoc cl co.val) fr.val 0
  | .accLost co fr => loseFrame s cl co.val fr.val
  | .memLost pa => { s with bad := if s.bad.contains (pa.toNat / 64) then s.bad else s.bad ++ [pa.toNat / 64] }

/-- ISSUE_CYCLE (R108): one wall cycle of a cluster; the fabric engine then places the packets that may go (DESIGN CHOICE, log entry 44). -/
def execIssueCycle (cl : Fin 40) (err : IssueErr) (s : State) : Host.Outcome State Fault Refusal :=
  .next { placePackets (wallCycle (meetError { s with iss := none } cl.val err) cl.val) with badReg := none }

/-- STARVATION_PROMOTION (R111). -/
def execStarvationPromotion (task : Word) (s : State) : Host.Outcome State Fault Refusal :=
  .next (match findGang s task.toNat with
    | none => s
    | some g => putGang s (promote g))

/-! ### Parts of an issue (R9, R131, R139, R141, R318) -/

/-- REGISTER_RESULT_LANDS (R9, R43): the results and statuses due by the gang's logical cycle. -/
def execRegisterResultLands (task : Word) (m : Fin 8) (s : State) : Host.Outcome State Fault Refusal :=
  .next (match findGang s task.toNat with
    | none => s
    | some g =>
      if (handlerOf g).isSome then s else modCtxOf s g.id m.val fun c => landPend (landDue c g.lc) g.lc)

/-- QUEUE_LOAD_DATA_ARRIVAL (R139). -/
def execQueueLoadDataArrival (task : Word) (m : Fin 8) (s : State) : Host.Outcome State Fault Refusal :=
  .next (match findGang s task.toNat with
    | none => s
    | some g => modCtxOf s g.id m.val fun c => arriveLoads c g.lc)

/-- May the gang's bundles of this logical cycle issue: no freeze and no trap (R71, R106)? -/
def mayIssue (s : State) (g : Gang) : Bool :=
  let a := attempt s g
  g.killed.isNone && (handlerOf g).isNone && a.p.is.freezes.isEmpty && a.p.is.traps.isEmpty

/-- A part of an issue that member `m` finds due at the gang's logical cycle is performed with the whole issue of that cycle:
after the reads of its bundles, and in the order of their slots (R54, R141, R185). So its event is a wall cycle of the
cluster, where the gang may issue (DEDUCED, log entry 47). -/
def duePart (s : State) (task m : Nat) (due : Ctx → Nat → Bool) : State :=
  match findGang s task with
  | none => s
  | some g =>
    if hasMember g m && due (getCtx g m) g.lc && mayIssue s g then wallCycle { s with iss := none } g.cluster else s

/-- QUEUE_STORE_PAIRING (R141). -/
def execQueueStorePairing (task : Word) (m : Fin 8) (s : State) : Host.Outcome State Fault Refusal :=
  .next (duePart s task.toNat m.val canPair)

/-- Does a repeat reissue its operation at logical cycle `t` (R131)? -/
def reissueDue (c : Ctx) (t : Nat) : Bool :=
  match c.rep with
  | none => false
  | some r => decide (r.remaining ≠ 0) && decide (r.due ≤ t)

/-- REPEAT_REISSUE (R131). -/
def execRepeatReissue (task : Word) (m : Fin 8) (s : State) : Host.Outcome State Fault Refusal :=
  .next (duePart s task.toNat m.val reissueDue)

/-- HELD_WRITE_PERFORMED (R318). -/
def execHeldWritePerformed (task : Word) (m : Fin 8) (s : State) : Host.Outcome State Fault Refusal :=
  .next (duePart s task.toNat m.val fun c t => !(dueHeld c t).isEmpty)

/-! ### The matrix engine (R206, R209, R239) -/

/-- Bytes of a lake's source under a descriptor, or the cause of LAKE_SOURCE (R227, R249). -/
def lakeSource (s : State) (desc src : Nat) (f : MFmt) (sp : Bool) : Except Nat (List Byte) :=
  match cleanRead s desc src (lakeLen f sp) with
  | .error c => .error (if c = causeUncorr then 0x31 else 0x30)
  | .ok bs => .ok bs

/-- The weights of a core's array slot after a refill. -/
def refillArr (bs : List Byte) (a : Option ArrSlot) : Option ArrSlot := a.map fun x => { x with bytes := bs, filled := true }

/-- The image that owns the tile of an operation accepted before its gang was saved. -/
def opImage (s : State) (cl co : Nat) (o : ArrayOp) : Option Nat :=
  if (findGang s o.gang).isSome then none else (s.ownedTiles.find? (ownedOf cl co o)).map fun t => t.ibase

/-- The operation at the head of an engine queue starts afresh, with the weights of its slot read again. -/
def redoOp (s : State) (cl co : Nat) (o : ArrayOp) (bs : Option (List Byte)) : State :=
  let k := getCore s cl co
  let arr := match bs with
    | none => k.arr
    | some b => vmod k.arr o.aslot (refillArr b)
  setCore s cl co { k with engine := { o with left := 4 * planesRead o.pl + 1 } :: k.engine.drop 1, arr := arr }

/-- ktval of LAKE_LOST (R248). -/
def lakeLostVal (a : ArrSlot) (o : ArrayOp) : Word :=
  BitVec.ofNat 64 (a.gen.toNat * 2 ^ 32 + o.reissue % 256 * 65536 + 0x50 * 256 + a.lake)

/-- Is a pinned lake whose weights stand in an array slot stale: the slot of a running gang, while it still names that lake, or
the watch entry of a saved image? -/
def lakeStale (s : State) (a : ArrSlot) (o : ArrayOp) (ib : Option Nat) : Bool :=
  match ib with
  | some ib => s.watch.any fun e => match e.2 with
    | none => false
    | some w => w.ibase = some ib && w.member = o.member && w.lake = o.lake && w.stale
  | none =>
    match findGang s o.gang with
    | none => false
    | some g =>
      let x := vget {} (getCtx g o.member).lakes o.lake
      x.bound && x.gen = a.gen && x.pinned && x.stale

/-- A refill fails for an operation of a saved context: the lake's record in the image shows FILLERR, where it still names the
lake. -/
def failSaved (s : State) (ib : Nat) (a : ArrSlot) (o : ArrayOp) (c : Nat) : State :=
  match recordPa s ib o.member (1024 + 32 * o.lake) with
  | none => s
  | some pa =>
    let fl := physNat s (pa + 12) 1
    if bitAt fl 0 && decide (physNat s (pa + 8) 4 = a.gen.toNat) then
      modKept (physWrite s (pa + 12) (leBytes 1 (if bitAt fl 6 then fl else fl + 64))) ib o.member fun k =>
        { k with lakes := k.lakes.modify o.lake fun e => (some c, e.2) }
    else s

/-- A refill fails after a parity error: the lake, where its slot still names it, is as after a fill that fails, and its array
slot is given up (R224, R227; DEDUCED, log entry 44). -/
def failRefill (s : State) (cl co : Nat) (a : ArrSlot) (o : ArrayOp) (c : Nat) : State :=
  let k := getCore s cl co
  let s := setCore s cl co { k with arr := vmod k.arr o.aslot (releaseArr o.gang o.member o.lake) }
  match opImage s cl co o with
  | some ib => failSaved s ib a o c
  | none =>
    modCtxOf s o.gang o.member fun w => { w with lakes := vmod w.lakes o.lake fun x =>
      if x.bound ∧ x.gen = a.gen then { x with fillErr := some c, fill := .none } else x }

/-- A parity error of the weights of the operation at the head of an engine queue (R239): logged; the weights are read again
from their source and the operation starts afresh; a pinned and stale lake is lost with its task. -/
def parityError (s : State) (cl co : Nat) (o : ArrayOp) : State :=
  let s := logAppend s 3 (logLoc cl co) o.lake 0
  match vget none (getCore s cl co).arr o.aslot with
  | none => s
  | some a =>
    let ib := opImage s cl co o
    if lakeStale s a o ib then
      (match ib with
        | some ib => killImage s ib .lakeLost 0 (lakeLostVal a o)
        | none => faultTask s o.gang .lakeLost 0 0 (lakeLostVal a o) o.member)
    else
      let desc := match ib, findGang s o.gang with
        | some ib, _ => hdrNat s ib 16 8
        | none, some g => g.launch.xdesc
        | none, none => 0
      match lakeSource s desc a.src a.fmt a.sparse with
      | .ok bs => redoOp s cl co o (some bs)
      | .error c => failRefill (redoOp s cl co o none) cl co a o c

/-- The frame of an operation's tile: of its running gang, else of the saved image that owns the tile. -/
def opFrame (s : State) (cl co : Nat) (o : ArrayOp) : Option Nat :=
  let own := fun (f : Frame) => (s.ownedTiles.find? (ownedOf cl co o)).any fun t => decide (f = .owned t.ibase t.member t.tile)
  match (List.range 16).find? fun i => frameOwner s cl co i = .held o.gang o.member o.tile with
  | some i => some i
  | none => (List.range 16).find? fun i => own (frameOwner s cl co i)

/-- An uncorrectable error in the frame of the operation's tile as it completes in a wall cycle (R206; DEDUCED, log entry 75). -/
def accError (s : State) (cl co : Nat) (o : ArrayOp) : State :=
  match opFrame s cl co o with
  | none => wallCycle s cl
  | some i => wallCycle (loseFrame s cl co i) cl

/-- ARRAY_OP_COMPLETE (R209): the wall cycle of a cluster that is the last of the operation at the head of a core's engine
queue; the operation ends with that cycle. -/
def execArrayOpComplete (cl : Fin 40) (co : Fin 8) (out : ArrayOut) (s : State) : Host.Outcome State Fault Refusal :=
  .next (match (getCore s cl.val co.val).engine with
    | [] => s
    | o :: _ =>
      if o.wait || decide (1 < o.left) then s
      else
        let s := { s with iss := none }
        match out with
        | .ok => wallCycle s cl.val
        | .parity => wallCycle (parityError s cl.val co.val o) cl.val
        | .accLost => accError s cl.val co.val o)

/-! ### Lake fills (R227, R228, R246) -/

/-- The array slot a fill takes (R228): the lowest free one, else the lowest that holds an unpinned, filled lake out of
use. -/
def fillSlot (s : State) (g : Gang) (co : Nat) : Option Nat :=
  let k := getCore s g.cluster co
  match (List.range 16).find? fun i => (vget none k.arr i).isNone with
  | some i => some i
  | none => (List.range 16).find? fun i => match vget none k.arr i with
    | none => false
    | some a =>
      !a.zombie && a.filled && decide (a.inuse = 0) && (match findGang s a.gang with
        | none => false
        | some h => !(vget {} (getCtx h a.member).lakes a.lake).pinned)

/-- Evict the lake an array slot holds (R228): its FILL becomes NONE. -/
def evictArr (s : State) (cl co i : Nat) : State :=
  match vget none (getCore s cl co).arr i with
  | none => s
  | some a => modCtxOf s a.gang a.member fun c => { c with lakes := vmod c.lakes a.lake fun l => { l with fill := .none } }

/-- A pending fill of lake `l` claims its array slot. -/
def startFill (s : State) (g : Gang) (m l : Nat) : State :=
  let c := getCtx g m
  let x := vget {} c.lakes l
  if !(x.bound && x.pend && decide (x.fill = .filling) && decide (x.inuse = 0)) then s
  else
    match fillSlot s g c.core with
    | none => claimWaits s g.id c.core true
    | some i =>
      let s := evictArr s g.cluster c.core i
      let k := getCore s g.cluster c.core
      let a : ArrSlot := ⟨g.id, m, l, x.gen, x.src, x.fmt, x.sparse, [], 0, false, false⟩
      modCtxOf (setCore s g.cluster c.core { k with arr := vset k.arr i (some a) }) g.id m fun c =>
        { c with lakes := vmod c.lakes l fun y => { y with pend := false } }

/-- LAKE_FILL_START (R228). -/
def execLakeFillStart (task : Word) (m : Fin 8) (l : Fin 16) (s : State) : Host.Outcome State Fault Refusal :=
  .next (match findGang s task.toNat with
    | none => s
    | some g => if g.killed.isSome then s else startFill s g m.val l.val)

/-- A fill that fails gives its array slot back (R227). -/
def failFill (s : State) (g : Gang) (m l cause : Nat) : State :=
  modCtxOf (dropArr s g m l) g.id m fun c => { c with
    lakes := vmod c.lakes l fun y => { y with fill := .none, fillErr := some cause } }

/-- Give a lake's array slot the bytes of its source. -/
def fillArr (gid m l : Nat) (bs : List Byte) (a : Option ArrSlot) : Option ArrSlot :=
  match a with
  | none => none
  | some x => if x.gang = gid ∧ x.member = m ∧ x.lake = l ∧ x.zombie = false then refillArr bs (some x) else some x

/-- The race check of a fill's reads of device memory, on the MX path (R227, R303). -/
def fillRaces (s : State) (g : Gang) (m : Nat) (x : LakeSt) : State :=
  match xlatRange s g.launch.xdesc x.src (lakeLen x.fmt x.sparse) false with
  | .error _ => s
  | .ok rs => engineFarRaces s g m x.src rs false 2

/-- The end of a fill (R227): FILLED with the source as it stands, or FILLERR. -/
def endFill (s : State) (g : Gang) (m l : Nat) (out : MemOut) : State :=
  let c := getCtx g m
  let x := vget {} c.lakes l
  if !(x.bound && !x.pend && decide (x.fill = .filling)) then s
  else
    match lakeSource s g.launch.xdesc x.src x.fmt x.sparse, out with
    | .error e, _ => failFill s g m l e
    | .ok _, .device => failFill s g m l 0x31
    | .ok bs, _ =>
      let s := fillRaces s g m x
      let k := getCore s g.cluster c.core
      modCtxOf (setCore s g.cluster c.core { k with arr := k.arr.map (fillArr g.id m l bs) }) g.id m fun c =>
        { c with lakes := vmod c.lakes l fun y => { y with fill := .filled } }

/-- LAKE_FILL_COMPLETE (R227). -/
def execLakeFillComplete (task : Word) (m : Fin 8) (l : Fin 16) (out : MemOut) (s : State) :
    Host.Outcome State Fault Refusal :=
  .next (match findGang s task.toNat with
    | none => s
    | some g => if g.killed.isSome then s else endFill s g m.val l.val out)

/-- A write performed on a running member's behalf, outside a bundle (DEDUCED, log entry 49). -/
def memberWrite (s : State) (task m : Nat) (f : Perf → Perf) : State :=
  match findGang s task with
  | none => s
  | some g =>
    if hasMember g m && g.killed.isNone && !(getCtx g m).halted then
      let p := f (startMember ⟨{ s with iss := none }, { old := g, work := g, m := m }⟩ m 0 0 false true)
      putMerged p.st g p.is.work
    else s

/-- A klsvc write (R246). -/
def klsvc (s : State) (task m l act : Nat) : State :=
  memberWrite s task m fun p => writeKlsvc p (BitVec.ofNat 64 (act * 16 + l))

/-- KLSVC_REFILL (R246): as lk.load. -/
def execKlsvcRefill (task : Word) (m : Fin 8) (l : Fin 16) (s : State) : Host.Outcome State Fault Refusal :=
  .next (klsvc s task.toNat m.val l.val 1)

/-- KLSVC_ACCEPT (R246): as lk.sclr. -/
def execKlsvcAccept (task : Word) (m : Fin 8) (l : Fin 16) (s : State) : Host.Outcome State Fault Refusal :=
  .next (klsvc s task.toNat m.val l.val 2)

/-- KLSVC_REVOKE (R246): as lk.revk. -/
def execKlsvcRevoke (task : Word) (m : Fin 8) (l : Fin 16) (s : State) : Host.Outcome State Fault Refusal :=
  .next (klsvc s task.toNat m.val l.val 3)

end Sys2Proof.Machine
end

