-- ==== Sys2Proof/Machine/Channel.lean ====
section
/-! DEFINITION. Channel: the copy engines: the start of a transfer, one chunk of it, its completion and its faults (R251 to
R266). -/

namespace Sys2Proof.Machine

/-! ### Addresses and the cursor (R254 to R257) -/

/-- A channel's level and index by number. -/
def chLevel (c : ChanSt) (j : Nat) : ChLevel := vget {} c.levels j
/-- INDEX[j]. -/
def chIndex (c : ChanSt) (j : Nat) : Nat := vget 0 c.index j

/-- The sum of a quantity over the six levels. -/
def sumLevels (f : Nat → Int) : Int := (List.range 6).foldl (fun x j => x + f j) 0

/-- The source address of the copy at the cursor (R254). -/
def copySrc (c : ChanSt) : Int := c.sbase.toNat + sumLevels fun j => chIndex c j * (chLevel c j).sstr
/-- The destination address of the copy at the cursor. -/
def copyDst (c : ChanSt) : Int := c.dbase.toNat + sumLevels fun j => chIndex c j * (chLevel c j).dstr

/-- Coordinate `d` of the copy at the cursor (R255). -/
def coordAt (c : ChanSt) (d : Nat) : Int :=
  (vget {} c.coords d).org + sumLevels fun j => if (chLevel c j).cdim = d then chIndex c j * (chLevel c j).cstep else 0

/-- Is the copy at the cursor a fill copy (R255)? -/
def isFill (c : ChanSt) : Bool :=
  (List.range 6).any fun d =>
    let e := (vget {} c.coords d).ext
    decide (e ≠ 0) && (decide (coordAt c d < 0) || decide ((e : Int) ≤ coordAt c d))

/-- An address as the engine sees it. -/
def addrOf (x : Int) : Nat := wrapNat 64 x

/-- Length of the chunk at the cursor (R256). -/
def chunkLen (c : ChanSt) : Nat := min (c.size - c.offset) (4096 - addrOf (copyDst c + c.offset) % 4096)

/-- Advance an index vector in nest order: level 0 fastest; none after the last copy. -/
def nextIndex (c : ChanSt) : Nat → Nat → Vector Nat 6 → Option (Vector Nat 6)
  | 0, _, _ => none
  | n + 1, j, v =>
    let i := vget 0 v j
    if i + 1 < (chLevel c j).count then some (vset v j (i + 1)) else nextIndex c n (j + 1) (vset v j 0)

/-- The cursor past a chunk; none when the transfer has no chunk left. -/
def pastChunk (c : ChanSt) : Option ChanSt :=
  let o := c.offset + chunkLen c
  if o < c.size then some { c with offset := o }
  else (nextIndex c 6 0 c.index).map fun v => { c with index := v, offset := 0 }

/-- The lowest destination of the copies after the cursor's that first differ from it at level `j`. -/
def lowAfter (c : ChanSt) (j : Nat) : Option Int :=
  let l := chLevel c j
  let i : Int := chIndex c j
  if chIndex c j + 1 < l.count then
    some (c.dbase.toNat + (sumLevels fun k =>
      let x := chLevel c k
      if j < k then chIndex c k * x.dstr
      else if k = j then min ((i + 1) * x.dstr) (((l.count : Int) - 1) * x.dstr)
      else min 0 (((x.count : Int) - 1) * x.dstr)))
  else none

/-- The watermark of a transfer with a chunk at its cursor (R257). -/
def lowMark (c : ChanSt) : Int :=
  ((List.range 6).filterMap (lowAfter c)).foldl (fun a b => if b < a then b else a) (copyDst c + c.offset)

/-! ### Faults (R265) -/

/-- The copy fault record (R265). -/
def copyRecord (g : Gang) (m ch : Nat) (c : ChanSt) (code : Code) (addr : Nat) : Record :=
  ⟨code, 3, leBytes 2 (codeNum code) ++ leBytes 1 (ch + 4 * g.slot + 16 * (getCtx g m).core) ++ leBytes 1 g.cluster ++ zeros 4 ++
    leBytes 8 addr ++ ((List.range 6).flatMap fun j => leBytes 4 (chIndex c j)) ++ leBytes 2 c.offset ++ zeros 6 ++
    leBytes 8 c.wmk ++ leBytes 8 g.id⟩

/-- Is the copy fault fatal (R265)? -/
def copyFatal : Code → Bool
  | .copyBounds | .copyAuth | .copyTarget => true
  | _ => false

/-- Take a transfer off its channel's order. -/
def unqueue (s : State) (g : Gang) (m ch : Nat) : State :=
  let co := (getCtx g m).core
  setCore s g.cluster co (dropChan (getCore s g.cluster co) ch g.id m)

/-- Put a channel's state back. -/
def putChan (s : State) (g : Gang) (m ch : Nat) (c : ChanSt) : State :=
  modCtxOf s g.id m fun x => { x with chans := vset x.chans ch c }

/-- A chunk that meets a fault (R265): the channel is SUSPENDED and the record delivered; a fatal code kills the task. -/
def copyFault (s : State) (g : Gang) (m ch : Nat) (c : ChanSt) (code : Code) (addr : Nat) : State :=
  let s := putChan (unqueue s g m ch) g m ch { c with state := .suspended, begun := false }
  let s := deliver s (copyRecord g m ch c code addr)
  if copyFatal code then killTask s g.id code 0 0 (BitVec.ofNat 64 addr) m else s

/-! ### Decrypt mode (R266, R459) -/

/-- Sessions that name a tenant (R457). -/
def tenantSessions (s : State) (t : Nat) : List Session := s.ochre.sessions.filter fun x => x.tenant = some t

/-- A key by its id among a tenant's sessions. -/
def tenantKey (s : State) (t id : Nat) : Option (List Byte) :=
  (tenantSessions s t).findSome? fun x => (x.keys.find? fun k => k.1 = id).map fun k => k.2

/-- The plaintext of a sealed record, or the fault. -/
def openRecord (s : State) (tenant dst : Nat) (r : List Byte) : Except Code (List Byte) :=
  match tenantKey s tenant (fieldLe r 12 4) with
  | none => .error .keyExpired
  | some key =>
    match gcmOpen key (sliceBytes r 0 12) (leBytes 8 dst) (sliceBytes r 16 4096) (sliceBytes r 4112 16) with
    | none => .error .copyAuth
    | some bs => .ok (sliceBytes bs 0 4096)

/-! ### One chunk (R256, R258, R301, R303) -/

/-- The bytes a chunk writes, with the state after the race checks of its reads; or the fault and its address. -/
def chunkBytes (s : State) (g : Gang) (m : Nat) (c : ChanSt) (out : MemOut) : Except (Code × Nat) (State × List Byte) :=
  let n := chunkLen c
  let src := addrOf (copySrc c + c.offset)
  if isFill c then .ok (s, (List.range n).map fun i => BitVec.ofNat 8 (fieldLe (leBytes 8 c.fill.toNat) ((c.offset + i) % 8) 1))
  else if c.sfar then
    (match xlatRange s g.launch.xdesc src (if c.dec then 4128 else n) false with
      | .error _ => .error (.copyTranslation, src)
      | .ok rs =>
        if out = .device then .error (.copyUncorrectable, src)
        else
          let s := engineFarRaces s g m src rs false 1
          if c.dec then
            (match openRecord s g.tenant (addrOf (copyDst c)) (physReads s rs) with
              | .error code => .error (code, if code = .copyTarget then addrOf (copyDst c) else src)
              | .ok bs => .ok (s, bs))
          else .ok (s, physReads s rs))
  else if !inAlloc g src n then .error (.copyBounds, src)
  else .ok (engineRace s g m src n false 1, spadReads s g.cluster src n)

/-- Write a chunk; or the fault and its address. -/
def chunkWrite (s : State) (g : Gang) (m : Nat) (c : ChanSt) (bs : List Byte) : Except (Code × Nat) State :=
  let dst := addrOf (copyDst c + c.offset)
  let ent := engineEntry s g m c.ival 7 false
  if c.dfar then
    (match xlatRange s g.launch.xdesc dst bs.length true with
      | .error _ => .error (.copyTranslation, dst)
      | .ok rs =>
        if c.dec && !protectedRange s rs then .error (.copyTarget, dst)
        else .ok (farPartsBy (getCtx g m) ent rs bs (engineFarRaces s g m dst rs true 1)))
  else
    let s := engineRace s g m dst bs.length true 1
    .ok (shadowSet (spadWrites s g.cluster dst bs) g.cluster dst bs.length false ent)

/-- Decrement a transfer's completion word (R262, R293): a release of the context, with the work's INTERVAL. -/
def copyWord (s : State) (g : Gang) (m : Nat) (c : ChanSt) : State :=
  if c.cw = 0 then s
  else
    let ent := engineEntry s g m c.ival 3 true
    let s := if c.cwfar then releaseFarWord s g.launch.xdesc g m c.cw 1 ent
      else
        let old := leNat (spadReads s g.cluster c.cw 8)
        shadowSet (spadWrites s g.cluster c.cw (leBytes 8 (old + (2 ^ 64 - 1)))) g.cluster c.cw 8 true ent
    modCtxOf s g.id m fun x => { x with interval := (x.interval + 1) % 256 }

/-- A transfer has written its last chunk (R262). -/
def copyDone (s : State) (g : Gang) (m ch : Nat) (c : ChanSt) : State :=
  let s := putChan (unqueue s g m ch) g m ch { c with state := .idle, wmk := (chanHi c).toNat, begun := false }
  let s := copyWord s g m c
  if c.irq then raiseUser s g.id m ch id else s

/-- Absent scratchpad blocks that a chunk needs (R256, R308). -/
def chunkAbsent (g : Gang) (c : ChanSt) : List Nat :=
  let n := chunkLen c
  let src := addrOf (copySrc c + c.offset)
  let need := (if isFill c || c.sfar || !inAlloc g src n then [] else blocksOf g src n) ++
    (if c.dfar then [] else blocksOf g (addrOf (copyDst c + c.offset)) n) ++
    (if c.cwfar || decide (c.cw = 0) || (pastChunk c).isSome then [] else blocksOf g c.cw 8)
  need.filter fun b => g.absent.contains b

/-- Does a chunk read or write the cluster's scratchpad? -/
def chunkLocal (c : ChanSt) : Bool := !c.dfar || (!c.sfar && !isFill c)

/-- Perform the chunk at a channel's cursor (DEDUCED, log entry 45). -/
def copyChunk (s : State) (g : Gang) (m ch : Nat) (c : ChanSt) (out : MemOut) : State :=
  if !(chunkAbsent g c).isEmpty then (chunkAbsent g c).foldl (fun s b => performAct g.id s (.spad b)) s
  else if decide (out = .spad) && chunkLocal c then
    fenceCluster s g.cluster (if c.dfar then addrOf (copySrc c + c.offset) else addrOf (copyDst c + c.offset))
  else
    match chunkBytes s g m c out with
    | .error e => copyFault s g m ch c e.1 e.2
    | .ok (s, bs) =>
      match chunkWrite s g m c bs with
      | .error e => copyFault s g m ch c e.1 e.2
      | .ok s =>
        match pastChunk c with
        | none => copyDone s g m ch c
        | some c' => putChan s g m ch { c' with wmk := (lowMark c').toNat }

/-- The transfer at the head of a core's channel: its gang, member and channel state. -/
def headTransfer (s : State) (cl co ch : Nat) : Option (Gang × Nat × ChanSt) :=
  match vget [] (getCore s cl co).chq ch with
  | [] => none
  | e :: _ =>
    match findGang s e.1 with
    | none => none
    | some g =>
      let c := vget {} (getCtx g e.2).chans ch
      if g.killed.isNone ∧ c.state = .running then some (g, e.2, c) else none

/-- COPY_TRANSFER_START (R251). -/
def execCopyTransferStart (cl : Fin 40) (co : Fin 8) (ch : Fin 4) (s : State) : Host.Outcome State Fault Refusal :=
  .next (match headTransfer s cl.val co.val ch.val with
    | none => s
    | some (g, m, c) => putChan s g m ch.val { c with begun := true })

/-- COPY_CHUNK (R256). -/
def execCopyChunk (cl : Fin 40) (co : Fin 8) (ch : Fin 4) (out : MemOut) (s : State) : Host.Outcome State Fault Refusal :=
  .next (match headTransfer s cl.val co.val ch.val with
    | none => s
    | some (g, m, c) => if c.begun then copyChunk s g m ch.val c out else s)

end Sys2Proof.Machine
end

