-- ==== Sys2Proof/Machine/Reach.lean ====
section
/-! DEFINITION. Reach: far loads and stores in wall time, page walks, invalidation, and the completion of drains and waits
(R270, R273 to R280, R297, R299). -/

namespace Sys2Proof.Machine

/-! ### Far accesses in wall time (R276 to R278) -/

/-- May entry `i` of a far-data queue be performed: no earlier access to its sector is waiting (R277)? -/
def farInOrder (q : List FarOp) (i : Nat) (o : FarOp) : Bool :=
  !(q.take i).any fun x => x.pa / 64 = o.pa / 64 && !x.done

/-- Act on entry `i` of a member's far-data queue that satisfies a condition. -/
def withFarOp (s : State) (task m i : Nat) (ok : FarOp → Bool) (f : Gang → FarOp → State) : State :=
  match findGang s task with
  | none => s
  | some g =>
    let q := (getCtx g m).farq
    match q[i]? with
    | none => s
    | some o => if ok o && farInOrder q i o then f g o else s

/-- FAR_STORE_PERFORMED (R277). -/
def execFarStorePerformed (task : Word) (m : Fin 8) (i : Fin 16) (out : MemOut) (s : State) :
    Host.Outcome State Fault Refusal :=
  .next (withFarOp s task.toNat m.val i.val (fun o => o.store) fun g o =>
    if out = .device then
      farError (modCtxOf s g.id m.val fun c => { c with farq := c.farq.eraseIdx i.val }) g m.val o
    else
      modCtxOf (farStore s (getCtx g m.val) o).1 g.id m.val fun c =>
        { (farStore s c o).2 with farq := c.farq.eraseIdx i.val })

/-- A far load's data have arrived, from releases `rels` (R276, R289): its result takes them; the entry of a load into s0,
which no result awaits, is freed at once. -/
def farArrived (o : FarOp) (v : Word) (rels : List RelRead) (c : Ctx) : Ctx :=
  let waits := (c.results ++ c.hresults).any fun r => r.far = some o.id
  let note := fun (r : Result) => if r.far = some o.id then { r with rels := rels } else r
  { c with
    farq := if waits then c.farq.map fun x => if x.id = o.id then { x with done := true, data := v } else x
      else c.farq.filter fun x => x.id ≠ o.id
    results := c.results.map note
    hresults := c.hresults.map note }

/-- FAR_LOAD_DATA_ARRIVAL (R276). -/
def execFarLoadDataArrival (task : Word) (m : Fin 8) (i : Fin 16) (out : MemOut) (s : State) :
    Host.Outcome State Fault Refusal :=
  .next (withFarOp s task.toNat m.val i.val (fun o => !o.store && !o.done) fun g o =>
    if out = .device then farError s g m.val o
    else modCtxOf s g.id m.val fun c =>
      farArrived o (BitVec.ofNat 64 (physNat s o.pa o.bytes)) (farRels s c o.pa o.va o.bytes true 0) c)

/-! ### Walks and invalidation (R270, R273, R279, R280) -/

/-- PAGE_WALK_COMPLETE (R270, R280): the walk of a resumed gang's touch region ends; the walks of touches and pins end
within their own instructions. -/
def execPageWalkComplete (task : Word) (m : Fin 8) (e : Fin 8) (out : MemOut) (s : State) :
    Host.Outcome State Fault Refusal :=
  .next (match findGang s task.toNat with
    | none => s
    | some g =>
      if g.killed.isNone && g.walks.contains (m.val, e.val) then
        let s := putGang s { g with walks := g.walks.filter fun w => w != (m.val, e.val) }
        match out, vget none (getCtx g m.val).touches e.val with
        | .device, some t =>
          raiseTicket s .resumeTranslation causeMemErr 0 e.val m.val (g.fromImage.getD 0) t.region g.id 0
        | _, _ => walkTouch g.id s (m.val, e.val)
      else s)

/-- KXINV_WRITE (R279). -/
def execKxinvWrite (task : Word) (m : Fin 8) (v : Word) (s : State) : Host.Outcome State Fault Refusal :=
  .next (memberWrite s task.toNat m.val fun p => writeKxinv p v)

/-- Does a member still hold, for bundles from the gang's next on, a touch entry that overlaps an invalidation and was
walked before it (R279)? One that a resumed gang has still to walk again (R280) was not. -/
def holdsTouch (g : Gang) (i : Inval) (m : Nat) : Bool :=
  !(getCtx g m).halted && (List.range 8).any fun k => match vget none (getCtx g m).touches k with
    | none => false
    | some e => decide (g.lc ≤ e.exp) && decide (e.inv < i.no) && rangesMeet e.region 4096 i.lo (i.hi - i.lo) &&
        !g.walks.contains (m, k)

/-- Gangs that hold an entry an invalidation waits for. -/
def invalHolders (s : State) (i : Inval) : List Gang :=
  s.gangs.filter fun g => g.tenant = i.tenant && g.killed.isNone && (List.range g.members.length).any (holdsTouch g i)

/-- Is a far access of the tenant through a translation older than the invalidation still to be performed? None may be once
it has completed (R279). -/
def invalFar (s : State) (i : Inval) : Bool :=
  s.gangs.any fun g => g.tenant = i.tenant && g.members.any fun c => c.farq.any fun o =>
    !o.done && decide (o.inv < i.no) && rangesMeet o.va o.bytes i.lo (i.hi - i.lo)

/-- Was the invalidation written by this member? -/
def invalOf (task m : Nat) (i : Inval) : Bool := i.gang = task && i.member = m

/-- INVALIDATION_COMPLETE (R279): the member's invalidations that nothing holds back. -/
def execInvalidationComplete (task : Word) (m : Fin 8) (s : State) : Host.Outcome State Fault Refusal :=
  .next { s with
    invals := s.invals.filter fun i => !(invalOf task.toNat m.val i && (invalHolders s i).isEmpty && !invalFar s i) }

/-- INVALIDATION_TIMEOUT (R279): gangs that still hold an entry are pre-empted. -/
def execInvalidationTimeout (task : Word) (m : Fin 8) (s : State) : Host.Outcome State Fault Refusal :=
  .next ((s.invals.filter (invalOf task.toNat m.val)).foldl (fun s i =>
    (invalHolders s i).foldl (fun s g => requestPreempt s g.id 4 none false) s) s)

/-- TOUCH_EXPIRY (R273). -/
def execTouchExpiry (task : Word) (m : Fin 8) (e : Fin 8) (s : State) : Host.Outcome State Fault Refusal :=
  .next (match findGang s task.toNat with
    | none => s
    | some g => modCtxOf s g.id m.val fun c =>
        match vget none c.touches e.val with
        | none => c
        | some t => if t.exp < g.lc then { c with touches := vset c.touches e.val none } else c)

/-! ### Drains and waits (R297, R299) -/

/-- Does the next bundle of some member hold a slot of a kind? -/
def nextHasSlot (s : State) (g : Gang) (f : Instr → Bool) : Bool :=
  (List.range g.members.length).any fun m =>
    !(getCtx g m).halted && (match nextBundle s g m with
      | none => false
      | some (is, _) => is.any f)

/-- Is the slot a drain? -/
def isDrain : Instr → Bool
  | .syDrn _ _ _ _ => true
  | .fxDrn _ _ => true
  | _ => false

/-- Is the slot a wait? -/
def isWait : Instr → Bool
  | .syWait _ _ _ => true
  | _ => false

/-- DRAIN_COMPLETE (R297): once the drain of a gang's bundle may complete, a wall cycle of its cluster performs it (DEDUCED, log entry 47). -/
def execDrainComplete (task : Word) (s : State) : Host.Outcome State Fault Refusal :=
  .next (match findGang s task.toNat with
    | none => s
    | some g => if nextHasSlot s g isDrain && mayIssue s g then wallCycle { s with iss := none } g.cluster else s)

/-- WAIT_REREAD (R299): a wall cycle of the cluster of a gang that waits rereads its word. -/
def execWaitReread (task : Word) (s : State) : Host.Outcome State Fault Refusal :=
  .next (match findGang s task.toNat with
    | none => s
    | some g =>
      if g.killed.isNone && nextHasSlot s g isWait then wallCycle { s with iss := none } g.cluster else s)

end Sys2Proof.Machine
end

