-- ==== Sys2Proof/Machine/HostPort.lean ====
section
/-! DEFINITION. HostPort: a packet arrives at a host port (R196 to R199, R380). -/

namespace Sys2Proof.Machine

/-- HOST_PACKET_ARRIVAL (R197, R198): a packet for a UDP port arrives at a host port, at the time of the clock. -/
def execHostPacketArrival (hp : Fin 2) (udp : BitVec 16) (bs : List Byte) (s : State) : Host.Outcome State Fault Refusal :=
  .next (match ruleFor s hp.val udp.toNat with
    | none => s
    | some r =>
      let (t, s) := stamp s
      steerPacket s r ⟨hp.val, r.rule, bs.length, bs, t⟩)

end Sys2Proof.Machine
end

