-- ==== Sys2Proof/Machine/Service.lean ====
section
/-! DEFINITION. Service: user-level interrupts, records, pre-emption, pulls and write-outs, the answers of a supervisor,
overlays and the engines' guard (R123, R184, R317 to R329, R342 to R347, R351, R382). -/

namespace Sys2Proof.Machine

/-! ### Interrupts, control-register writes and records -/

/-- USER_INTERRUPT_TAKEN (R335, R336, R345): at the gang's boundary, by the lowest member with an enabled source, where
nothing is acted on first. -/
def execUserInterruptTaken (task : Word) (m : Fin 8) (s : State) : Host.Outcome State Fault Refusal :=
  .next (match findGang s task.toNat with
    | none => s
    | some g =>
      match pendingInt g with
      | none => s
      | some (m', b) =>
        if m' = m.val ∧ g.killed.isNone ∧ g.kill.isNone ∧ g.calls.isEmpty ∧ g.preempt.isNone ∧ !yieldsNow s g ∧
            !confFenced s g ∧ (handlerOf g).isNone ∧ (!holdsWrites g || nextHolds s g || !mayIssue s g) then
          enterUser s g m' b
        else s)

/-- KUIP_WRITE (R351). -/
def execKuipWrite (task : Word) (m : Fin 8) (v : Word) (s : State) : Host.Outcome State Fault Refusal :=
  .next (modCtxOf s task.toNat m.val fun c => clearPending c v)

/-- KBUDGET_WRITE (R123). -/
def execKbudgetWrite (v : Word) (s : State) : Host.Outcome State Fault Refusal := .next (setBudget s v)

/-- SUPERVISOR_RECORD_DELIVERY (R342): the oldest record that waits, once there is room. -/
def execSupervisorRecordDelivery (s : State) : Host.Outcome State Fault Refusal := .next (deliverWaiting 1 s)

/-- PREEMPTION (R317). -/
def execPreemption (task : Word) (s : State) : Host.Outcome State Fault Refusal := .next (takePreempt s task.toNat)

/-! ### Pulls (R327, R328) -/

/-- BLOCK_PULL_COMPLETE (R327): packets held for a block of scratchpad follow it (R198); for a saved task, a copy that its
new image gathers (R320). -/
def execBlockPullComplete (task : Word) (kind : BlockKind) (m : Fin 8) (i : Fin 2048) (out : PullOut) (s : State) :
    Host.Outcome State Fault Refusal :=
  .next (match findGang s task.toNat with
    | none =>
      (match s.gathers.find? fun t => t.task = task.toNat && t.kind = kind.code && t.member = m.val && t.index = i.val with
        | none => s
        | some t => gatherEnd s t out)
    | some g =>
      let r := (kind.code, m.val, i.val)
      if g.killed.isNone && g.pulls.contains r then releaseArrivals (endPull s g r out) else s)

/-! ### Write-outs (R317, R321) -/

/-- The block that a FLUSH writes out next: the first of the image's, in the order of R310, that is not written, not busy and
not stopped by a record (R317 step 6). -/
def flushNext (s : State) (ib : Nat) : Option (Nat × Nat × Nat) :=
  if !bitAt (hdrNat s ib 32 1) 0 || decide (hdrNat s ib 7 1 = 0) then none
  else (ownedBlocks s ib).find? fun b =>
    !mapBit s ib true b.1 b.2.1 b.2.2 && !blockBusy s ib b.1 b.2.1 b.2.2 && !ticketFor s .saveArea ib b.1 b.2.1 b.2.2

/-- BLOCK_WRITE_OUT (R321): a claimed block is written and its storage passes to the claimer; with FLUSH, an owned block is
written and stays. -/
def execBlockWriteOut (ibase : Word) (kind : BlockKind) (m : Fin 8) (i : Fin 2048) (s : State) :
    Host.Outcome State Fault Refusal :=
  .next (if (claimerOf s (kind.code, ibase.toNat, m.val, i.val)).isSome ∨
        flushNext s ibase.toNat = some (kind.code, m.val, i.val) then
      writeForClaim s ibase.toNat kind.code m.val i.val
    else s)

/-- KISVC_RETRY (R325). -/
def execKisvcRetry (ticket : BitVec 32) (s : State) : Host.Outcome State Fault Refusal :=
  .next (answerTicket s (BitVec.ofNat 64 (ticket.toNat * 2 ^ 32 + 1)))

/-- KISVC_ABANDON (R325). -/
def execKisvcAbandon (ticket : BitVec 32) (s : State) : Host.Outcome State Fault Refusal :=
  .next (answerTicket s (BitVec.ofNat 64 (ticket.toNat * 2 ^ 32 + 2)))

/-! ### Overlays (R381, R382) -/

/-- Physical segments of a member. -/
def memberSegs (s : State) (g : Gang) (m : Nat) : List Nat :=
  let k := getCore s g.cluster (getCtx g m).core
  (List.range 15).filter fun i => vget none k.segOwner i = some (g.id, m)

/-- The physical segment a request takes: a free one, else the least recently requested that does not hold the current
bundle (DEDUCED, log entry 80). -/
def segVictim (s : State) (g : Gang) (m : Nat) : Option Nat :=
  let c := getCtx g m
  let mine := memberSegs s g m
  match mine.find? fun i => !c.segs.any fun e => e.2.1 = i with
  | some i => some i
  | none =>
    let cur := (if c.mode = 1 then c.hpc else c.pc) / segBytes
    ((c.segs.reverse.find? fun e => decide (e.1 ≠ cur)).map fun e => e.2.1)

/-- Copy a logical segment into a physical one of a core. -/
def copySegment (s : State) (g : Gang) (co n phys : Nat) : State :=
  let k := getCore s g.cluster co
  setCore s g.cluster co { k with imem := mapFill memBlank k.imem (segBytes * phys) (sliceBytes (imageSeg s g n) 0 segBytes) }

/-- A request for a logical segment comes to its end (R382). -/
def arriveSegment (s : State) (g : Gang) (m n : Nat) : State :=
  let c := getCtx g m
  let fresh := fun (c : Ctx) (i : Nat) => { c with
    segs := (n, i, true) :: c.segs.filter fun e => e.2.1 ≠ i
    segReq := c.segReq.filter fun x => x ≠ n }
  match segOf c n with
  | some i => modCtxOf s g.id m fun c => fresh c i
  | none =>
    match segVictim s g m with
    | none => s
    | some i => modCtxOf (copySegment s g c.core n i) g.id m fun c => fresh c i

/-- SEGMENT_ARRIVAL (R382). -/
def execSegmentArrival (task : Word) (m : Fin 8) (seg : Fin 16) (s : State) : Host.Outcome State Fault Refusal :=
  .next (match findGang s task.toNat with
    | none => s
    | some g =>
      if g.killed.isNone && (getCtx g m.val).segReq.contains seg.val then arriveSegment s g m.val seg.val else s)

/-- ENGINE_ACCESS_GUARD (R184): the engine's bank row is reserved ahead of every gang in the next wall cycle. -/
def execEngineAccessGuard (cl : Fin 40) (bank : Fin 64) (row : BitVec 11) (s : State) : Host.Outcome State Fault Refusal :=
  let c := getCluster s cl.val
  .next (setCluster s cl.val { c with guard := if c.guard.any fun g => g.1 = bank.val then c.guard
    else c.guard ++ [(bank.val, row.toNat)] })

end Sys2Proof.Machine
end

