-- ==== Sys2Proof/Machine/Queue.lean ====
section
/-! DEFINITION. Queue: the command queues: positions and streams, the fetch buffer, the packet encodings (R361 to R372,
R386). -/

namespace Sys2Proof.Machine

/-! ### Queues -/

/-- A queue that exists. -/
def getQueue (s : State) (q : Nat) : Option Queue := mapGet none s.queues q

/-- Replace a queue. -/
def putQueue (s : State) (q : Nat) (x : Queue) : State := { s with queues := mapSet none s.queues q (some x) }

/-- A queue ceases to exist (R363), and its pending watches with it. -/
def removeQueue (s : State) (q : Nat) : State :=
  { s with queues := mapSet none s.queues q none, watches := s.watches.filter fun w => w.queue ≠ q }

/-- Causes of R368. -/
def causeOverrun : Nat := 1
/-- OPCODE. -/
def causeOpcode : Nat := 2
/-- FIELD. -/
def causeField : Nat := 3
/-- PRIVILEGE. -/
def causePriv : Nat := 4
/-- TRANSLATION. -/
def causeTrans : Nat := 5
/-- DEPTH. -/
def causeDepth : Nat := 6
/-- LOOP. -/
def causeLoop : Nat := 7
/-- IMAGE. -/
def causeImage : Nat := 8
/-- PLACEMENT. -/
def causePlace : Nat := 9

/-- Does a queue hold an undispatched launch (R363)? -/
def launchWaits (s : State) (q : Nat) : Bool := s.ready.any fun r => r.queue = q && !r.again && !r.launch.test

/-- A packet fences its queue: HEAD stays, the cause is shown (R368). A queue to be destroyed goes once it holds no
undispatched launch (R363). -/
def fenceQueue (s : State) (q cause : Nat) : State :=
  match getQueue s q with
  | none => s
  | some x =>
    if x.destroy && !launchWaits s q then removeQueue s q
    else putQueue s q { x with state := .fenced, cause := cause, wait := none, launch := launchWaits s q, plan := none }

/-- Position in the current stream: HEAD, or that of the innermost indirect buffer. -/
def queuePos (x : Queue) : Nat :=
  match x.stack with
  | [] => x.head
  | t :: _ => t.pos

/-- Move to a position of the current stream. -/
def setQueuePos (x : Queue) (p : Nat) : Queue :=
  match x.stack with
  | [] => { x with head := p }
  | t :: r => { x with stack := { t with pos := p } :: r }

/-- Nesting depth (R370). -/
def queueDepth (x : Queue) : Nat := x.stack.length

/-- The end of the current stream: TAIL, or LEN. -/
def streamEnd (x : Queue) : Nat :=
  match x.stack with
  | [] => x.tail
  | t :: _ => t.len

/-- Streams that have run out return to their callers (R370); a loop of theirs is over. -/
def popFinished : List Stream → List Stream
  | [] => []
  | t :: r => if t.pos < t.len then t :: r else popFinished r

/-- A queue whose finished streams have returned. -/
def returnStreams (x : Queue) : Queue :=
  let st := popFinished x.stack
  { x with stack := st, loop := x.loop.filter fun l => decide (l.depth ≤ st.length) }

/-- Does the current packet lie in the body of the LOOP in progress? -/
def inLoop (x : Queue) : Bool :=
  match x.loop with
  | none => false
  | some l => decide (l.depth = queueDepth x) && decide (l.start ≤ queuePos x) && decide (queuePos x < l.start + l.body)

/-- A position after the current packet and `skip` passed over, as the LOOP in progress leaves it (R372): past its body
the next pass begins, or the loop is over. -/
def loopStep (x : Queue) (p : Nat) : Queue × Nat :=
  match x.loop with
  | none => (x, p)
  | some l =>
    if inLoop x && decide (l.start + l.body ≤ p) then
      (if 1 < l.left then ({ x with loop := some { l with left := l.left - 1 } }, l.start) else ({ x with loop := none }, p))
    else (x, p)

/-- Advance over the current packet and `skip` more (R371, R372): at depth 0 never past TAIL, the rest kept pending (DEDUCED, log entry 29). -/
def advance (x : Queue) (skip : Nat) : Queue :=
  let r := loopStep x (queuePos x + 1 + skip)
  if queueDepth x = 0 ∧ x.tail < r.2 then { r.1 with head := x.tail, skip := x.skip + (r.2 - x.tail) }
  else returnStreams (setQueuePos r.1 r.2)

/-- The current packet is done: the queue moves on, `skip` packets passed over. -/
def advanceQueue (s : State) (q skip : Nat) : State :=
  match getQueue s q with
  | none => s
  | some x => putQueue s q (advance x skip)

/-- Pass over unread the packets of a pending skip that lie below TAIL (R371). -/
def takeSkip (x : Queue) : Queue :=
  let n := min x.skip (x.tail - x.head)
  { x with head := x.head + n, skip := x.skip - n }

/-- Packets left to execute: below TAIL, or within an indirect buffer (DEDUCED, log entry 30). -/
def hasPacket (x : Queue) : Bool := decide (0 < queueDepth x) || decide (x.head < x.tail)

/-- May Sienna execute a packet of the queue now: it is ACTIVE, waits for nothing, and has a packet (R364)? -/
def queueReady (x : Queue) : Bool :=
  decide (x.state = .active) && x.wait.isNone && !x.launch && x.plan.isNone && hasPacket x

/-- Does Sienna run: power is applied and stage 3 is reached (R437), and no QUIESCE is in progress (R384)? -/
def siennaRuns (s : State) : Bool := s.powered && decide (s.stage = .service) && s.quiesce.isNone

/-- The queue whose packet Sienna may execute now. -/
def readyQueue (s : State) (q : Nat) : Option Queue := if siennaRuns s then (getQueue s q).filter queueReady else none

/-- A queue that was blocked on its packet goes on behind it (R374, R376); a queue to be destroyed goes, and one that has
fenced meanwhile stays where it is (R368). -/
def unblockQueue (s : State) (q : Nat) : State :=
  match getQueue s q with
  | none => s
  | some x =>
    let y := { x with wait := none, launch := false, plan := none }
    if x.destroy then removeQueue s q
    else if x.state = .fenced then putQueue s q y
    else putQueue s q (advance { y with state := .active } 0)

/-! ### The context record (R386) -/

/-- STATE of a queue. -/
def queueCode : QState → Nat
  | .active => 0 | .fenced => 1 | .waiting => 2

/-- The levels of a queue, outermost first: BASE, LEN, POS. -/
def levelRecord (x : Queue) (i : Nat) : List Byte :=
  match x.stack.reverse[i]? with
  | none => zeros 16
  | some t => leBytes 8 t.base ++ leBytes 4 t.len ++ leBytes 4 t.pos

/-- The loop fields of a context record. -/
def loopRecord (x : Queue) : List Byte :=
  match x.loop with
  | none => zeros 9
  | some l => leBytes 4 l.start ++ leBytes 2 l.body ++ leBytes 2 l.left ++ leBytes 1 l.depth

/-- The WAIT fields of a context record: NOTIFY and ASYNC as in the packet. -/
def waitRecord (x : Queue) : List Byte :=
  match x.wait with
  | none => zeros 18
  | some w => leBytes 8 w.word ++ leBytes 8 (wrapNat 64 w.thresh) ++ leBytes 1 w.notify ++ leBytes 1 w.async.toNat

/-- A queue context record, 128 B. -/
def queueRecord (q : Nat) (x : Queue) : List Byte :=
  placeBytes 128
    [(0, leBytes 8 x.head ++ leBytes 8 x.tail ++ leBytes 8 x.ring ++ leBytes 4 x.npkt ++ leBytes 1 (queueCode x.state) ++
        leBytes 1 (x.prio % 4 + 4 * x.super.toNat) ++ leBytes 2 x.cause ++ leBytes 8 x.desc ++ leBytes 4 x.client ++
        leBytes 2 q ++ zeros 1 ++ leBytes 1 (queueDepth x)),
     (48, levelRecord x 0 ++ levelRecord x 1 ++ loopRecord x ++ zeros 1 ++ leBytes 2 x.skip),
     (96, waitRecord x)]

/-! ### The fetch buffer (R365, R366) -/

/-- Address of the current packet. -/
def packetAddr (x : Queue) : Nat :=
  match x.stack with
  | [] => x.ring + 64 * (x.head % x.npkt)
  | t :: _ => t.base + 64 * t.pos

/-- The aligned block that holds the current packet. -/
def blockAddr (x : Queue) : Nat := packetAddr x / 256 * 256

/-- The addresses of the packets that a read of that block makes valid: those below TAIL in the ring, or those of the
indirect buffer (DEDUCED, log entry 31). -/
def blockValid (x : Queue) : Nat × Nat :=
  let a := blockAddr x
  match x.stack with
  | [] => (a, min (a + 256) (packetAddr x + 64 * (x.tail - x.head)))
  | t :: _ => (max a t.base, min (a + 256) (t.base + 64 * t.len))

/-- The bytes of the current packet in a block. -/
def packetIn (x : Queue) (block : List Byte) : List Byte := sliceBytes block (packetAddr x % 256) 64

/-- The buffered bytes of the current packet, where the buffer holds it (R365): a packet of the ring at or above the TAIL of
the read is read afresh. -/
def buffered (x : Queue) : Option (List Byte) :=
  match x.buf with
  | none => none
  | some b =>
    let a := packetAddr x
    if b.addr = blockAddr x ∧ b.lo ≤ a ∧ a < b.hi ∧ (0 < queueDepth x ∨ x.head < b.tail) then some (packetIn x b.bytes) else none

/-- Fetch the current packet (R365): from the buffer, or by reading its block; none where that does not translate. -/
def fetchPacket (s : State) (x : Queue) : Option (List Byte × Queue) :=
  match buffered x with
  | some bs => some (bs, x)
  | none =>
    match farRead s x.desc (blockAddr x) 256 with
    | .error _ => none
    | .ok block =>
      let v := blockValid x
      some (packetIn x block, { x with buf := some ⟨blockAddr x, v.1, v.2, x.tail, block⟩ })

/-! ### Packet encodings (R367, R380) -/

/-- The bytes the operand table gives a packet: offset and length, besides OP and TAG. -/
def packetFields : Nat → List (Nat × Nat)
  | 0x01 => [(8, 48)]
  | 0x02 => [(8, 12)]
  | 0x04 => [(8, 25), (34, 2)]
  | 0x05 => [(8, 4)]
  | 0x07 => [(8, 18)]
  | 0x08 => [(8, 18), (32, 16)]
  | 0x09 => [(8, 16)]
  | 0x0A => [(8, 8)]
  | 0x0B => [(8, 21)]
  | 0x0C => [(8, 8)]
  | 0x0D => [(16, 8)]
  | 0x0E => [(16, 16)]
  | 0x0F => [(8, 12), (24, 32)]
  | 0x10 => [(8, 2)]
  | 0x11 => [(8, 12)]
  | 0x12 => [(8, 3), (12, 2), (16, 16)]
  | _ => []

/-- Is every reserved byte 0? -/
def reservedZero (op : Nat) (bs : List Byte) : Bool :=
  (List.range 64).all fun i =>
    decide (i = 0) || (decide (4 ≤ i) && decide (i < 8)) || ((packetFields op).any fun f => decide (f.1 ≤ i) && decide (i < f.1 + f.2)) ||
      decide (fieldLe bs i 1 = 0)

/-- A packet that only a SUPER queue may hold. -/
def superPacket (op : Nat) : Bool := [0x0B, 0x0E, 0x0F, 0x10, 0x11, 0x12].contains op

/-- A field of a packet as a word. -/
def wordField (bs : List Byte) (i : Nat) : Word := BitVec.ofNat 64 (fieldLe bs i 8)

/-- Accept a packet whose fields are in range. -/
def inRange (ok : Bool) (i : Instr) : Except Nat Instr := if ok then .ok i else .error causeField

/-- The packet of an OP, its fields checked against their ranges. -/
def packetOf (q : Fin 4096) (op : Nat) (bs : List Byte) : Except Nat Instr :=
  let n := fieldLe bs
  let w := wordField bs
  match op with
  | 0x00 => .ok (.pkNop q)
  | 0x01 => inRange (bitsOf (n 12 1) 6 2 = 0 && decide (n 15 1 < 16))
      (.pkLaunch q (BitVec.ofNat 32 (n 8 4)) (Fin.ofNat 4 (n 12 1)) (bitAt (n 12 1) 7) (BitVec.ofNat 8 (n 13 1))
        (BitVec.ofNat 8 (n 14 1)) (Fin.ofNat 16 (n 15 1)) (w 16) (w 24) (w 32) (w 40) (w 48))
  | 0x02 => .ok (.pkCall q (w 8) (BitVec.ofNat 32 (n 16 4)))
  | 0x03 => .ok (.pkRet q)
  | 0x04 => inRange (decide (n 32 1 < 6))
      (.pkPred q (w 8) (w 16) (w 24) (Fin.ofNat 6 (n 32 1)) (BitVec.ofNat 16 (n 34 2)))
  | 0x05 => .ok (.pkLoop q (BitVec.ofNat 16 (n 8 2)) (BitVec.ofNat 16 (n 10 2)))
  | 0x06 => .ok (.pkFence q)
  | 0x07 => inRange (decide (n 24 1 < 2) && decide (n 25 1 < 2))
      (.pkWrite q (w 8) (w 16) (decide (n 24 1 = 1)) (decide (n 25 1 = 1)))
  | 0x08 => inRange (decide (n 24 1 < 3) && decide (n 25 1 < 2))
      (.pkWait q (w 8) (w 16) (Fin.ofNat 3 (n 24 1)) (decide (n 25 1 = 1)) (w 32) (w 40) (BitVec.ofNat 32 (n 4 4)))
  | 0x09 => .ok (.pkSignal q (w 8) (w 16))
  | 0x0A => .ok (.pkStamp q (w 8))
  | 0x0B =>
    if n 8 8 = 1 then inRange (decide (n 25 1 < 16)) (.pkLakeRevoke q (w 16) (BitVec.ofNat 8 (n 24 1)) (Fin.ofNat 16 (n 25 1)))
    else inRange (decide (n 8 8 = 2) && decide (n 26 2 < 4096))
      (.pkLakeQuota q (BitVec.ofNat 12 (n 26 2)) (BitVec.ofNat 8 (n 28 1)))
  | 0x0C => .ok (.pkReshard q (w 8))
  | 0x0D => .ok (.pkKill q (w 16))
  | 0x0E => .ok (.pkPreempt q (w 16) (w 24))
  | 0x0F => inRange (decide (n 16 1 < 4) && decide (n 19 1 < 16))
      (.pkResume q (w 8) (Fin.ofNat 4 (n 16 1)) (BitVec.ofNat 8 (n 17 1)) (BitVec.ofNat 8 (n 18 1)) (Fin.ofNat 16 (n 19 1))
        (w 24) (w 32) (w 40) (w 48))
  | 0x10 => inRange (decide (n 8 1 < 40) && decide (n 9 1 < 128)) (.pkCrpl q (Fin.ofNat 40 (n 8 1)) (BitVec.ofNat 7 (n 9 1)))
  | 0x11 => .ok (.pkRing q (w 8) (BitVec.ofNat 32 (n 16 4)))
  | _ =>
    if n 9 1 = 0 then inRange (decide (n 10 1 < 4)) (.pkSteerRemove q (BitVec.ofNat 8 (n 8 1)))
    else inRange (decide (n 9 1 = 1) && decide (n 10 1 < 4))
      (.pkSteerInstall q (BitVec.ofNat 8 (n 8 1)) (Fin.ofNat 4 (n 10 1)) (BitVec.ofNat 16 (n 12 2)) (w 16)
        (BitVec.ofNat 32 (n 24 4)) (BitVec.ofNat 8 (n 28 1)) (BitVec.ofNat 8 (n 29 1)) (BitVec.ofNat 8 (n 30 1))
        (BitVec.ofNat 8 (n 31 1)))

/-- Decode a packet of a queue: the packet, or the cause that fences the queue (R367, R368; DEDUCED, log entry 32). -/
def parsePacket (q : Fin 4096) (sup : Bool) (bs : List Byte) : Except Nat Instr :=
  let op := fieldLe bs 0 1
  if 0x13 ≤ op then .error causeOpcode
  else if !reservedZero op bs then .error causeField
  else if superPacket op && !sup then .error causePriv
  else packetOf q op bs

end Sys2Proof.Machine
end

