-- ==== Sys2Proof/Machine/Packet.lean ====
section
/-! DEFINITION. Packet: the meaning of every command packet, the turns of a Sienna core, and waits (R364, R369 to
R380, R435). A packet acts at the current position of its queue; where Sienna may execute none there, the step changes
nothing. -/

namespace Sys2Proof.Machine

/-! ### Shared parts -/

/-- Execute a packet at the current position of a queue that may execute one. -/
def runPacket (s : State) (q : Nat) (f : Queue → State) : State :=
  match readyQueue s q with
  | none => s
  | some x => f x

/-- A packet that fences its queue or is done. -/
def doneOr (q : Nat) (s : State) (r : Except Nat State) : State :=
  match r with
  | .error c => fenceQueue s q c
  | .ok s => advanceQueue s q 0

/-- Turn a failed far access into cause TRANSLATION. -/
def transOr {α : Type} : Except Nat α → Except Nat α
  | .ok a => .ok a
  | .error _ => .error causeTrans

/-- A Deceo message (R355). -/
def deceoBytes (kind op status client boot seq : Nat) (payload : List Byte) : List Byte :=
  [0x44, 0x43] ++ leBytes 1 1 ++ leBytes 1 kind ++ leBytes 2 op ++ leBytes 2 status ++ leBytes 4 client ++ leBytes 4 boot ++
    leBytes 8 seq ++ leBytes 4 payload.length ++ zeros 4 ++ payload

/-! ### NOP, streams, predicates and loops (R370 to R372) -/

/-- NOP. -/
def execPkNop (q : Fin 4096) (s : State) : Host.Outcome State Fault Refusal :=
  .next (runPacket s q.val fun _ => advanceQueue s q.val 0)

/-- Start an indirect stream: the caller's position is already past the CALL (R370, R386). -/
def callStream (x : Queue) (base len : Nat) : Queue :=
  let y := setQueuePos x (queuePos x + 1)
  { y with stack := ⟨base, len, 0⟩ :: y.stack }

/-- CALL (R370). -/
def execPkCall (q : Fin 4096) (base : Word) (len : BitVec 32) (s : State) : Host.Outcome State Fault Refusal :=
  .next (runPacket s q.val fun x =>
    if queueDepth x = 2 then fenceQueue s q.val causeDepth
    else if inLoop x then fenceQueue s q.val causeLoop
    else if base.toNat % 64 ≠ 0 ∨ len.toNat = 0 ∨ 2 ^ 20 < len.toNat then fenceQueue s q.val causeField
    else putQueue s q.val (callStream x base.toNat len.toNat))

/-- RET (R370). -/
def execPkRet (q : Fin 4096) (s : State) : Host.Outcome State Fault Refusal :=
  .next (runPacket s q.val fun x =>
    if queueDepth x = 0 then fenceQueue s q.val causeField
    else if inLoop x then fenceQueue s q.val causeLoop
    else putQueue s q.val (returnStreams { x with stack := x.stack.drop 1 }))

/-- The comparison of a PRED (R371). -/
def predHolds (cond a b : Nat) : Bool :=
  match cond with
  | 0 => a == b
  | 1 => a != b
  | 2 => decide (a < b)
  | 3 => decide (b ≤ a)
  | 4 => decide (toSigned 64 a < toSigned 64 b)
  | _ => decide (toSigned 64 b ≤ toSigned 64 a)

/-- PRED (R371). -/
def execPkPred (q : Fin 4096) (word value mask : Word) (cond : Fin 6) (skip : BitVec 16) (s : State) :
    Host.Outcome State Fault Refusal :=
  .next (runPacket s q.val fun x =>
    if word.toNat % 8 ≠ 0 ∨ skip.toNat = 0 then fenceQueue s q.val causeField
    else
      match farRead s x.desc word.toNat 8 with
      | .error _ => fenceQueue s q.val causeTrans
      | .ok bs =>
        advanceQueue s q.val (if predHolds cond.val (BitVec.ofNat 64 (leNat bs) &&& mask).toNat value.toNat then 0
          else skip.toNat))

/-- LOOP (R372; DEDUCED, log entry 90). -/
def execPkLoop (q : Fin 4096) (count body : BitVec 16) (s : State) : Host.Outcome State Fault Refusal :=
  .next (runPacket s q.val fun x =>
    if count.toNat = 0 ∨ body.toNat = 0 ∨ 16 < body.toNat then fenceQueue s q.val causeField
    else if inLoop x ∨ streamEnd x < queuePos x + 1 + body.toNat then fenceQueue s q.val causeLoop
    else
      let y := advance x 0
      putQueue s q.val { y with loop := some ⟨queuePos x + 1, body.toNat, count.toNat, queueDepth x⟩ })

/-- FENCE (R366): the fetch buffer is emptied. -/
def execPkFence (q : Fin 4096) (s : State) : Host.Outcome State Fault Refusal :=
  .next (runPacket s q.val fun x => putQueue s q.val (advance { x with buf := none } 0))

/-! ### Packets that write memory (R373) -/

/-- Add to a word as one read-modify-write: it needs R and W (DEDUCED, log entry 33). -/
def addFar (s : State) (desc va n : Nat) : Except Nat State :=
  match farRead s desc va 8, xlatRange s desc va 8 true with
  | .error c, _ => .error c
  | _, .error c => .error c
  | .ok bs, .ok rs =>
    .ok (rs.foldl (fun t r => clearFarShadow t r.1 r.2 true) (physWriteParts s rs (leBytes 8 (leNat bs + n))))

/-- WRITE (R373): REL orders the write behind the queue's earlier ones, as every packet's writes are (R369). -/
def execPkWrite (q : Fin 4096) (addr value : Word) (add _rel : Bool) (s : State) : Host.Outcome State Fault Refusal :=
  .next (runPacket s q.val fun x =>
    if addr.toNat % 8 ≠ 0 then fenceQueue s q.val causeField
    else doneOr q.val s (transOr (if add then addFar s x.desc addr.toNat value.toNat
      else farWriteExt s x.desc addr.toNat (leBytes 8 value.toNat))))

/-- SIGNAL (R373). -/
def execPkSignal (q : Fin 4096) (word dec : Word) (s : State) : Host.Outcome State Fault Refusal :=
  .next (runPacket s q.val fun x =>
    if word.toNat % 8 ≠ 0 then fenceQueue s q.val causeField
    else doneOr q.val s (transOr (addFar s x.desc word.toNat (2 ^ 64 - dec.toNat))))

/-- The 16 B of a STAMP. -/
def stampBytes (t : Nat × Nat) : List Byte := leBytes 6 t.1 ++ zeros 2 ++ leBytes 4 t.2 ++ zeros 4

/-- STAMP (R373). -/
def execPkStamp (q : Fin 4096) (addr : Word) (s : State) : Host.Outcome State Fault Refusal :=
  .next (runPacket s q.val fun x =>
    if addr.toNat % 16 ≠ 0 then fenceQueue s q.val causeField
    else
      let t := stamp s
      doneOr q.val t.2 (transOr (farWriteExt t.2 x.desc addr.toNat (stampBytes t.1))))

/-! ### WAIT (R374) -/

/-- A Deceo event to a client: its own sequence counts (R355). -/
def sendEvent (s : State) (client : Nat) (payload : List Byte) : State :=
  let n := mapGet 0 s.eventSeq client
  sendOut { s with eventSeq := mapSet 0 s.eventSeq client (n + 1) }
    (.deceo client (deceoBytes 3 0x0100 0 client s.boot.toNat n payload))

/-- The payload of a WAIT's event. -/
def waitEvent (w : WaitSt) (v : Nat) (t : Nat × Nat) : List Byte :=
  leBytes 2 w.queue ++ zeros 2 ++ leBytes 4 w.tag ++ leBytes 8 v ++ leBytes 8 t.1 ++ leBytes 4 t.2

/-- The notification of a wait whose condition holds (DEDUCED, log entry 91). -/
def notifyWait (s : State) (w : WaitSt) (v : Nat) : State :=
  if w.notify = 1 then
    match getQueue s w.queue with
    | none => s
    | some x =>
      let t := stamp s
      sendEvent t.2 x.client (waitEvent w v t.1)
  else if w.notify = 2 then
    match findGang s w.task with
    | none => (savedBases s w.task).foldl (raiseSaved w.member (w.tag % 256)) s
    | some g => if g.killed.isSome then s else raiseUser s w.task w.member 6 fun c => { c with cwArg := w.tag % 256 }
  else s

/-- Does the value read end the wait? -/
def waitHolds (w : WaitSt) (v : Nat) : Bool := decide (toSigned 64 v ≤ w.thresh)

/-- WAIT (R374). -/
def execPkWait (q : Fin 4096) (word thresh : Word) (notify : Fin 3) (async : Bool) (task mem : Word) (tag : BitVec 32)
    (s : State) : Host.Outcome State Fault Refusal :=
  .next (runPacket s q.val fun x =>
    if word.toNat % 8 ≠ 0 then fenceQueue s q.val causeField
    else
      match farRead s x.desc word.toNat 8 with
      | .error _ => fenceQueue s q.val causeTrans
      | .ok bs =>
        let w : WaitSt := ⟨q.val, word.toNat, thresh.toInt, notify.val, async, task.toNat, mem.toNat, tag.toNat⟩
        if waitHolds w (leNat bs) then advanceQueue (notifyWait s w (leNat bs)) q.val 0
        else if async then
          (if s.watches.length < 1024 then advanceQueue { s with watches := s.watches ++ [w] } q.val 0
           else putQueue s q.val { x with wait := some w, state := .waiting })
        else putQueue s q.val { x with wait := some w, state := .waiting })

/-- A queue blocked on an ASYNC WAIT for want of a slot. -/
def asyncBlocked (e : Nat × Option Queue) : Option (Nat × WaitSt) :=
  match e.2 with
  | none => none
  | some x => (x.wait.filter fun w => w.async && decide (x.state ≠ .fenced)).map fun w => (e.1, w)

/-- Watch slots that are free go to the queues blocked for want of one, the lowest number first (R374; DESIGN CHOICE, log
entry 112). -/
def admitWaits (s : State) : State :=
  (s.queues.filterMap asyncBlocked).foldl (fun s e =>
    if s.watches.length < 1024 then unblockQueue { s with watches := s.watches ++ [e.2] } e.1 else s) s

/-- The blocked WAIT of a queue, or the watch in a slot. -/
def waitAt (s : State) (async : Bool) (i : Nat) : Option WaitSt :=
  if async then s.watches[i]?
  else (getQueue s i).bind fun x => if x.state = .fenced then none else x.wait.filter fun w => !w.async

/-- A wait is over: a watch frees its slot. -/
def endWait (s : State) (async : Bool) (i : Nat) : State :=
  if async then { s with watches := s.watches.eraseIdx i } else s

/-- Read a wait's word again; `fail` says that a read that fails ends the wait too. A slot that frees serves the queues that
wait for one. -/
def rereadWait (s : State) (async : Bool) (i : Nat) (fail : Bool) : State :=
  admitWaits <| match waitAt s async i with
  | none => s
  | some w =>
    match getQueue s w.queue with
    | none => s
    | some x =>
      match farRead s x.desc w.word 8 with
      | .error _ => if fail then fenceQueue (endWait s async i) w.queue causeTrans else s
      | .ok bs =>
        if waitHolds w (leNat bs) then
          let t := endWait (notifyWait s w (leNat bs)) async i
          if async then t else unblockQueue t w.queue
        else s

/-- WAIT_SATISFIED (R374): a read of the word finds it at most THRESH. -/
def execWaitSatisfied (async : Bool) (i : Fin 4096) (s : State) : Host.Outcome State Fault Refusal :=
  .next (rereadWait s async i.val false)

/-- WAIT_POLL (R374): the word is read again. -/
def execWaitPoll (async : Bool) (i : Fin 4096) (s : State) : Host.Outcome State Fault Refusal :=
  .next (rereadWait s async i.val true)

/-! ### LAUNCH and RESUME (R368, R376, R379) -/

/-- A save pool record (R376), or the cause that fences. -/
def readPool (s : State) (desc va : Nat) : Except Nat (Option SavePool) :=
  if va = 0 then .ok none
  else
    match farRead s desc va 64 with
    | .error _ => .error causeTrans
    | .ok bs =>
      if fieldLe bs 24 8 % 2048 ≠ 0 ∨ 1 < fieldLe bs 32 1 ∨ (bs.drop 33).any (· != 0) then .error causeField
      else .ok (some ⟨fieldLe bs 0 8, fieldLe bs 8 8, fieldLe bs 16 8, fieldLe bs 24 8, decide (fieldLe bs 32 1 = 1)⟩)

/-- Cores a CMASK allows. -/
def maskCores (cmask : Nat) : Nat :=
  if cmask % 256 = 0 then 8 else ((List.range 8).filter fun i => bitAt cmask i).length

/-- Can the task ever be placed (R368)? -/
def placeable (t : TaskRec) (cmask : Nat) : Bool :=
  decide (t.gang ≤ maskCores cmask) && decide (t.spadBase + t.spadSize ≤ 2 ^ 23)

/-- CLUSTER names a FAILED cluster (R441). -/
def failedCluster (s : State) (cluster : Nat) : Bool :=
  decide (cluster < 40) && decide ((getCluster s cluster).state = .failed)

/-- CLUSTER is a cluster, or any. -/
def clusterField (cluster : Nat) : Bool := decide (cluster < 40) || decide (cluster = 255)

/-- Enter a launch into the ready list and block its queue on it. -/
def enterReady (s : State) (q : Nat) (x : Queue) (l : Launch) : State :=
  { putQueue s q { x with launch := true } with ready := s.ready ++ [⟨q, l, false⟩] }

/-- The checks of a LAUNCH, in the order of the causes (R368). -/
def checkLaunch (s : State) (x : Queue) (l : Launch) : Except Nat Launch :=
  if !clusterField l.cluster || !descOk s l.xdesc then .error causeField
  else if descTenant s l.xdesc = 0 || (!x.super && (decide (l.prio < x.prio) || l.svc ||
      decide (descTenant s l.xdesc ≠ descTenant s x.desc))) then .error causePriv
  else
    match findImage s l.image with
    | none => .error causeImage
    | some i => if placeable i.task l.cmask && !failedCluster s l.cluster then .ok l else .error causePlace

/-- LAUNCH (R376). -/
def execPkLaunch (q : Fin 4096) (img : BitVec 32) (prio : Fin 4) (svc : Bool) (cluster cmask : BitVec 8) (iseg : Fin 16)
    (xdesc cw crec phase savep : Word) (s : State) : Host.Outcome State Fault Refusal :=
  .next (runPacket s q.val fun x =>
    match readPool s x.desc savep.toNat with
    | .error c => fenceQueue s q.val c
    | .ok pool =>
      let l : Launch :=
        { queue := q.val, prio := prio.val, svc := svc, cluster := cluster.toNat, cmask := cmask.toNat, iseg := iseg.val,
          xdesc := if xdesc.toNat = 0 then x.desc else xdesc.toNat, qdesc := x.desc, cw := cw.toNat, crec := crec.toNat,
          phaseArea := phase.toNat, savep := pool, savepAddr := savep.toNat, image := img.toNat }
      match checkLaunch s x l with
      | .error c => fenceQueue s q.val c
      | .ok l => enterReady s q.val x l)

/-- The checks of a RESUME, in the order of the causes. -/
def checkResume (s : State) (l : Launch) : Except Nat Launch :=
  if !clusterField l.cluster then .error causeField
  else if !canResume s l.image || (s.ready.any fun r => r.launch.resume && r.launch.image = l.image) then .error causeImage
  else if !descOk s l.xdesc then .error causeField
  else if descTenant s l.xdesc = 0 then .error causePriv
  else if placeable (decodeTask (memReads s.mem (l.image + 1024) 256)) l.cmask && !failedCluster s l.cluster then .ok l
  else .error causePlace

/-- RESUME (R379): the image's own descriptor and SVC. -/
def execPkResume (q : Fin 4096) (ibase : Word) (prio : Fin 4) (cluster cmask : BitVec 8) (iseg : Fin 16)
    (cw crec phase savep : Word) (s : State) : Host.Outcome State Fault Refusal :=
  .next (runPacket s q.val fun x =>
    match readPool s x.desc savep.toNat with
    | .error c => fenceQueue s q.val c
    | .ok pool =>
      let ib := ibase.toNat
      let l : Launch :=
        { queue := q.val, prio := prio.val, svc := bitAt (hdrNat s ib 32 1) 3, cluster := cluster.toNat, cmask := cmask.toNat,
          iseg := iseg.val, xdesc := hdrNat s ib 16 8, qdesc := x.desc, cw := cw.toNat, crec := crec.toNat,
          phaseArea := phase.toNat, savep := pool, savepAddr := savep.toNat, image := ib, resume := true }
      match checkResume s l with
      | .error c => fenceQueue (spoilImage s ib) q.val c
      | .ok l => enterReady s q.val x l)

/-! ### KILL and PREEMPT (R379) -/

/-- The saved task, waiting to be resumed by Sienna, of an identity. -/
def savedTask (s : State) (task : Nat) : Option Ready :=
  s.ready.find? fun r => r.again && decide (hdrNat s r.launch.image 8 8 = task)

/-- Kill the task of an identity with reason 2; nothing where it has ended. -/
def killByPacket (s : State) (task : Nat) : State :=
  match savedTask s task with
  | some r => killImage s r.launch.image .kill 2 0
  | none => killTask s task .kill 2 0 0 0

/-- KILL (R379; DEDUCED, log entry 37) (DEDUCED, log entry 95). -/
def execPkKill (q : Fin 4096) (task : Word) (s : State) : Host.Outcome State Fault Refusal :=
  .next (runPacket s q.val fun x =>
    if !x.super && decide (mapGet 0 s.dispatched task.toNat ≠ q.val + 1) then fenceQueue s q.val causePriv
    else advanceQueue (killByPacket s task.toNat) q.val 0)

/-- A pre-emption already asked of the gang becomes a detaching one to the pool named (R379). -/
def detachGang (pool : Option SavePool) (g : Gang) : Gang :=
  { g with preempt := g.preempt.map fun r => { r with detach := true, pool := pool.orElse fun _ => r.pool } }

/-- Pre-empt a task to the named pool and detach it. -/
def preemptByPacket (s : State) (task : Nat) (pool : Option SavePool) : State :=
  let s := requestPreempt s task 5 pool true
  match findGang s task with
  | none => s
  | some g => putGang s (detachGang pool g)

/-- PREEMPT (R379). -/
def execPkPreempt (q : Fin 4096) (task savep : Word) (s : State) : Host.Outcome State Fault Refusal :=
  .next (runPacket s q.val fun x =>
    match readPool s x.desc savep.toNat with
    | .error c => fenceQueue s q.val c
    | .ok pool => advanceQueue (preemptByPacket s task.toNat pool) q.val 0)

/-! ### The other supervisor packets (R380, R435) -/

/-- LAKE with ACTION REVOKE (R238, R380). -/
def execPkLakeRevoke (q : Fin 4096) (task : Word) (mem : BitVec 8) (l : Fin 16) (s : State) :
    Host.Outcome State Fault Refusal :=
  .next (runPacket s q.val fun _ =>
    advanceQueue (match findGang s task.toNat with
      | none => (savedBases s task.toNat).foldl (revokeSaved mem.toNat l.val) s
      | some g =>
        if hasMember g mem.toNat && g.killed.isNone && (vget {} (getCtx g mem.toNat).lakes l.val).bound then
          let r := revokeLake s g mem.toNat l.val true
          putGang r.1 r.2
        else s) q.val 0)

/-- LAKE with ACTION QUOTA (R245, R380; DEDUCED, log entry 34). -/
def execPkLakeQuota (q : Fin 4096) (tenant : BitVec 12) (limit : BitVec 8) (s : State) : Host.Outcome State Fault Refusal :=
  .next (runPacket s q.val fun _ =>
    advanceQueue { s with quota := mapSet 16 s.quota tenant.toNat (min limit.toNat 16) } q.val 0)

/-- RESHARD (R435): blocks its queue until the plan has been started. -/
def execPkReshard (q : Fin 4096) (plan : Word) (s : State) : Host.Outcome State Fault Refusal :=
  .next (runPacket s q.val fun x =>
    if plan.toNat % 256 ≠ 0 then fenceQueue s q.val causeField
    else putQueue s q.val { x with plan := some plan.toNat })

/-- CRPL (R264, R380). -/
def execPkCrpl (q : Fin 4096) (cl : Fin 40) (chan : BitVec 7) (s : State) : Host.Outcome State Fault Refusal :=
  let n := chan.toNat
  .next (runPacket s q.val fun _ => advanceQueue (replayAt s cl.val (bitsOf n 6 4) (bitsOf n 3 2) (n % 4)) q.val 0)

/-- Deliver records in order. -/
def deliverAll (s : State) (rs : List Record) : State := rs.foldl deliver s

/-- Install the supervisor ring (R342): PUT continues from its header, and the records kept so far go first (DEDUCED, log entry 89). -/
def installRing (s : State) (desc base nent : Nat) : State :=
  let put := match farRead s desc base 4 with
    | .error _ => 0
    | .ok bs => leNat bs
  let first := s.ring.isNone
  let early := s.early
  let wait := s.waiting
  let s := { s with ring := some ⟨base, nent, desc, put⟩, early := [], waiting := [] }
  let s := if first then
      (match deviceWrite s desc (base + 8) (leBytes 4 s.lost) with
        | .error _ => s
        | .ok t => { t with lost := 0 })
    else s
  deliverAll (deliverAll s early) wait

/-- Is a number a power of two? -/
def isPow2 (n : Nat) : Bool := (List.range 32).any fun k => n == 2 ^ k

/-- RING (R342, R380; DEDUCED, log entry 35). -/
def execPkRing (q : Fin 4096) (base : Word) (nent : BitVec 32) (s : State) : Host.Outcome State Fault Refusal :=
  .next (runPacket s q.val fun x =>
    if base.toNat % 64 ≠ 0 ∨ ¬isPow2 nent.toNat then fenceQueue s q.val causeField
    else advanceQueue (installRing s x.desc base.toNat nent.toNat) q.val 0)

/-- Does a ring keep R196 within its task's allocation? -/
def ringOk (s : State) (r : Steer) : Bool :=
  decide (r.base % 64 = 0) && decide (8 ≤ r.slotLog) && decide (r.slotLog ≤ 14) && decide (r.nslotLog ≤ 16) &&
  decide (r.cluster < 40) && (match r.member with | none => true | some m => decide (m < 8)) &&
  (match findGang s r.task with
    | none => false
    | some g => decide (g.cluster = r.cluster) && inAlloc g r.base (packetRingBytes r))

/-- STEER with ACTION install (R380; DEDUCED, log entry 36). -/
def execPkSteerInstall (q : Fin 4096) (rule : BitVec 8) (ports : Fin 4) (udp : BitVec 16) (task : Word) (base : BitVec 32)
    (slotLog nslotLog member cluster : BitVec 8) (s : State) : Host.Outcome State Fault Refusal :=
  .next (runPacket s q.val fun _ =>
    let r : Steer :=
      { rule := rule.toNat, ports := ports.val, udp := udp.toNat, task := task.toNat, base := base.toNat,
        slotLog := slotLog.toNat, nslotLog := nslotLog.toNat,
        member := if member.toNat = 255 then none else some member.toNat, cluster := cluster.toNat }
    if ringOk s r then
      advanceQueue { s with steers := (s.steers.filter fun t => t.rule ≠ r.rule) ++ [r] } q.val 0
    else fenceQueue s q.val causeField)

/-- STEER with ACTION remove (R380). -/
def execPkSteerRemove (q : Fin 4096) (rule : BitVec 8) (s : State) : Host.Outcome State Fault Refusal :=
  .next (runPacket s q.val fun _ =>
    advanceQueue { s with steers := s.steers.filter fun t => t.rule ≠ rule.toNat } q.val 0)

/-! ### The executive cycle (R364) -/

/-- Perform a packet by its meaning. -/
def performPacket (i : Instr) (s : State) : Host.Outcome State Fault Refusal :=
  match i with
  | .pkNop q => execPkNop q s
  | .pkLaunch q img prio svc cluster cmask iseg xdesc cw crec phase savep =>
    execPkLaunch q img prio svc cluster cmask iseg xdesc cw crec phase savep s
  | .pkCall q base len => execPkCall q base len s
  | .pkRet q => execPkRet q s
  | .pkPred q word value mask cond skip => execPkPred q word value mask cond skip s
  | .pkLoop q count body => execPkLoop q count body s
  | .pkFence q => execPkFence q s
  | .pkWrite q addr value add rel => execPkWrite q addr value add rel s
  | .pkWait q word thresh notify async task mem tag => execPkWait q word thresh notify async task mem tag s
  | .pkSignal q word dec => execPkSignal q word dec s
  | .pkStamp q addr => execPkStamp q addr s
  | .pkLakeRevoke q task mem l => execPkLakeRevoke q task mem l s
  | .pkLakeQuota q tenant limit => execPkLakeQuota q tenant limit s
  | .pkReshard q plan => execPkReshard q plan s
  | .pkKill q task => execPkKill q task s
  | .pkPreempt q task savep => execPkPreempt q task savep s
  | .pkResume q ibase prio cluster cmask iseg cw crec phase savep =>
    execPkResume q ibase prio cluster cmask iseg cw crec phase savep s
  | .pkCrpl q cl chan => execPkCrpl q cl chan s
  | .pkRing q base nent => execPkRing q base nent s
  | .pkSteerInstall q rule ports udp task base slotLog nslotLog member cluster =>
    execPkSteerInstall q rule ports udp task base slotLog nslotLog member cluster s
  | .pkSteerRemove q rule => execPkSteerRemove q rule s
  | _ => .next s

/-- Fetch and execute one packet of a queue. -/
def stepQueue (s : State) (q : Nat) : State :=
  match readyQueue s q with
  | none => s
  | some x =>
    match fetchPacket s x with
    | none => fenceQueue s q causeTrans
    | some (bs, x') =>
      let s := putQueue s q x'
      match parsePacket (Fin.ofNat 4096 q) x.super bs with
      | .error c => fenceQueue s q c
      | .ok i =>
        match performPacket i s with
        | .next s => s
        | .fault _ => s
        | .refused _ => s

/-- A turn: up to `n` packets (R364). -/
def queueTurn (q : Nat) : Nat → State → State
  | 0, s => s
  | n + 1, s => queueTurn q n (stepQueue s q)

/-- The queues of a core in the order of its cycle's turns. -/
def turnOrder (s : State) (i : Nat) : List Nat :=
  let first := mapGet 511 s.firstTurn i
  ((List.range 512).map fun k => 512 * i + (first + 1 + k) % 512).filter fun q => (readyQueue s q).isSome

end Sys2Proof.Machine
end

