-- ==== Sys2Proof/Machine/Deceo.lean ====
section
/-! DEFINITION. Deceo: the calls of the host protocol but QUIESCE (R355 to R363), their journal (R358), and RoCEv2
accesses (R360). -/

namespace Sys2Proof.Machine

/-! ### Statuses (R357) -/

/-- STALE_CALL. -/
def stStale : Nat := 1
/-- OUTCOME_UNKNOWN. -/
def stUnknown : Nat := 2
/-- BAD_CALL. -/
def stBad : Nat := 3
/-- DENIED. -/
def stDenied : Nat := 4
/-- NO_QUEUE. -/
def stNoQueue : Nat := 5
/-- QUEUE_OVERRUN. -/
def stOverrun : Nat := 6
/-- QUEUE_FENCED. -/
def stFenced : Nat := 7
/-- TRANSLATION. -/
def stTrans : Nat := 8

/-! ### Performing a call once (R358) -/

/-- A client of the provisioning table (R456). -/
def findClient (s : State) (client : Nat) : Option Client := s.ochre.clients.find? fun c => c.id = client

/-- The reply of a call, under the current boot count. -/
def replyBytes (s : State) (op status client seq : Nat) (payload : List Byte) : List Byte :=
  deceoBytes 2 op status client s.boot.toNat seq payload

/-- Send a reply that is not journalled (DEDUCED, log entry 59). -/
def sendReply (s : State) (op status client seq : Nat) (payload : List Byte) : State :=
  sendOut s (.deceo client (replyBytes s op status client seq payload))

/-- The journal holds the replies to a client's last 64 calls. -/
def trimJournal (client : Nat) (js : List JEntry) : List JEntry :=
  if 64 < (js.filter fun j => j.client = client).length then js.eraseP fun j => j.client = client else js

/-- Journal a reply and send it. -/
def finishCall (s : State) (op status client seq : Nat) (payload : List Byte) : State :=
  let bs := replyBytes s op status client seq payload
  let last := max (mapGet 0 s.lastSeq client) (seq + 1)
  let s := { s with journal := trimJournal client (s.journal ++ [⟨client, seq, bs⟩]), lastSeq := mapSet 0 s.lastSeq client last }
  sendOut s (.deceo client bs)

/-- Perform a call of a client, which gives its status, its payload and the state after it: nothing without power or in
stage 1; in stage 2 only HELLO is answered (R437, R439). -/
def performCall (s : State) (op client seq : Nat) (f : Client → State → Nat × List Byte × State) : State :=
  if !s.powered || decide (s.stage = .root) then s
  else
    match findClient s client with
    | none => sendReply s op stDenied client seq []
    | some c =>
      if s.stage = .test ∧ op ≠ 1 then sendReply s op stDenied client seq []
      else
        let r := f c s
        finishCall r.2.2 op r.1 client seq r.2.1

/-- Perform a call that changes nothing where it fails. -/
def runCall (s : State) (op client seq : Nat) (f : Client → State → Except Nat (List Byte × State)) : State :=
  performCall s op client seq fun c s =>
    match f c s with
    | .error st => (st, [], s)
    | .ok r => (0, r.1, r.2)

/-- Does an access of the network keep away from protected memory (R458)? One that does not translate is refused for
that. -/
def netMayAccess (s : State) (desc va n : Nat) (write : Bool) : Bool :=
  match xlatRange s desc va n write with
  | .error _ => true
  | .ok rs => !(rs.any fun r => s.ochre.prot.any fun u => rangesMeet r.1 r.2 u.1 u.2)

/-! ### HELLO, GET, PUT, WINDOW (R356, R359, R360) -/

/-- HELLO. -/
def execDcHello (client : BitVec 32) (seq : Word) (s : State) : Host.Outcome State Fault Refusal :=
  .next (runCall s 1 client.toNat seq.toNat fun _ s =>
    .ok (leBytes 4 s.boot.toNat ++ leBytes 2 s.devId ++ leBytes 1 s.ptpLock.toNat, s))

/-- GET. -/
def execDcGet (client : BitVec 32) (seq addr : Word) (len : BitVec 32) (s : State) : Host.Outcome State Fault Refusal :=
  .next (runCall s 2 client.toNat seq.toNat fun c s =>
    if 8192 < len.toNat then .error stBad
    else if !netMayAccess s c.desc addr.toNat len.toNat false then .error stTrans
    else
      match farRead s c.desc addr.toNat len.toNat with
      | .error _ => .error stTrans
      | .ok bs => .ok (bs, s))

/-- PUT: performed before its reply (R359). -/
def execDcPut (client : BitVec 32) (seq addr : Word) (bs : List Byte) (s : State) : Host.Outcome State Fault Refusal :=
  .next (runCall s 3 client.toNat seq.toNat fun c s =>
    if 8184 < bs.length then .error stBad
    else if !netMayAccess s c.desc addr.toNat bs.length true then .error stTrans
    else
      match farWriteExt s c.desc addr.toNat bs with
      | .error _ => .error stTrans
      | .ok s => .ok ([], s))

/-- The first physical host window address not granted yet. -/
def nextHost (s : State) : Nat :=
  s.windows.foldl (fun n w => match w.host with
    | none => n
    | some b => max n ((b + w.len + 4095) / 4096 * 4096)) hostBase

/-- WINDOW (R360): a device window's rkey, or a host window's physical address. -/
def execDcWindow (client : BitVec 32) (seq addr len : Word) (dir : BitVec 8) (s : State) : Host.Outcome State Fault Refusal :=
  .next (runCall s 9 client.toNat seq.toNat fun c s =>
    if dir.toNat < 2 then
      let w : Window := ⟨s.nextRkey, c.id, addr.toNat, len.toNat, decide (dir.toNat = 1), c.desc, none⟩
      .ok (leBytes 4 s.nextRkey, { s with windows := s.windows ++ [w], nextRkey := s.nextRkey + 1 })
    else if dir.toNat = 2 ∧ nextHost s + len.toNat ≤ 2 ^ 48 then
      let b := nextHost s
      let w : Window := ⟨s.nextRkey, c.id, addr.toNat, len.toNat, true, c.desc, some b⟩
      .ok (leBytes 8 b, { s with windows := s.windows ++ [w], nextRkey := s.nextRkey + 1 })
    else .error stBad)

/-! ### Queues (R361 to R363, R386) -/

/-- A queue that a client may act on: its owner's, or any for a supervisor. -/
def ownQueue (s : State) (c : Client) (q : Nat) : Option Queue := (getQueue s q).filter fun x => c.super || decide (x.client = c.id)

/-- KICK (R362): an overrun fences the queue. -/
def execDcKick (client : BitVec 32) (seq : Word) (qn : BitVec 16) (tail : Word) (s : State) :
    Host.Outcome State Fault Refusal :=
  .next (performCall s 4 client.toNat seq.toNat fun c s =>
    match ownQueue s c qn.toNat with
    | none => (stNoQueue, [], s)
    | some x =>
      if x.state = .fenced then (stFenced, [], s)
      else if tail.toNat ≤ x.tail then (0, leBytes 8 x.tail, s)
      else if x.npkt < tail.toNat - x.head then (stOverrun, [], fenceQueue s qn.toNat causeOverrun)
      else (0, leBytes 8 tail.toNat, putQueue s qn.toNat (takeSkip { x with tail := tail.toNat })))

/-- QCREATE (R361). -/
def execDcQcreate (client : BitVec 32) (seq : Word) (qn : BitVec 16) (prio sup : BitVec 8) (npkt : BitVec 32) (ring : Word)
    (s : State) : Host.Outcome State Fault Refusal :=
  .next (runCall s 5 client.toNat seq.toNat fun c s =>
    let n := npkt.toNat
    if 4096 ≤ qn.toNat ∨ 4 ≤ prio.toNat ∨ 2 ≤ sup.toNat ∨ ¬isPow2 n ∨ n < 16 ∨ 2 ^ 20 < n ∨ ring.toNat % 4096 ≠ 0 ∨
        (getQueue s qn.toNat).isSome then .error stBad
    else if sup.toNat = 1 ∧ ¬c.super then .error stDenied
    else
      match xlatRange s c.desc ring.toNat (64 * n) false with
      | .error _ => .error stTrans
      | .ok _ =>
        let x : Queue :=
          { ring := ring.toNat, npkt := n, prio := prio.toNat, super := decide (sup.toNat = 1), desc := c.desc,
            client := c.id, tenant := c.tenant }
        .ok ([], putQueue s qn.toNat x))

/-- QDESTROY (R363): at once, or once the queue's launch has been dispatched. -/
def execDcQdestroy (client : BitVec 32) (seq : Word) (qn : BitVec 16) (s : State) : Host.Outcome State Fault Refusal :=
  .next (runCall s 6 client.toNat seq.toNat fun c s =>
    match ownQueue s c qn.toNat with
    | none => .error stNoQueue
    | some x => .ok ([], if x.launch || launchWaits s qn.toNat then putQueue s qn.toNat { x with destroy := true } else removeQueue s qn.toNat))

/-- A queue reset (R363): the launch it waits on goes too (DEDUCED, log entry 60). -/
def resetQueue (s : State) (q : Nat) (x : Queue) : State :=
  let y : Queue := { x with
    tail := x.head, state := .active, cause := 0, stack := [], loop := none, skip := 0, wait := none, launch := false,
    plan := none, buf := none }
  let s := { s with ready := s.ready.filter fun r => r.again || r.launch.test || decide (r.queue ≠ q) }
  if x.destroy then removeQueue s q else putQueue s q y

/-- QRESET (R363). -/
def execDcQreset (client : BitVec 32) (seq : Word) (qn : BitVec 16) (s : State) : Host.Outcome State Fault Refusal :=
  .next (runCall s 7 client.toNat seq.toNat fun c s =>
    match ownQueue s c qn.toNat with
    | none => .error stNoQueue
    | some x => .ok ([], resetQueue s qn.toNat x))

/-- QSTATUS (R386). -/
def execDcQstatus (client : BitVec 32) (seq : Word) (qn : BitVec 16) (s : State) : Host.Outcome State Fault Refusal :=
  .next (runCall s 8 client.toNat seq.toNat fun c s =>
    match ownQueue s c qn.toNat with
    | none => .error stNoQueue
    | some x => .ok (queueRecord qn.toNat x, s))

/-! ### LOAD and UNLOAD (R356) -/

/-- LOAD (R100): the image id, or the loader's code. -/
def execDcLoad (client : BitVec 32) (seq addr len : Word) (s : State) : Host.Outcome State Fault Refusal :=
  .next (runCall s 10 client.toNat seq.toNat fun c s =>
    match loadImage s c.id c.desc addr.toNat len.toNat with
    | .error st => .error st
    | .ok (id, s) => .ok (leBytes 4 id, s))

/-- UNLOAD. -/
def execDcUnload (client : BitVec 32) (seq : Word) (img : BitVec 32) (s : State) : Host.Outcome State Fault Refusal :=
  .next (runCall s 11 client.toNat seq.toNat fun _ s =>
    match unloadImage s img.toNat with
    | .error st => .error st
    | .ok s => .ok ([], s))

/-! ### RoCEv2 (R360) -/

/-- The device window of an rkey that covers an access. -/
def windowFor (s : State) (rkey addr n : Nat) (write : Bool) : Option Window :=
  s.windows.find? fun w => w.rkey = rkey && w.host.isNone && (!write || w.write) && decide (w.addr ≤ addr) &&
    decide (addr + n ≤ w.addr + w.len)

/-- The window of an RDMA access in stage 3, with nothing of protected memory in its way (R458). -/
def rdmaWindow (s : State) (rkey addr n : Nat) (write : Bool) : Option Window :=
  if s.stage = .service then
    (windowFor s rkey addr n write).filter fun w => netMayAccess s w.desc addr n write
  else none

/-- An access outside every window is answered with a NAK and does nothing. -/
def nak (s : State) : State := sendOut s (.rdma false [])

/-- RDMA_WRITE: acknowledged once performed in device memory. -/
def execRdmaWrite (rkey : BitVec 32) (addr : Word) (bs : List Byte) (s : State) : Host.Outcome State Fault Refusal :=
  .next (if !s.powered || decide (s.stage = .root) then s
    else
      match rdmaWindow s rkey.toNat addr.toNat bs.length true with
      | none => nak s
      | some w =>
        match farWriteExt s w.desc addr.toNat bs with
        | .error _ => nak s
        | .ok s => sendOut s (.rdma true []))

/-- RDMA_READ. -/
def execRdmaRead (rkey : BitVec 32) (addr : Word) (len : BitVec 32) (s : State) : Host.Outcome State Fault Refusal :=
  .next (if !s.powered || decide (s.stage = .root) then s
    else
      match rdmaWindow s rkey.toNat addr.toNat len.toNat false with
      | none => nak s
      | some w =>
        match farRead s w.desc addr.toNat len.toNat with
        | .error _ => nak s
        | .ok bs => sendOut s (.rdma true bs))

end Sys2Proof.Machine
end

