-- ==== Sys2Proof/Machine/Madder.lean ====
section
/-! DEFINITION. Madder: starting, claiming, stepping and ending plans (R422 to R436). -/

namespace Sys2Proof.Machine

/-! ### Statuses and the area's header -/

/-- Plan causes of R425. -/
def planDest : Nat := 0x10
/-- SOURCE. -/
def planSource : Nat := 0x11
/-- UNCORRECTABLE. -/
def planMemErr : Nat := 0x12
/-- PEER_LOST. -/
def planPeer : Nat := 0x13
/-- KILLED. -/
def planKilled : Nat := 0x14
/-- PLAN_TRANSLATION. -/
def planTrans : Nat := 0x26

/-- A plan's or a start's result becomes the status word of its member, if that still runs (R433): states as R434. -/
def tellStart (s : State) (starter : Option (Nat × Nat)) (state cause steps : Nat) : State :=
  match starter with
  | none => s
  | some (g, m) =>
    match findGang s g with
    | none => s
    | some _ =>
      let r := (rsStatOf s g m).getD ⟨g, m, 0, 0, 0, 0, false⟩
      setRsStat s { r with state := state, cause := cause, steps := steps, refused := r.refused || decide (state = 6) }

/-- The member that started a plan, while its gang runs. -/
def planMember (s : State) (p : Plan) : Option (Gang × Nat) := p.starter.bind fun x => (findGang s x.1).map fun g => (g, x.2)

/-- Does the detector keep entries for what a plan writes (R301): by kcfg.FAR of the starting context as it stands, or, once
its gang has ended or is saved, as it stood at the start (DESIGN CHOICE, log entry 130)? None for a packet start. -/
def planCovered (s : State) (p : Plan) : Bool :=
  match planMember s p with
  | some (g, m) => cfgFar (getCtx g m)
  | none => p.starter.isSome && p.far

/-- Give what a plan has written the entry of the starting context (R430), at a scope for a release. -/
def planEntry (p : Plan) (scope : Nat) (sync : Bool) : Lane :=
  shadowEntry (shWho p.ent) (shEpoch p.ent) p.interval scope sync

/-- Write bytes of far memory for a plan (R430): as the starting context's engine, or as no context; or the cause. -/
def planWrite (s : State) (p : Plan) (va : Nat) (bs : List Byte) : Except Nat State :=
  match wordRange s p.desc va bs.length with
  | .error c => .error c
  | .ok rs =>
    let s := match planMember s p with
      | none => s
      | some (g, m) => engineFarRaces s g m va rs true 4
    let t := physWriteParts s rs bs
    .ok (rs.foldl (fun t r => if planCovered s p then shadowFarSet t r.1 r.2 false (planEntry p 7 false)
      else clearFarShadow t r.1 r.2) t)

/-- Write fields of a plan's header, or the cause. -/
def planFields (s : State) (p : Plan) : List (Nat × List Byte) → Except Nat State
  | [] => .ok s
  | e :: r =>
    match planWrite s p (p.area + e.1) e.2 with
    | .error c => .error c
    | .ok s => planFields s p r

/-- The cursor and STEPS as header fields (R420). -/
def cursorFields (p : Plan) : List (Nat × List Byte) :=
  [(64, leBytes 4 p.cpiece), (72, leBytes 8 p.crow), (80, leBytes 4 p.coff), (88, leBytes 8 p.steps)]

/-- STATE and CAUSE, with what the last stop leaves (DEDUCED, log entry 93). -/
def stopFields (state cause fcause faddr fdev : Nat) : List (Nat × List Byte) :=
  [(6, leBytes 1 state ++ leBytes 1 cause), (54, leBytes 1 fcause), (84, leBytes 2 (fdev % 32768)), (96, leBytes 8 faddr)]

/-- The plan is no longer RUNNING. -/
def dropPlan (s : State) (p : Plan) : State :=
  { s with
    plans := s.plans.filter fun x => x.identity ≠ p.identity
    remote := s.remote.filter fun o => o.plan ≠ some p.identity }

/-- Replace a RUNNING plan. -/
def putPlan (s : State) (p : Plan) : State :=
  { s with plans := s.plans.map fun x => if x.identity = p.identity then p else x }

/-- A packet start has come to a result: its queue goes on, or fences (R435). -/
def queueResult (s : State) (p : Plan) (state cause : Nat) : State :=
  match p.queue with
  | none => s
  | some q =>
    match getQueue s q with
    | none => s
    | some x =>
      if x.plan = some p.area then
        (if state = 6 then fenceQueue s q causeField
         else if state = 5 ∧ cause = planTrans then fenceQueue s q causeTrans
         else unblockQueue s q)
      else s

/-- Does a member's reference name the area of a plan, with no start of its own under way (R433)? -/
def refersTo (s : State) (p : Plan) (g : Gang) (m : Nat) : Bool :=
  let a := (getCtx g m).rsArea
  decide (a ≠ 0) && !(s.starts.any fun x => x.gang = g.id && x.member = m) &&
  (match translate s g.launch.xdesc a, translate s p.desc p.area with
    | .ok x, .ok y => decide (x.pa = y.pa)
    | _, _ => false)

/-- The status words of the members that refer to a plan follow it, whoever started it (R433). -/
def tellFollowers (s : State) (p : Plan) (state cause : Nat) : State :=
  (s.gangs.flatMap fun g => (List.range g.members.length).filterMap fun m =>
    if refersTo s p g m then some (g.id, m) else none).foldl (fun s x => tellStart s (some x) state cause p.steps) s

/-- A start has come to a result of its own, which is not the plan's: whoever started it is told. -/
def tellRefusal (s : State) (p : Plan) (state cause : Nat) : State :=
  queueResult (tellStart s p.starter state cause p.steps) p state cause

/-- Tell a state of a plan to whoever started it and to every member that refers to it; a packet start has then come to its
result, and what becomes of the plan later is not told to its queue (R435). -/
def tellPlan (s : State) (p : Plan) (state cause : Nat) : State :=
  putPlan (tellRefusal (tellFollowers s p state cause) p state cause) { p with queue := none }

/-- End a plan in the state and cause of its header (R424, R428): where the header cannot be written it is ERROR with
PLAN_TRANSLATION. -/
def stopPlan (s : State) (p : Plan) (hstate cause fcause faddr fdev : Nat) : State × Bool :=
  match planFields s p (cursorFields p ++ stopFields hstate cause fcause faddr fdev) with
  | .ok t => (tellPlan (dropPlan t p) p (hstate + 1) cause, true)
  | .error _ =>
    let t := match planFields s p [(6, leBytes 1 4 ++ leBytes 1 planTrans)] with
      | .ok t => t
      | .error _ => s
    (tellPlan (dropPlan t p) p 5 planTrans, false)

/-- The task that started a plan; 0 for a packet start (R420). -/
def planTask (p : Plan) : Nat :=
  match p.starter with
  | none => 0
  | some (g, _) => g

/-- INTERVAL of a saved member after a release of its plan (R302, R314). -/
def bumpSaved (m : Nat) (s : State) (ib : Nat) : State :=
  match recordPa s ib m 13 with
  | none => s
  | some pa => physWrite s pa (leBytes 1 (physNat s pa 1 + 1))

/-- Decrement a plan's completion word (R293, R428, R430): a release of the starting context, whose INTERVAL rises, saved or
not; or a plain one. -/
def planWord (s : State) (p : Plan) : State :=
  if p.cw = 0 then s
  else
    let t := decFarWord s p.desc p.cw 5 (planTask p)
    let t := match planCovered s p, wordRange s p.desc p.cw 8 with
      | true, .ok rs => rs.foldl (fun t r => shadowFarSet t r.1 r.2 true (planEntry p 3 true)) t
      | _, _ => t
    match p.starter with
    | none => t
    | some (g, m) =>
      (savedBases t g).foldl (bumpSaved m) (modCtxOf t g m fun c => { c with interval := (c.interval + 1) % 256 })

/-- A plan ends DONE (R428). -/
def finishPlan (s : State) (p : Plan) : State :=
  let r := stopPlan s { p with cpiece := p.pieces.length, crow := 0, coff := 0 } 3 0 0 0 0
  if r.2 then planWord r.1 p else r.1

/-! ### Starting (R423, R424) -/

/-- The reserved fields of a header are 0, and its fixed fields right. -/
def planHeaderOk (h : List Byte) : Bool :=
  decide (fieldLe h 0 4 = 0x31505352) && decide (fieldLe h 4 2 = 1) && decide (fieldLe h 6 1 ≤ 4) &&
  decide (fieldLe h 52 2 < 32768) && decide (fieldLe h 55 1 = 0) && decide (fieldLe h 68 4 = 0) &&
  decide (fieldLe h 84 2 < 32768) && decide (fieldLe h 86 2 = 0) && decide (fieldLe h 104 152 = 0)

/-- What generation finds: the pieces, or the cause (R424; DEDUCED, log entry 43). -/
def generate (s : State) (p : Plan) (h : List Byte) : Except Nat (List Piece) :=
  match readLayout s p.desc (fieldLe h 8 8), readLayout s p.desc (fieldLe h 16 8) with
  | some src, some dst =>
    if src.rank ≠ dst.rank ∨ src.esize ≠ dst.esize ∨ src.ext ≠ dst.ext then .error 0x22
    else if ¬(src.devs.map (·.1)).Nodup ∨ ¬(dst.devs.map (·.1)).Nodup then .error 0x23
    else
      let ps := piecesOf src dst s.devId
      if fieldLe h 32 4 < 256 + 128 * ps.length then .error 0x24
      else if sharesOverlap src dst s.devId then .error 0x25
      else .ok ps
  | _, _ => .error 0x21

/-- Does the cursor lie at or past the end of the plan (R423)? -/
def pastPlan (p : Plan) : Bool :=
  match p.pieces[p.cpiece]? with
  | none => true
  | some pc =>
    decide (p.cpiece + 1 = p.pieces.length) &&
    (decide (pc.nrow ≤ p.crow) || (decide (p.crow + 1 = pc.nrow) && decide (rowLen pc ≤ p.coff)))

/-- Step 4 of R423 on a claimed plan. -/
def generatePlan (s : State) (p : Plan) (h : List Byte) : State :=
  match generate s p h with
  | .error c => (stopPlan s p 4 c 0 0 0).1
  | .ok ps =>
    let p := { p with pieces := ps }
    match planFields s p [(36, leBytes 4 ps.length), (40, leBytes 8 (shareSteps ps)), (256, ps.flatMap pieceBytes)] with
    | .error _ => (stopPlan s p 4 planTrans 0 0 0).1
    | .ok t =>
      let t := putPlan t p
      if pastPlan p then finishPlan t p else tellPlan t p 2 0

/-- The claim found the header IDLE or to be resumed: the plan is RUNNING (R423). -/
def claimRunning (s : State) (p : Plan) (h : List Byte) (keep : Bool) : State :=
  let p := { p with
    cw := fieldLe h 24 8
    cpiece := if keep then fieldLe h 64 4 else 0
    crow := if keep then fieldLe h 72 8 else 0
    coff := if keep then fieldLe h 80 4 else 0
    steps := if keep then fieldLe h 88 8 else 0 }
  match planFields s p (cursorFields p ++ stopFields 1 0 0 0 0 ++
      [(48, leBytes 4 s.boot.toNat ++ leBytes 2 (s.devId % 32768)), (56, leBytes 8 (planTask p))]) with
  | .error _ => (stopPlan s p 4 planTrans 0 0 0).1
  | .ok t => generatePlan { t with plans := t.plans ++ [p] } p h

/-- Steps 1 to 4 of R423. -/
def startPlan (s : State) (p : Plan) : State :=
  match wordRange s p.desc p.area 256, cleanRead s p.desc p.area 256 with
  | .ok _, .ok h =>
    if 256 ≤ s.plans.length then tellRefusal s p 6 0x33
    else if !planHeaderOk h then
      (match planFields s p [(6, leBytes 1 4 ++ leBytes 1 0x20)] with
        | .ok t => tellPlan t p 5 0x20
        | .error _ => tellPlan s p 5 0x20)
    else
      let st := fieldLe h 6 1
      if 3 ≤ st then tellRefusal s p 6 0x31
      else if st = 1 ∧ fieldLe h 48 4 = s.boot.toNat then tellRefusal s p 6 0x30
      else claimRunning s p h (decide (st ≠ 0))
  | _, _ => tellRefusal s p 5 planTrans

/-- A number no plan of the device has. -/
def freshPlan (s : State) : Nat := s.plans.foldl (fun n p => max n (p.identity + 1)) 0

/-- The plan a start asks for. -/
def newPlan (s : State) (area desc : Nat) (starter : Option (Nat × Nat)) (queue : Option Nat) (interval tenant : Nat)
    (ent : Lane) (far : Bool) : Plan where
  area := area
  desc := desc
  starter := starter
  queue := queue
  running := true
  pieces := []
  cpiece := 0
  crow := 0
  coff := 0
  steps := 0
  cw := 0
  kill := false
  identity := freshPlan s
  interval := interval
  tenant := tenant
  ent := ent
  far := far

/-- PLAN_CLAIM (R423): the start of a member's rs.go, or of the RESHARD packet a queue is blocked on. -/
def execPlanClaim (who : PlanWho) (s : State) : Host.Outcome State Fault Refusal :=
  .next (match who with
    | .ctx task m =>
      (match s.starts.find? fun x => x.gang = task.toNat && x.member = m.val with
        | none => s
        | some x =>
          let s := { s with starts := s.starts.filter fun y => y != x }
          startPlan s (newPlan s x.area x.desc (some (x.gang, x.member)) none x.interval x.tenant x.ent x.far))
    | .queue q =>
      match getQueue s q.val with
      | none => s
      | some x =>
        match x.plan with
        | none => s
        | some area => startPlan s (newPlan s area x.desc none (some q.val) 0 x.tenant 0 false))

/-! ### Steps (R426 to R428, R436) -/

/-- The cursor after a step of `n` bytes (R418). -/
def nextCursor (p : Plan) (pc : Piece) (n : Nat) : Plan :=
  let p := { p with steps := p.steps + 1 }
  if p.coff + n < rowLen pc then { p with coff := p.coff + n }
  else if p.crow + 1 < pc.nrow then { p with coff := 0, crow := p.crow + 1 }
  else { p with coff := 0, crow := 0, cpiece := p.cpiece + 1 }

/-- The bytes of a step, or the stop: cause, cause of R271, address and device. -/
def stepBytes (s : State) (p : Plan) (pc : Piece) (sa n : Nat) (out : StepOut) : Except (Nat × Nat × Nat × Nat) (List Byte) :=
  if pc.sdev = s.devId then
    match cleanRead s p.desc sa n with
    | .error c => .error (if c = causeUncorr then (planMemErr, 0, sa, pc.sdev) else (planSource, c, sa, pc.sdev))
    | .ok bs => if out = .memError then .error (planMemErr, 0, sa, pc.sdev) else .ok bs
  else
    match out with
    | .remote bs => .ok (sliceBytes bs 0 n)
    | .refused => .error (planSource, 0, sa, pc.sdev)
    | .memError => .error (planSource, 0, sa, pc.sdev)
    | .here => .error (planPeer, 0, sa, pc.sdev)
    | .peerLost => .error (planPeer, 0, sa, pc.sdev)

/-- Retire the page of an address that met an uncorrectable error (R278). -/
def retireAt (s : State) (p : Plan) (va : Nat) : State :=
  match translate s p.desc va with
  | .error _ => s
  | .ok t => retirePage s t.pa

/-- A step is done: the cursor moves on, and stands in the area at least every 64 steps (R427). -/
def stepDone (s : State) (p : Plan) (pc : Piece) (n : Nat) : State :=
  let p := nextCursor p pc n
  let s := putPlan s p
  if p.pieces.length ≤ p.cpiece then finishPlan s p
  else
    let s := tellStart (tellFollowers s p 2 0) p.starter 2 0 p.steps
    if p.steps % 64 = 0 then
      match planFields s p (cursorFields p) with
      | .ok t => t
      | .error _ => (stopPlan s p 4 planTrans 0 0 0).1
    else s

/-- A missing W is PERM, as R271 numbers it. -/
def permCause (c : Nat) : Nat := if c = causeNoW then causePerm else c

/-- Report the races of a local source read for a starting context that still runs (R303). -/
def readRaces (s : State) (p : Plan) (pc : Piece) (sa n : Nat) : State :=
  match planMember s p with
  | none => s
  | some (g, m) =>
    if pc.sdev = s.devId then
      match xlatRange s p.desc sa n false with
      | .error _ => s
      | .ok rs => engineFarRaces s g m sa rs false 4
    else s

/-- The packet that reads a step's source on another device (R426): its flits carry no data words. -/
def planRead (p : Plan) (pc : Piece) (sa n seq : Nat) : RemOp where
  seq := seq
  dev := pc.sdev
  port := 31
  gang := 0
  member := 0
  tenant := p.tenant
  kind := .read (BitVec.ofNat 14 n)
  addr := BitVec.ofNat 64 (pc.sdev * 2 ^ 48 + sa)
  words := []
  nrep := (n + 7) / 8
  flits := 1
  obw := 0
  sent := false
  lc := 0
  lost := false
  ans := none
  cl := 0
  co := 0
  sl := 0
  plan := some p.identity

/-- Send the read of a step's source to its device, which refuses an address no remote access can name (R395; DEDUCED, log
entry 111). -/
def askRemote (s : State) (p : Plan) (pc : Piece) (sa n : Nat) : State :=
  if 2 ^ 47 < sa + n then putPlan s { p with asked := true, got := some .refused }
  else
    let seq := mapGet 0 s.seqNo pc.sdev
    let s := putPlan s { p with asked := true }
    placePackets { s with seqNo := mapSet 0 s.seqNo pc.sdev (seq + 1), remote := s.remote ++ [planRead p pc sa n seq] }

/-- The source and write parts of a step, whose source comes to `out` (R426). -/
def endStep (s : State) (p : Plan) (pc : Piece) (sa da n : Nat) (out : StepOut) : State :=
  match stepBytes s p pc sa n out with
  | .error (c, fc, a, d) => (stopPlan (if c = planMemErr then retireAt s p sa else s) p 2 c fc a d).1
  | .ok bs =>
    match planWrite (readRaces s p pc sa n) p da bs with
    | .ok s => stepDone s p pc n
    | .error c =>
      if c = causeUncorr then (stopPlan (retireAt s p da) p 2 planMemErr 0 da 0).1
      else (stopPlan s p 2 planDest (permCause c) da 0).1

/-- The destination of a step. -/
def stepDst (pc : Piece) (p : Plan) : Nat := (rowDst pc p.crow + p.coff) % 2 ^ 64

/-- One step of a plan (R426). A read of another device is sent first, and the step goes on once it has been resolved. -/
def runStep (s : State) (p : Plan) (out : StepOut) : State :=
  match p.pieces[p.cpiece]? with
  | none => finishPlan s p
  | some pc =>
    let sa := (rowSrc pc p.crow + p.coff) % 2 ^ 64
    let da := stepDst pc p
    let n := stepLen pc p.crow p.coff
    match xlatRange s p.desc da n true with
    | .error c => (stopPlan s p 2 planDest (permCause c) da 0).1
    | .ok _ =>
      if pc.sdev = s.devId then endStep s p pc sa da n out
      else
        match p.got with
        | some got => endStep s { p with asked := false, got := none } pc sa da n got
        | none => if p.asked then s else askRemote s p pc sa n

/-- PLAN_STEP (R426): a step of the i-th RUNNING plan; one whose task was killed stops instead, once its step in progress is
done (R436). -/
def execPlanStep (i : Fin 256) (out : StepOut) (s : State) : Host.Outcome State Fault Refusal :=
  .next (match s.plans[i.val]? with
    | none => s
    | some p =>
      if p.kill && !p.asked then
        (stopPlan s p 2 planKilled 0 (match p.pieces[p.cpiece]? with
          | none => 0
          | some pc => stepDst pc p) 0).1
      else runStep s p out)

/-- The status word of a resumed member, read from the header of the plan it references (R436). -/
def planStatus (s : State) (desc area : Nat) : Nat × Nat × Nat :=
  match cleanRead s desc area 256 with
  | .error _ => (5, planTrans, 0)
  | .ok h =>
    let st := fieldLe h 6 1
    ((if st = 0 then 0 else st + 1), fieldLe h 7 1, fieldLe h 88 8)

end Sys2Proof.Machine
end

