-- ==== Sys2Proof/Machine/Launch.lean ====
section
/-! DEFINITION. Launch: serving the ready list, dispatching and resuming tasks, and their completion (R103, R135, R179,
R301, R321, R326, R375 to R378, R381). -/

namespace Sys2Proof.Machine

/-! ### The order of the ready list (R377) -/

/-- May Sienna consider the entry: its queue has not fenced under an undispatched launch (R363), its tenant is not fenced
(R459), and a task that Sienna itself resumes still has its descriptor (R267)? -/
def entryOpen (s : State) (r : Ready) : Bool :=
  (r.launch.test || r.again || (match getQueue s r.queue with
    | none => false
    | some x => decide (x.state ≠ .fenced))) &&
  (r.launch.test || !s.confFence.contains (descTenant s r.launch.xdesc)) &&
  (!r.again || (descOk s r.launch.xdesc && canResume s r.launch.image)) &&
  (!r.launch.resume || !remoteWaits s r.launch.image)

/-- Entries of one level and queue, in their order. -/
def entriesOf (s : State) (prio q : Nat) : List Ready :=
  s.ready.filter fun r => r.launch.prio = prio && r.queue = q && entryOpen s r

/-- Queues of a level, in increasing number from the one after the last served. -/
def levelQueues (s : State) (prio : Nat) : List Nat :=
  let last := mapGet 4095 s.served prio
  let qs := (s.ready.filter fun r => r.launch.prio = prio).map fun r => r.queue
  ((List.range 4096).map fun k => (last + 1 + k) % 4096).filter fun q => qs.contains q

/-- Entries of one level: round-robin over its queues, one at a time. -/
def levelOrder (s : State) (prio : Nat) : List Ready :=
  let per := (levelQueues s prio).map fun q => entriesOf s prio q
  (List.range s.ready.length).flatMap fun i => per.filterMap fun l => l[i]?

/-- The ready list in the order it is served (DEDUCED, log entry 38). -/
def readyOrder (s : State) : List Ready := (List.range 4).flatMap fun prio => levelOrder s prio

/-! ### Pre-empting for priority (R316, R377) -/

/-- Gangs that a launch outranks and Sienna may pre-empt for it, latest dispatched first. -/
def outranked (s : State) (l : Launch) : List Gang :=
  let gs := s.gangs.filter fun g => decide (l.prio < g.prio) && g.launch.savep.isSome && g.killed.isNone && g.kill.isNone &&
    (decide (l.cluster = 255) || decide (l.cluster = g.cluster))
  gs.foldl (fun acc g => (acc.filter fun h => decide (g.id < h.id)) ++ g :: acc.filter fun h => decide (h.id ≤ g.id)) []

/-- The gangs to pre-empt until the launch fits; none where it would not (DEDUCED, log entry 92). -/
def victims (s : State) (l : Launch) : List Gang → List Gang → List Gang
  | _, [] => []
  | out, g :: r =>
    let out := out ++ [g]
    if (placeAmong s (s.gangs.filter fun h => !out.any fun o => o.id = h.id) l).isSome then out else victims s l out r

/-- Pre-empt for the first entry that does not fit. -/
def preemptFor (s : State) (rs : List Ready) : State :=
  match rs.find? fun r => (placeNow s r.launch).isNone with
  | none => s
  | some r => (victims s r.launch [] (outranked s r.launch)).foldl (fun s g => requestPreempt s g.id 1 none false) s

/-! ### Dispatch (R103, R135, R179, R375, R381) -/

/-- Take the number of the next dispatch (R375). -/
def nextIdentity (s : State) : Nat × State :=
  let n := s.dispatchNo + 1
  (s.boot.toNat * 2 ^ 32 + n % 2 ^ 32, { s with dispatchNo := n })

/-- Give a member its task segments of a core, and count the slot's dispatch (R301, R381): the segments, lowest first. -/
def takeSegs (s : State) (cl co sl gid m need : Nat) : State × List Nat :=
  let k := getCore s cl co
  let segs := (freeSegList k).take need
  (setCore s cl co { k with
    segOwner := segs.foldl (fun v i => vset v i (some (gid, m))) k.segOwner
    epoch := vmod k.epoch sl fun e => e + 1 }, segs)

/-- Write out the register blocks of saved images that stand in a context slot (R321). -/
def clearSlot (s : State) (cl co sl gid : Nat) : State :=
  (List.range 9).foldl (fun s b => match slotOwner s cl co sl b with
    | none => s
    | some o => writeOut s o.ibase (if b = 0 then 2 else 3) o.member (b - 1) true gid) s

/-- Write out the scratchpad blocks of saved images in an allocation (R178, R321). -/
def clearAlloc (s : State) (cl : Nat) (t : TaskRec) (gid : Nat) : State :=
  (List.range (t.spadSize / 4096)).foldl (fun s b => match spadOwner s cl (t.spadBase / 4096 + b) with
    | none => s
    | some o => writeOut s o.1 5 0 o.2 true gid) s

/-- Clear the shadow entries of an allocation (R301). -/
def clearAllocShadow (s : State) (cl : Nat) (t : TaskRec) : State :=
  if t.spadSize = 0 then s
  else
    let c := getCluster s cl
    setCluster s cl { c with shadow := c.shadow.filter fun e => !rangesMeet t.spadBase t.spadSize (e.1 * 64) 64 }

/-- Give an allocation its bytes (R179) and clear its shadow entries (R301). -/
def fillAlloc (s : State) (cl : Nat) (t : TaskRec) (bs : List Byte) : State :=
  if t.spadSize = 0 then s
  else
    let c := getCluster s cl
    let keep := fun b => (spadOwner s cl (t.spadBase / 4096 + b)).isSome
    let spad := (List.range (t.spadSize / 4096)).foldl (fun m b =>
      if keep b then m else mapFill memBlank m (t.spadBase + 4096 * b) (sliceBytes bs (4096 * b) 4096)) c.spad
    clearAllocShadow (setCluster s cl { c with spad := spad }) cl t

/-- A member as dispatch starts it (R35, R103, R135): a register block still owned by an image is absent. -/
def freshMember (s : State) (cl sl : Nat) (t : TaskRec) (m co : Nat) (segs : List (Nat × Nat × Bool)) : Ctx :=
  { core := co
    pc := t.entries.getD m 0
    olbase := t.olBase / 8
    olcap := t.olCap
    presS := (slotOwner s cl co sl 0).isNone
    presV := Vector.ofFn fun j => (slotOwner s cl co sl (1 + j.val)).isNone
    segs := segs }

/-- The first gang of a launch, without its members. -/
def gangOf (s : State) (l : Launch) (p : Place) (t : TaskRec) (id : Nat) : Gang :=
  { id := id
    cluster := p.cluster
    slot := p.slot
    prio := l.prio
    members := []
    last := (getCluster s p.cluster).wall
    task := t
    launch := l
    svc := l.svc
    tenant := if l.test then 0 else descTenant s l.xdesc
    conf := !l.test && descConf s l.xdesc
    budget := min t.budget s.kbudget
    kbudget := s.kbudget }

/-- Prepare member `m` of a fresh gang: its slot, its segments, its entry's segment copied, and the member itself. -/
def startFresh (l : Launch) (p : Place) (t : TaskRec) (sg : State × Gang) (e : Nat × Nat) : State × Gang :=
  let m := e.1
  let co := e.2
  let s := clearSlot sg.1 p.cluster co p.slot sg.2.id
  let r := takeSegs s p.cluster co p.slot sg.2.id m (segNeed t l.iseg)
  let seg := t.entries.getD m 0 / segBytes
  let first := r.2.take 1
  let mem := freshMember r.1 p.cluster p.slot t m co (first.map fun i => (seg, i, true))
  let g := { sg.2 with members := sg.2.members ++ [mem] }
  (first.foldl (fun s i => copySegment s g co seg i) r.1, g)

/-- The launch of a queue's packet has been dispatched: the queue goes on, and the identity is its own (R376). -/
def launched (s : State) (r : Ready) (id : Nat) : State :=
  let s := { s with
    ready := s.ready.erase r
    dispatched := if r.launch.test then s.dispatched else mapSet 0 s.dispatched id (r.queue + 1)
    served := if r.launch.test then s.served else mapSet 4095 s.served r.launch.prio r.queue }
  if r.again || r.launch.test then s else unblockQueue s r.queue

/-- Dispatch a launch of a loaded image. -/
def dispatchFresh (s : State) (r : Ready) (p : Place) (i : Image) : State :=
  let (id, s) := nextIdentity s
  let t := i.task
  let s := clearAlloc s p.cluster t id
  let s := fillAlloc s p.cluster t i.spad
  let (now, s) := stamp s
  let g := { gangOf s r.launch p t id with image := i.id, time := now }
  let absent := (List.range (t.spadSize / 4096)).filter fun b => (spadOwner s p.cluster (t.spadBase / 4096 + b)).isSome
  let sg := ((List.range p.cores.length).zip p.cores).foldl (startFresh r.launch p t) (s, { g with absent := absent })
  launched { sg.1 with gangs := sg.1.gangs ++ [sg.2] } r id

/-! ### Resumption (R237, R280, R315, R318, R326) -/

/-- Bytes of a group of an image: on this device, or as another device answers. -/
def groupBytes (s : State) (ib kind m n : Nat) (far : List Byte) : Option (List Byte) :=
  let dev := hdrNat s ib (locOff kind m) 2 % 32768
  if dev = s.devId then
    match locRead s (locDesc s ib) (hdrNat s ib (locOff kind m + 8) 8) n with
    | .ok bs => some bs
    | .error _ => none
  else some far

/-- The scalar block of a member's saved copy, where it has one. -/
def savedScalar (s : State) (ib m : Nat) (far : List Byte) : Option (List Byte) :=
  if !mapBit s ib false 2 m 0 then none
  else
    match residentData s ib 2 m 0 with
    | some d => some d.1
    | none => groupBytes s ib 2 m 512 far

/-- The queue counts a scalar block holds: LAQ, LDQ, VLDQ, SAQ, SDQ, VSDQ (R137). -/
def queueCount (bs : List Byte) (i : Nat) : Nat :=
  let w := fieldLe bs 504 8
  match i with
  | 0 => bitsOf w 25 20
  | 1 => bitsOf w 19 15
  | 2 => bitsOf w 14 10
  | 3 => bitsOf w 9 5
  | 4 => bitsOf w 4 0
  | _ => fieldLe bs 431 1

/-- The ring registers of a member, as its scalar block holds them (R35, R137). -/
def restoreRing (bs : List Byte) (c : Ctx) : Ctx :=
  let w := fieldLe bs 504 8
  { c with olfull := bitAt w 63, olbase := bitsOf w 62 43, olcap := bitsOf w 42 26,
           oltake := BitVec.ofNat 32 (fieldLe bs 500 4), olput := BitVec.ofNat 32 (fieldLe bs 496 4) }

/-- The held writes of a member; none where their group cannot be read. -/
def savedHeld (s : State) (ib m lc : Nat) (far : List Byte) : Option (List Held) :=
  if fieldLe (memReads s.mem (ib + locOff 6 m) 16) 2 1 = 0 then some []
  else (groupBytes s ib 6 m 393216 far).map fun bs => readHeld lc (fieldLe bs 0 4) (bs.drop 16)

/-- What this device keeps beside an image whose bytes are those of its task. -/
def keptFor (s : State) (ib : Nat) : Option Kept :=
  (mapGet none s.kept ib).filter fun k => decide (k.task = hdrNat s ib 8 8) && decide (imgOrigin s ib = s.devId)

/-- The context a control record and what belongs beside it make: as this device keeps it, else the ring registers and queue
counts as the scalar block holds them, free values where the image has no copy of it, and whether the member halted as a free
value (R35, R143, R309; DESIGN CHOICE, log entry 11). -/
def recordCtx (s : State) (ib m co : Nat) (bs scalar : List Byte) : Ctx :=
  let lc := hdrNat s ib 40 8
  let cmap := hdrNat s ib (80 + 4 * m) 4
  match (keptFor s ib).bind fun k => k.members[m]? with
  | some k => withKept k (readControl co bs lc cmap fun i => k.counts.getD i 0)
  | none =>
    let sc := (savedScalar s ib m scalar).getD ((List.range 512).map fun i => Config.lostByte lc (512 * (m + 1) + i))
    { restoreRing sc (readControl co bs lc cmap fun i => min 16 (queueCount sc i)) with
      halted := (Config.lostByte lc (32 + m)).getLsbD 0 }

/-- A member as its image holds it; none where its control record or its held writes cannot be read. -/
def savedMember (s : State) (ib m co : Nat) (far : FarMember) : Option Ctx :=
  match groupBytes s ib 1 m 32768 far.control, savedHeld s ib m (hdrNat s ib 40 8) far.held with
  | some bs, some hs =>
    let c := recordCtx s ib m co bs far.scalar
    some { c with held := hs, pktRings := if c.kuip.getLsbD 4 then ringsOf s (hdrNat s ib 8 8) m else [] }
  | _, _ => none

/-- Every member of an image, or none. -/
def savedMembers (s : State) (ib : Nat) (far : List FarMember) : List (Nat × Nat) → Option (List Ctx)
  | [] => some []
  | e :: r =>
    match savedMember s ib e.1 e.2 (far.getD e.1 ⟨[], [], []⟩), savedMembers s ib far r with
    | some c, some cs => some (c :: cs)
    | _, _ => none

/-- A pinned lake comes back on the device that holds its watch entry: its place in the count moves to the new core, and
writes made meanwhile have made it stale (R237). -/
def restoreHome (s : State) (g : Gang) (m l : Nat) (x : LakeSt) (w : Watch) : State × LakeSt :=
  let w' := { w with ibase := none, gang := g.id, member := m, lake := l, core := gangCore g m }
  ({ s with watch := mapSet none s.watch x.watch (some w') }, { x with stale := x.stale || w.stale })

/-- The watch entry that a saved lake left on this device, while it is still the lake's: a reset empties the table, and another
lake may have taken the entry since. -/
def keptWatch (s : State) (g : Gang) (m l : Nat) (x : LakeSt) : Option Watch :=
  if x.wdev ≠ s.devId then none
  else (mapGet none s.watch x.watch).filter fun w => w.ibase = g.fromImage && w.ibase.isSome && w.member = m && w.lake = l

/-- A pinned lake comes back on another device: stale, with a new watch entry, or unpinned (R237). -/
def restoreAway (s : State) (g : Gang) (m l : Nat) (x : LakeSt) : State × LakeSt :=
  match freeWatch s, xlatRange s g.launch.xdesc x.src (lakeLen x.fmt x.sparse) false with
  | some i, .ok rs =>
    let w : Watch := ⟨rs, (x.src, lakeLen x.fmt x.sparse), g.tenant, gangCore g m, g.id, m, l, none, true⟩
    ({ s with watch := mapSet none s.watch i (some w) },
     { x with stale := true, watch := i, wdev := s.devId })
  | _, _ => (s, { x with stale := true, pinned := false })

/-- Operations of a member that still run on this device with the weights of lake `l` (R231). -/
def lakeOps (s : State) (gid m l : Nat) : Nat :=
  (s.cores.map fun e => (e.2.engine.filter fun o => o.gang = gid && o.member = m && o.lake = l).length).foldl (· + ·) 0

/-- Restore lake `l` of a member. -/
def restoreLake (m : Nat) (sg : State × Gang) (l : Nat) : State × Gang :=
  let x := { vget {} (getCtx sg.2 m).lakes l with inuse := lakeOps sg.1 sg.2.id m l }
  let sg := (sg.1, modCtx sg.2 m fun c => { c with lakes := vset c.lakes l x })
  if x.bound && x.pinned then
    let r := match keptWatch sg.1 sg.2 m l x with
      | some w => restoreHome sg.1 sg.2 m l x w
      | none => restoreAway sg.1 sg.2 m l x
    (r.1, modCtx sg.2 m fun c => { c with lakes := vset c.lakes l r.2 })
  else sg

/-- RUNNING channels of a member take their places in the core's order again (R251, R253). -/
def requeueChans (s : State) (g : Gang) (m : Nat) : State :=
  let c := getCtx g m
  (List.range 4).foldl (fun s ch =>
    if (vget {} c.chans ch).state = .running then setCore s g.cluster c.core (queueChan (getCore s g.cluster c.core) ch g.id m)
    else s) s

/-- The RS status of a resumed member (R436). -/
def restoreRs (g : Gang) (s : State) (m : Nat) : State :=
  let c := getCtx g m
  if c.rsArea = 0 then s
  else
    let r := planStatus s g.launch.xdesc c.rsArea
    setRsStat s ⟨g.id, m, g.lc - 1, r.1, r.2.1, r.2.2, false⟩

/-- A core whose engine goes on for the identity a task has now. -/
def renameOps (old new : Nat) (k : Core) : Core :=
  { k with
    engine := k.engine.map fun o => if o.gang = old then { o with gang := new } else o
    arr := k.arr.map fun a => a.map fun x => if x.gang = old then { x with gang := new } else x }

/-- What this device still does for the identity a resumed task had goes on for its new one: array operations, remote
operations, invalidations, edges, steering rules and plans (DEDUCED, log entry 41). -/
def renameTask (s : State) (old new : Nat) : State :=
  { s with
    cores := s.cores.map fun e => (e.1, renameOps old new e.2)
    ownedTiles := s.ownedTiles.map fun o => if o.gang = old then { o with gang := new } else o
    invals := s.invals.map fun i => if i.gang = old then { i with gang := new } else i
    remote := s.remote.map fun o => if o.gang = old then { o with gang := new } else o
    edges := s.edges.map fun e => if e.gang = old then { e with gang := new } else e
    steers := s.steers.map fun r => if r.task = old then { r with task := new } else r
    starts := s.starts.map fun x => if x.gang = old then { x with gang := new } else x
    plans := s.plans.map fun p => match p.starter with
      | some (g, m) => if g = old then { p with starter := some (new, m) } else p
      | none => p }

/-- The loaded image of a saved task: the one it ran when it was saved, else the first whose task record the
header holds (DEDUCED, log entry 39). -/
def imageOfRecord (s : State) (ib : Nat) : Nat :=
  let same := s.images.filter fun i => i.task.bytes = memReads s.mem (ib + 1024) 256
  match same.find? fun i => i.id = mapGet 0 s.saved ib with
  | some i => i.id
  | none =>
    match same with
    | i :: _ => i.id
    | [] => 0

/-- Give member `m` of a resumed gang its segments. -/
def resumeSegs (l : Launch) (t : TaskRec) (g : Gang) (s : State) (m : Nat) : State :=
  let c := getCtx g m
  if c.halted then s else (takeSegs s g.cluster c.core g.slot g.id m (segNeed t l.iseg)).1

/-- Restore what members hold outside their records. -/
def resumeMember (sg : State × Gang) (m : Nat) : State × Gang :=
  let r := (List.range 16).foldl (restoreLake m) sg
  (requeueChans r.1 r.2 m, r.2)

/-- The touch regions of a gang, each to be walked again (R280). -/
def touchWalks (g : Gang) : List (Nat × Nat) :=
  (List.range g.members.length).flatMap fun m =>
    (List.range 8).filterMap fun e => if (vget none (getCtx g m).touches e).isSome then some (m, e) else none

/-- Tell the device an image was taken on that it has been resumed here (R237): one packet of the fabric engine. -/
def tellOrigin (s : State) (ib old tenant : Nat) : State :=
  let dev := imgOrigin s ib
  if dev = s.devId then s
  else
    let seq := mapGet 0 s.seqNo dev
    let o : RemOp :=
      { seq := seq, dev := dev, port := 31, gang := 0, member := 0, tenant := tenant, kind := .origin true,
        addr := BitVec.ofNat 64 old, words := [], nrep := 0, flits := 1, obw := 0, sent := false, lc := 0, lost := false,
        ans := none, cl := 0, co := 0, sl := 0 }
    placePackets { s with seqNo := mapSet 0 s.seqNo dev (seq + 1), remote := s.remote ++ [o] }

/-- Service calls that may wait behind the handler of a gang resumed on a device that did not save it: which members have
performed tr.trap, and its argument, no byte of the image holds (DESIGN CHOICE, log entry 11). -/
def lostCalls (g : Gang) : List (Nat × Word × Nat) :=
  if (handlerOf g).isNone then []
  else (List.range g.members.length).filterMap fun m =>
    let c := getCtx g m
    if c.mode = 0 && !c.halted && (Config.lostByte g.lc (40 + m)).getLsbD 0 then
      some (m, BitVec.ofNat 64 ((Config.lostByte g.lc (48 + m)).toNat + 256 * (Config.lostByte g.lc (56 + m)).toNat), c.pc)
    else none

/-- The gang an image is resumed as, without its lakes: the budget and the limit of its launch are fixed for its life
(R123). Where this device keeps nothing of that launch, they are taken anew from BUDGET and this device's limit (DESIGN CHOICE,
log entry 126). -/
def resumedGang (s : State) (r : Ready) (p : Place) (t : TaskRec) (ms : List Ctx) (id : Nat) (now : Nat × Nat) : Gang :=
  let ib := r.launch.image
  let g := { gangOf s r.launch p t id with
    members := ms, lc := hdrNat s ib 40 8, image := imageOfRecord s ib, time := r.launch.time.getD now, fromImage := some ib,
    absent := List.range (t.spadSize / 4096) }
  let g := match keptFor s ib with
    | none => { g with phaseBad := (Config.lostByte g.lc 3).getLsbD 0, calls := lostCalls g }
    | some k => { g with budget := k.budget, kbudget := k.kbudget, phaseBad := k.phaseBad, calls := k.calls }
  { g with walks := touchWalks g }

/-- Resume an image whose members have been read (DEDUCED, log entry 40). -/
def dispatchSaved (s : State) (r : Ready) (p : Place) (t : TaskRec) (ms : List Ctx) : State :=
  let ib := r.launch.image
  let old := hdrNat s ib 8 8
  let (id, s) := nextIdentity s
  let (now, s) := stamp s
  let g := resumedGang s r p t ms id now
  let s := (List.range ms.length).foldl (resumeSegs r.launch t g) (clearAllocShadow (renameTask s old id) p.cluster t)
  let sg := (List.range ms.length).foldl resumeMember (s, g)
  let s := tellOrigin (setImageState sg.1 ib 3) ib old g.tenant
  let s := { s with gangs := s.gangs ++ [sg.2], kept := mapSet none s.kept ib (some (keptOf sg.2)) }
  launched ((List.range ms.length).foldl (restoreRs sg.2) s) r id

/-! ### One dispatch (R267, R368, R377) -/

/-- A launch fails at its dispatch: it leaves the ready list, and its packet's queue fences, or goes where it was to be
destroyed. -/
def refuseLaunch (s : State) (r : Ready) (cause : Nat) : State :=
  let s := { s with ready := s.ready.erase r }
  if r.again || r.launch.test then s else fenceQueue s r.queue cause

/-- Dispatch an entry at a place, after the checks of R267 and R326. -/
def dispatchAt (s : State) (r : Ready) (p : Place) (far : List FarMember) : State :=
  let l := r.launch
  if !l.test && !descOk s l.xdesc then refuseLaunch s r causeField
  else if !l.test && decide (descTenant s l.xdesc = 0) then refuseLaunch s r causePriv
  else if l.resume then
    let t := decodeTask (memReads s.mem (l.image + 1024) 256)
    if !canResume s l.image then refuseLaunch (spoilImage s l.image) r causeImage
    else
      match savedMembers s l.image far ((List.range p.cores.length).zip p.cores) with
      | none => refuseLaunch (setImageState s l.image 2) r causeImage
      | some ms => dispatchSaved s r p t ms
  else
    match findImage s l.image with
    | none => refuseLaunch s r causeImage
    | some i => dispatchFresh s r p i

/-- Serve the ready list once: pre-empt for the first entry that does not fit, and dispatch the first that does; a launch
whose image is gone fences, and so does one that waits for a cluster that has become FAILED (R441). -/
def serveReady (s : State) (far : List FarMember) : State :=
  let rs := readyOrder s
  match rs.find? fun r => (launchTask s r.launch).isNone || (!r.again && !r.launch.test && failedCluster s r.launch.cluster) with
  | some r => refuseLaunch s r (if (launchTask s r.launch).isNone then causeImage else causePlace)
  | none =>
    let s := preemptFor s rs
    match rs.findSome? fun r => (placeNow s r.launch).map fun p => (r, p) with
    | none => s
    | some (r, p) => dispatchAt s r p far

/-- TASK_DISPATCH (R376, R377). -/
def execTaskDispatch (far : List FarMember) (s : State) : Host.Outcome State Fault Refusal :=
  .next (if s.powered && s.quiesce.isNone && decide (s.stage ≠ .root) then serveReady s far else s)

/-! ### Completion (R378) -/

/-- Does a core's engine still work for the gang? -/
def engineBusy (s : State) (g : Gang) : Bool :=
  g.members.any fun c => (getCore s g.cluster c.core).engine.any fun o => o.gang = g.id

/-- Everything still due from a gang whose members halted, or that was killed, has landed. -/
def nothingDue (s : State) (g : Gang) : Bool :=
  !engineBusy s g &&
  (g.members.all fun c =>
    c.results.isEmpty && c.held.isEmpty && c.reads.isEmpty && c.pend.isEmpty && c.farq.isEmpty) &&
  (g.killed.isSome || !s.remote.any fun o => o.gang = g.id && !o.lost && o.kind != .abort)

/-- Is the gang at its end: killed, or every member halted? -/
def gangEnded (g : Gang) : Bool := g.killed.isSome || g.members.all fun c => c.halted

/-- Complete the task of a gang at its end: what a resumed task left absent is discarded (R329), its slots, segments and
allocation are free, its phase counts are added, and its launch completes. -/
def completeGang (s : State) (g : Gang) : State :=
  let s := match g.fromImage with
    | none => s
    | some ib => { discardOwned s ib with kept := mapSet none s.kept ib none }
  let pg := if g.killed.isSome then (s, g) else phaseAddAll s g
  let s := removeGang pg.1 pg.2
  let s := { s with
    remote := s.remote.filter fun o => !(o.gang = g.id && o.lost)
    edges := s.edges.filter fun e => e.gang ≠ g.id
    tickets := s.tickets.filter fun t => t.gang ≠ g.id || g.fromImage.isNone }
  if g.launch.test then
    setCluster s g.cluster { getCluster s g.cluster with run := some (if g.killed.isSome then 1 else 0) }
  else
    completeLaunch s g.launch g.id g.time (if g.killed.isSome then 1 else 0) (g.killed.getD 0)

/-- TASK_COMPLETION (R378): nothing until everything still due has landed. -/
def execTaskCompletion (task : Word) (s : State) : Host.Outcome State Fault Refusal :=
  .next (match findGang s task.toNat with
    | none => s
    | some g => if gangEnded g && nothingDue s g then completeGang s g else s)

end Sys2Proof.Machine
end

