-- ==== Sys2Proof/Machine/Quiesce.lean ====
section
/-! DEFINITION. Quiesce: QUIESCE and the save area (R384, R385), the reception of Deceo messages (R355, R358), and the
executive cycle of a Sienna core (R364). -/

namespace Sys2Proof.Machine

/-! ### The save area (R385) -/

/-- A task record: a saved task that waits to be resumed. -/
def taskRecord (r : Ready) : List Byte :=
  let l := r.launch
  let t := l.time.getD (0, 0)
  leBytes 8 l.image ++ leBytes 2 r.queue ++ leBytes 1 l.prio ++ zeros 5 ++ leBytes 8 l.cw ++ leBytes 8 l.crec ++
    leBytes 8 l.phaseArea ++ leBytes 8 l.savepAddr ++ leBytes 6 t.1 ++ zeros 2 ++ leBytes 4 t.2 ++ zeros 4

/-- A watch record. -/
def watchRecord (w : WaitSt) : List Byte :=
  leBytes 2 w.queue ++ zeros 6 ++ leBytes 8 w.word ++ leBytes 8 (wrapNat 64 w.thresh) ++ leBytes 1 w.notify ++ zeros 7 ++
    leBytes 8 w.task ++ leBytes 1 w.member ++ zeros 3 ++ leBytes 4 w.tag ++ zeros 16

/-- The queues that exist, in increasing number. -/
def liveQueues (s : State) : List (Nat × Queue) := s.queues.filterMap fun e => e.2.map fun x => (e.1, x)

/-- The saved tasks, in the order of the ready list. -/
def savedTasks (s : State) : List Ready := s.ready.filter fun r => r.again

/-- The header of a save area. -/
def areaHeader (s : State) : List Byte :=
  [0x51, 0x53, 0x56, 0x31] ++ leBytes 2 1 ++ leBytes 2 (liveQueues s).length ++ leBytes 4 (savedTasks s).length ++
    leBytes 4 s.boot.toNat ++ leBytes 4 s.watches.length ++ zeros 44

/-- The whole save area. -/
def areaBytes (s : State) : List Byte :=
  areaHeader s ++ ((liveQueues s).flatMap fun e => queueRecord e.1 e.2) ++ ((savedTasks s).flatMap taskRecord) ++
    s.watches.flatMap watchRecord

/-! ### The steps of R384 -/

/-- The task counts for QUIESCE: it runs, and is no test run. -/
def quiesceTask (g : Gang) : Bool := g.killed.isNone && !g.launch.test

/-- Pre-empt a gang with FLUSH set; what WHY the spec gives no number (DESIGN CHOICE, log entry 16). -/
def flushGang (s : State) (g : Gang) : State :=
  match g.preempt with
  | some r => putGang s { g with preempt := some { r with pool := r.pool.map fun p => { p with flush := true } } }
  | none =>
    let (why, s) := takeFree s
    requestPreempt s g.id (why.toNat % 256) (g.launch.savep.map fun p => { p with flush := true }) false

/-- Set FLUSH of a saved image, so that its blocks are written out. -/
def flushImage (s : State) (r : Ready) : State :=
  let ib := r.launch.image
  if bitAt (hdrNat s ib 32 1) 0 then s else hdrPut s ib 32 1 (hdrNat s ib 32 1 + 1)

/-- Steps 3 and 4: pre-empt what runs; once every task has ended or is saved with every block written, the area. -/
def flushAll (s : State) (z : Quiesce) : State :=
  let s := (s.gangs.filter quiesceTask).foldl flushGang s
  let s := (savedTasks s).foldl flushImage s
  if (s.gangs.any fun g => !g.launch.test) || (savedTasks s).any fun r => !allWritten s r.launch.image then s
  else
    match farWriteExt s z.desc z.area (areaBytes s) with
    | .error _ => finishCall { s with quiesce := none } 12 stTrans z.client z.seq []
    | .ok s =>
      let s := { s with quiesce := some { z with done := true }, ochre := { s.ochre with saveArea := some (z.area, z.desc) } }
      finishCall s 12 0 z.client z.seq (areaHeader s)

/-- A QUIESCE in progress goes on: it waits for tasks without a save pool, then saves the others. -/
def quiesceGo (s : State) : State :=
  match s.quiesce with
  | none => s
  | some z =>
    if z.done || (s.gangs.any fun g => quiesceTask g && g.launch.savep.isNone) then s else flushAll s z

/-- QUIESCE (R384): Sienna stops fetching at once. Its reply follows when the area is written (DEDUCED, log entry 61). -/
def execDcQuiesce (client : BitVec 32) (seq area : Word) (_us : BitVec 32) (s : State) : Host.Outcome State Fault Refusal :=
  .next (match findClient s client.toNat with
    | none => runCall s 12 client.toNat seq.toNat fun _ _ => .error stDenied
    | some c =>
      if c.super && s.powered && decide (s.stage = .service) && s.quiesce.all fun z => z.done then
        quiesceGo { s with quiesce := some ⟨c.id, seq.toNat, area.toNat, c.desc, false⟩ }
      else runCall s 12 client.toNat seq.toNat fun _ _ => .error stDenied)

/-- Kill a task that QUIESCE does not wait for any longer; the reason has no number in the spec (DESIGN CHOICE, log entry 16). -/
def quiesceKill (s : State) (g : Gang) : State :=
  let (why, s) := takeFree s
  killTask s g.id .kill (why.toNat % 128) 0 0 0

/-- QUIESCE_TIMEOUT: the tasks without a save pool that remain are killed. -/
def execQuiesceTimeout (s : State) : Host.Outcome State Fault Refusal :=
  .next (match s.quiesce with
    | none => s
    | some z =>
      if z.done then s
      else quiesceGo ((s.gangs.filter fun g => quiesceTask g && g.launch.savep.isNone).foldl quiesceKill s))

/-! ### Reception (R355, R356, R358) -/

/-- The call of an OP and its payload, or none where it is malformed. -/
def callOf (op : Nat) (client : BitVec 32) (seq : Word) (b : List Byte) : Option Instr :=
  let n := fieldLe b
  let w := wordField b
  let len := b.length
  let q : BitVec 16 := BitVec.ofNat 16 (n 0 2)
  match op with
  | 0x01 => if len = 0 then some (.dcHello client seq) else none
  | 0x02 => if len = 12 then some (.dcGet client seq (w 0) (BitVec.ofNat 32 (n 8 4))) else none
  | 0x03 => if 8 ≤ len then some (.dcPut client seq (w 0) (b.drop 8)) else none
  | 0x04 => if len = 16 then some (.dcKick client seq q (w 8)) else none
  | 0x05 => if len = 16 then
      some (.dcQcreate client seq q (BitVec.ofNat 8 (n 2 1)) (BitVec.ofNat 8 (n 3 1)) (BitVec.ofNat 32 (n 4 4)) (w 8)) else none
  | 0x06 => if len = 2 then some (.dcQdestroy client seq q) else none
  | 0x07 => if len = 2 then some (.dcQreset client seq q) else none
  | 0x08 => if len = 2 then some (.dcQstatus client seq q) else none
  | 0x09 => if len = 17 then some (.dcWindow client seq (w 0) (w 8) (BitVec.ofNat 8 (n 16 1))) else none
  | 0x0A => if len = 16 then some (.dcLoad client seq (w 0) (w 8)) else none
  | 0x0B => if len = 4 then some (.dcUnload client seq (BitVec.ofNat 32 (n 0 4))) else none
  | 0x0C => if len = 12 then some (.dcQuiesce client seq (w 0) (BitVec.ofNat 32 (n 8 4))) else none
  | _ => none

/-- Perform a call. -/
def takeDeceoCall (i : Instr) (s : State) : Host.Outcome State Fault Refusal :=
  match i with
  | .dcHello c q => execDcHello c q s
  | .dcGet c q a n => execDcGet c q a n s
  | .dcPut c q a b => execDcPut c q a b s
  | .dcKick c q n t => execDcKick c q n t s
  | .dcQcreate c q n p u k r => execDcQcreate c q n p u k r s
  | .dcQdestroy c q n => execDcQdestroy c q n s
  | .dcQreset c q n => execDcQreset c q n s
  | .dcQstatus c q n => execDcQstatus c q n s
  | .dcWindow c q a l d => execDcWindow c q a l d s
  | .dcLoad c q a l => execDcLoad c q a l s
  | .dcUnload c q i => execDcUnload c q i s
  | .dcQuiesce c q a u => execDcQuiesce c q a u s
  | _ => .next s

/-- A message Deceo accepts: MAGIC, VERSION, KIND 1 and the reserved field (R355). -/
def deceoHeaderOk (b : List Byte) : Bool :=
  decide (32 ≤ b.length) && decide (fieldLe b 0 2 = 0x4344) && decide (fieldLe b 2 1 = 1) && decide (fieldLe b 3 1 = 1) &&
  decide (fieldLe b 28 4 = 0)

/-- Handle a call as R358 lists it. -/
def handleCall (s : State) (op client boot seq : Nat) (payload : Option (List Byte)) : State :=
  if (findClient s client).isNone || (decide (s.stage = .test) && decide (op ≠ 1)) then sendReply s op stDenied client seq []
  else if op ≠ 1 ∧ boot ≠ s.boot.toNat then sendReply s op stUnknown client seq (leBytes 4 s.boot.toNat)
  else
    match s.journal.find? fun j => j.client = client && j.seq = seq with
    | some j => sendOut s (.deceo client j.reply)
    | none =>
      if s.quiesce.any fun z => !z.done && z.client = client && z.seq = seq then s
      else if seq < mapGet 0 s.lastSeq client then sendReply s op stStale client seq []
      else
        match payload.bind fun b => callOf op (BitVec.ofNat 32 client) (BitVec.ofNat 64 seq) b with
        | none => runCall s op client seq fun _ _ => .error stBad
        | some i =>
          match takeDeceoCall i s with
          | .next t => t
          | .fault _ => s
          | .refused _ => s

/-- Is a reserved field of a call's payload not 0 (R355, R356)? KICK alone has one. -/
def reservedSet (op : Nat) (payload : List Byte) : Bool :=
  decide (op = 4) && decide (payload.length = 16) && decide (fieldLe payload 2 6 ≠ 0)

/-- DECEO_MESSAGE_RECEIVED (R355, R358): no host port works in stage 1 (R437). -/
def execDeceoMessageReceived (bs : List Byte) (s : State) : Host.Outcome State Fault Refusal :=
  .next (if !s.powered || decide (s.stage = .root) || !deceoHeaderOk bs || reservedSet (fieldLe bs 4 2) (bs.drop 32) then s
    else
      let body := bs.drop 32
      handleCall s (fieldLe bs 4 2) (fieldLe bs 8 4) (fieldLe bs 12 4) (fieldLe bs 16 8)
        (if body.length = fieldLe bs 24 4 ∧ body.length ≤ 8192 then some body else none))

/-! ### The executive cycle (R364) -/

/-- SIENNA_EXECUTIVE_CYCLE (R364): every queue with a packet gets one turn of at most four packets; a QUIESCE in progress
goes on. -/
def execSiennaExecutiveCycle (i : Fin 8) (s : State) : Host.Outcome State Fault Refusal :=
  let qs := turnOrder s i.val
  .next (quiesceGo (match qs with
    | [] => s
    | q :: _ => qs.foldl (fun s q => queueTurn q 4 s) { s with firstTurn := mapSet 511 s.firstTurn i.val (q % 512) }))

end Sys2Proof.Machine
end

