-- ==== Sys2Proof/Machine/Bringup.lean ====
section
/-! DEFINITION. Bringup: resets (R444), the stages (R437 to R440), the test runs of clusters (R441 to R443, R449), the
register-file repair tables (R446), and restoring queues after a firmware update (R384, R385). -/

namespace Sys2Proof.Machine

/-! ### Firmware images (R454) -/

/-- The inactive slot. -/
def inactive (f : Fw) : FwSlot := if f.activeB then f.a else f.b

/-- The active slot. -/
def activeSlot (f : Fw) : FwSlot := if f.activeB then f.b else f.a

/-- SVN of an image. -/
def imageSvn (b : List Byte) : Nat := fieldLe b 8 4

/-- The check of an image (R454): of FW_ACTIVATE, and of stage 1 (R438). -/
def fwCheck (f : Fw) (och : Bool) (x : FwSlot) : Bool :=
  let b := x.bytes
  let n := fieldLe b 12 4
  x.valid && decide (1024 + n ≤ b.length) && decide (fieldLe b 0 4 = 0x3157464F) &&
  decide (fieldLe b 4 1 = if och then 2 else 1) && decide (fieldLe b 5 3 = 0) && decide (fieldLe b 212 812 = 0) &&
  ecdsaVerify Config.vendorKey (sha512 (sliceBytes b 0 80)) (sliceBytes b 80 132) &&
  decide (sha512 (sliceBytes b 1024 n) = sliceBytes b 16 64) && decide (f.minSvn ≤ imageSvn b)

/-- Does stage 1 accept a slot? The image a module comes with, of which the spec gives no bytes, verifies (DESIGN CHOICE, log
entry 131). -/
def slotVerifies (f : Fw) (x : FwSlot) : Bool := x.valid && (x.factory || fwCheck f false x)

/-! ### Stage 1 (R438, R445, R446) -/

/-- A cluster becomes FAILED (R442, R453). -/
def failCluster (s : State) (cl : Nat) : State :=
  logAppend (setCluster s cl { getCluster s cl with state := .failed, run := none }) 5 (logLoc cl 0) 0 0

/-- Entries of a core's repair table that a register of a file may take: 6 and 7 for vectors, 0 to 5 for the others. -/
def rfEntries (file : Nat) : List Nat := if file = 2 then [6, 7] else [0, 1, 2, 3, 4, 5]

/-- A register fails self test: it keeps the entry an earlier boot gave it, takes a free one, or its cluster is FAILED. -/
def repairReg (s : State) (r : RegFail) : State :=
  let key := coreKey r.cl.val r.co.val
  let t := mapGet [] s.ochre.rfRepair key
  if t.any fun x => x.1 = r.slot.val && x.2.1 = r.file.val && x.2.2.1 = r.num.val then s
  else
    match (rfEntries r.file.val).find? fun e => !t.any fun x => x.2.2.2 = e with
    | none => failCluster s r.cl.val
    | some e =>
      let x := (r.slot.val, r.file.val, r.num.val, e)
      { s with ochre := { s.ochre with rfRepair := mapSet [] s.ochre.rfRepair key (t ++ [x]) } }

/-- A spare row that fails self test is marked used, with ROW = 0x7FF. -/
def markSpare (s : State) (x : SpareFail) : State :=
  setRepair s x.cl.val ((repairTable s x.cl.val).set (8 * x.quad.val + x.spare.val) 0x87FF)

/-! ### Restoring queues (R384, R385) -/

/-- The save pool a resumed task had, where its record still can be read. -/
def poolAt (s : State) (desc va : Nat) : Option SavePool :=
  match readPool s desc va with
  | .ok p => p
  | .error _ => none

/-- The TAG, TASK and MEMBER of a queue's blocked WAIT, which its packet still holds. -/
def waitOperands (s : State) (x : Queue) : Nat × Nat × Nat :=
  match farRead s x.desc (packetAddr x) 64 with
  | .error _ => (0, 0, 0)
  | .ok b => (fieldLe b 4 4, fieldLe b 32 8, fieldLe b 40 8)

/-- A queue of a context record (R386): its fetch buffer is empty, and a launch not dispatched is executed again. -/
def restoredQueue (b : List Byte) (client tenant : Nat) : Queue :=
  let n := fieldLe b
  let lvl := fun i => (⟨n (48 + 16 * i) 8, n (56 + 16 * i) 4, n (60 + 16 * i) 4⟩ : Stream)
  let depth := n 47 1
  let st : List Stream := ((List.range (min depth 2)).map lvl).reverse
  let start := if n 88 1 = 0 then n 0 8 - (n 0 8 + 2 ^ 32 - n 80 4 % 2 ^ 32) % 2 ^ 32 else n 80 4
  let lp : Option QLoop := if n 84 2 = 0 then none else some ⟨start, n 84 2, n 86 2, n 88 1⟩
  { head := n 0 8
    tail := n 8 8
    ring := n 16 8
    npkt := n 24 4
    state := if n 28 1 = 0 then .active else if n 28 1 = 1 then .fenced else .waiting
    prio := n 29 1 % 4
    super := bitAt (n 29 1) 2
    cause := n 30 2
    desc := n 32 8
    client := client
    tenant := tenant
    stack := st
    loop := lp
    skip := n 90 2 }

/-- Restore one queue record. -/
def restoreQueue (s : State) (b : List Byte) : State :=
  let n := fieldLe b
  let q := n 44 2 % 4096
  let x := restoredQueue b (n 40 4) (descTenant s (n 32 8))
  if x.state = .waiting then
    let w := waitOperands s x
    let wt : WaitSt := ⟨q, n 96 8, toSigned 64 (n 104 8), n 112 1, decide (n 113 1 = 1), w.2.1, w.2.2, w.1⟩
    putQueue s q { x with wait := some wt }
  else putQueue s q x

/-- Restore one task record: the saved task is on the ready list, its queue's first. -/
def restoreTask (s : State) (b : List Byte) : State :=
  let n := fieldLe b
  let ib := n 0 8
  let q := n 8 2
  let desc := ((getQueue s q).map fun x => x.desc).getD 0
  let l : Launch :=
    { queue := q, prio := n 10 1 % 4, svc := bitAt (hdrNat s ib 32 1) 3, xdesc := hdrNat s ib 16 8, qdesc := desc,
      cw := n 16 8, crec := n 24 8, phaseArea := n 32 8, savep := poolAt s desc (n 40 8), savepAddr := n 40 8,
      image := ib, resume := true, time := some (n 48 6, n 56 4) }
  { s with ready := s.ready ++ [⟨q, l, true⟩], saved := mapSet 0 s.saved ib (imageOfRecord s ib) }

/-- Restore one watch record. -/
def restoreWatch (s : State) (b : List Byte) : State :=
  let n := fieldLe b
  { s with watches := s.watches ++
      [⟨n 0 2, n 8 8, toSigned 64 (n 16 8), n 24 1, true, n 32 8, n 40 1, n 44 4⟩] }

/-- Restore records of `k` bytes from far memory, one after another; one that cannot be read is left out. -/
def restoreEach (f : State → List Byte → State) (desc k : Nat) : Nat → Nat → State → State
  | 0, _, s => s
  | n + 1, va, s =>
    restoreEach f desc k n (va + k) (match farRead s desc va k with
      | .ok b => f s b
      | .error _ => s)

/-- Restore what QUIESCE saved (R384 step 6). -/
def restoreArea (s : State) : State :=
  match s.ochre.saveArea with
  | none => s
  | some (va, desc) =>
    let s := { s with ochre := { s.ochre with saveArea := none } }
    match farRead s desc va 64 with
    | .error _ => s
    | .ok h =>
      if fieldLe h 0 4 ≠ 0x31565351 ∨ fieldLe h 4 2 ≠ 1 then s
      else
        let nq := fieldLe h 6 2
        let nt := fieldLe h 8 4
        let s := restoreEach restoreQueue desc 128 nq (va + 64) s
        let s := restoreEach restoreTask desc 64 nt (va + 64 + 128 * nq) s
        restoreEach restoreWatch desc 64 (fieldLe h 16 4) (va + 64 + 128 * nq + 64 * nt) s

/-! ### Stages 2 and 3 (R439, R440, R442, R447) -/

/-- Stage 3 begins when every cluster is ONLINE or FAILED (R440): the journal is empty, and queues are restored. -/
def enterService (s : State) : State :=
  if s.stage = .test ∧ (List.range 40).all fun cl =>
      decide ((getCluster s cl).state = .online) || decide ((getCluster s cl).state = .failed) then
    restoreArea { s with stage := .service, journal := [] }
  else s

/-- Start a test run on a cluster. -/
def startRun (s : State) (cl n : Nat) : State :=
  let s := setCluster s cl { getCluster s cl with state := .testing, fenced := false, runs := n, run := none }
  { s with ready := s.ready ++ [⟨0, { cluster := cl, image := marchId, test := true }, false⟩] }

/-- The test task among the loaded images. -/
def marchImage : Image := ⟨marchId, decodeTask marchRecord, [marchCode], marchSpad, 0⟩

/-- Sienna starts: stage 2; firmware installs service code and ksvec (R331, R352), and a test run begins on every cluster that
has not FAILED. -/
def startTest (s : State) : State :=
  let s := { s with
    stage := .test, images := marchImage :: s.images.filter fun i => i.id ≠ marchId,
    svcCode := Config.serviceCode.take segBytes, svcVec := keepBits Config.serviceVec (2 ^ 63 + 0x3FFC) }
  enterService ((List.range 40).foldl (fun s cl => if (getCluster s cl).state = .failed then s else startRun s cl 1) s)

/-! ### Reset (R444) -/

/-- Position of a cause in the table of R444. -/
def causeIndex : ResetCause → Nat
  | .power => 0 | .device => 1 | .watchdog => 2 | .thermal => 3

/-- Is device memory kept? -/
def keepsMemory : ResetCause → Bool
  | .device | .watchdog => true
  | .power | .thermal => false

/-- A pending Sienna image takes effect at a DEVICE reset (R454). -/
def takeEffect (f : Fw) : Fw := if f.pending then { f with activeB := !f.activeB, pending := false, trial := true } else f

/-- What Ochre holds after a reset: POWER empties its log and closes its sessions. -/
def resetOchre (c : ResetCause) (o : Ochre) : Ochre :=
  let o := if c = .device then { o with sienna := takeEffect o.sienna } else { o with saveArea := none }
  if c = .power then
    { o with log := [], logSeq := 0, sessions := [], cap := 2400, clockMHz := 2500, cool := 0, prot := [], own := takeEffect o.own }
  else o

/-- The device after a reset, before stage 1: what is lost, and what is kept. -/
def wipe (s : State) (c : ResetCause) (powered : Bool) : State :=
  { agenda := s.agenda
    turn := s.turn
    free := s.free
    outbox := s.outbox
    powered := powered
    boot := s.boot
    devId := s.ochre.nextDev
    ochre := resetOchre c s.ochre
    confFence := if c = .power then [] else s.confFence
    mem := if keepsMemory c then s.mem else []
    images := if keepsMemory c then s.images else []
    nextImage := s.nextImage
    saved := if keepsMemory c then s.saved else []
    kept := if keepsMemory c then s.kept else [] }

/-- The other slot becomes the active one again (R454). -/
def revert (f : Fw) : Fw := { f with activeB := !f.activeB, trial := false }

/-- Step 1 of stage 1: the active Sienna image is verified, and the other slot's selected where it fails, which the log says
(R438, R454). -/
def selectImage (s : State) : State :=
  let f := s.ochre.sienna
  if slotVerifies f (activeSlot f) || !slotVerifies f (inactive f) then s
  else logAppend { s with ochre := { s.ochre with sienna := revert f } } 7 0 0 0

/-- A reset and its stage 1 (R438, R444, R454; DEDUCED, log entry 62). Steps 2 to 6 need main power, but for the boot count,
which every reset raises (DESIGN CHOICE, log entry 132); Sienna starts where an image verifies and comes up. -/
def resetDevice (s : State) (c : ResetCause) (main : Bool) (b : Bist) : State :=
  let took := if c = .device then s.ochre.sienna.pending else decide (c = .power) && s.ochre.own.pending
  let s := logAppend (wipe s c main) 6 0 0 (Config.resetCode (causeIndex c)).toNat
  let s := selectImage (if took then logAppend s 7 0 0 0 else s)
  let s := if main then b.spares.foldl markSpare (b.regs.foldl repairReg s) else s
  let s := { s with boot := s.boot + 1 }
  let f := s.ochre.sienna
  if main && b.up && slotVerifies f (activeSlot f) then
    startTest { s with ochre := { s.ochre with sienna := { f with trial := false } } }
  else s

/-- POWER_ON_RESET (DEDUCED, log entry 63). -/
def execPowerOnReset (b : Bist) (s : State) : Host.Outcome State Fault Refusal := .next (resetDevice s .power true b)

/-- RESET_INPUT (R460): as RESET, with cause DEVICE. -/
def execResetInput (b : Bist) (s : State) : Host.Outcome State Fault Refusal := .next (resetDevice s .device s.powered b)

/-- WATCHDOG_RESET (R364, R444). -/
def execWatchdogReset (b : Bist) (s : State) : Host.Outcome State Fault Refusal :=
  .next (if s.powered && decide (s.stage ≠ .root) then resetDevice s .watchdog true b else s)

/-- MAIN_POWER_LOSS: everything but Ochre stops, and device memory is lost. -/
def execMainPowerLoss (s : State) : Host.Outcome State Fault Refusal :=
  let o := s.ochre
  let t := wipe s .thermal false
  .next { t with devId := s.devId, ochre := { o with saveArea := none } }

/-- FW_REVERT (R454): a Sienna image that did not reach stage 2, or an image of Ochre that did not answer IDENTIFY. Sienna
starts where the other slot verifies (R438). -/
def execFwRevert (och : Bool) (s : State) : Host.Outcome State Fault Refusal :=
  .next (if och then
      (if s.ochre.own.trial then logAppend { s with ochre := { s.ochre with own := revert s.ochre.own } } 7 0 0 0 else s)
    else if s.ochre.sienna.trial && s.powered && decide (s.stage = .root) then
      let f := revert s.ochre.sienna
      let s := logAppend { s with ochre := { s.ochre with sienna := f } } 7 0 0 0
      if slotVerifies f (activeSlot f) then startTest s else s
    else s)

/-! ### Judging test runs (R442, R449) -/

/-- Judge a run that completed with STATUS DONE. -/
def judge (s : State) (cl : Nat) : State :=
  let c := getCluster s cl
  if !marchValid s cl then failCluster s cl
  else if (marchRecords s cl).isEmpty then setCluster s cl { c with state := .online, run := none }
  else if 3 ≤ c.runs then failCluster s cl
  else
    match repairAll (marchRecords s cl) (repairTable s cl) with
    | none => failCluster s cl
    | some t => startRun (setRepair s cl t) cl (c.runs + 1)

/-- TEST_RUN_JUDGED (R449): a run that ended KILLED fails its cluster. -/
def execTestRunJudged (cl : Fin 40) (s : State) : Host.Outcome State Fault Refusal :=
  let c := getCluster s cl.val
  .next (if c.state ≠ .testing then s
    else
      match c.run with
      | none => s
      | some 0 => enterService (judge s cl.val)
      | some _ => enterService (failCluster s cl.val))

/-- Kill the gangs of test runs on a cluster; the reason has no number in the spec (DESIGN CHOICE, log entry 16). -/
def killTests (s : State) (cl : Nat) : State :=
  (s.gangs.filter fun g => g.launch.test && g.cluster = cl).foldl (fun s g =>
    let (v, s) := takeFree s
    killTask s g.id .kill (v.toNat % 128) 0 0 0) s

/-- TEST_RUN_TIMEOUT (R442): the run is killed and its cluster FAILED. -/
def execTestRunTimeout (cl : Fin 40) (s : State) : Host.Outcome State Fault Refusal :=
  let c := getCluster s cl.val
  .next (if c.state ≠ .testing ∨ c.run.isSome then s
    else
      let s := { s with ready := s.ready.filter fun r => !(r.launch.test && r.launch.cluster = cl.val) }
      enterService (failCluster (killTests s cl.val) cl.val))

/-- CLUSTER_RETEST (R443): a fenced cluster whose tasks have ended is TESTING again. -/
def execClusterRetest (cl : Fin 40) (s : State) : Host.Outcome State Fault Refusal :=
  let c := getCluster s cl.val
  .next (if decide (s.stage = .service) && c.fenced && decide (c.state = .online) && !(s.gangs.any fun g => g.cluster = cl.val) then
      startRun s cl.val 1
    else s)

end Sys2Proof.Machine
end

