-- ==== Sys2Proof/Machine/Ochre.lean ====
section
/-! DEFINITION. Ochre: management messages (R450, R451), sensors and throttling (R452), firmware slots (R454), attestation and
sessions (R455, R457, R459), provisioning (R456), and protected memory (R458). -/

namespace Sys2Proof.Machine

/-! ### Replies and sessions (R450, R455) -/

/-- Send a reply on the side band; its encoding is that of the transports (DESIGN CHOICE, log entry 20). -/
def sideReply (s : State) (kind : Nat) (ok : Bool) (fields : List (List Byte)) : State :=
  sendOut s (.sideband (Config.sideMessage kind ok fields))

/-- A message Ochre does not perform. -/
def refuseSide (s : State) (kind : Nat) : State := sideReply s kind false []

/-- An open session. -/
def findSession (s : State) (sid : Nat) : Option Session := s.ochre.sessions.find? fun x => x.id = sid

/-- Replace a session. -/
def putSession (s : State) (x : Session) : State :=
  { s with ochre := { s.ochre with sessions := s.ochre.sessions.map fun y => if y.id = x.id then x else y } }

/-- Is a certificate one of a management peer (R455, R456)? -/
def peerCert (s : State) (cert : List Byte) : Bool := s.ochre.peers.contains cert || Config.factoryPeer cert

/-- Perform a management message in a session: the session's first vendor-defined message declares it a management peer's,
whose certificate must be listed (R455; DEDUCED, log entry 70). -/
def withPeer (s : State) (sid kind : Nat) (f : State → State) : State :=
  match findSession s sid with
  | none => refuseSide s kind
  | some x =>
    if !x.established then refuseSide s kind
    else if x.mgmt then f s
    else if x.tenant.isNone && peerCert s x.cert then f (putSession s { x with mgmt := true })
    else refuseSide s kind

/-- Accept a management message and answer it. -/
def accepted (kind : Nat) (s : State) : State := sideReply s kind true []

/-! ### Reports (R441, R445, R446, R451, R452, R453) -/

/-- STAGE as IDENTIFY numbers it: 1 to 3. -/
def stageNum : Stage → Nat
  | .root => 1 | .test => 2 | .service => 3

/-- IDENTIFY: outside any session; an image of Ochre on trial has come up (R454). -/
def execMgIdentify (s : State) : Host.Outcome State Fault Refusal :=
  let s := { s with ochre := { s.ochre with own := { s.ochre.own with trial := false } } }
  .next (sideReply s 1 true
    [[0x53, 0x50, 0x56, 0x2D, 0x4F, 0x33, 0x32, 0x30], leBytes 8 s.ochre.serial.toNat, leBytes 2 s.devId, leBytes 4 s.boot.toNat,
      leBytes 1 (stageNum s.stage), leBytes 1 s.ochre.sienna.activeB.toNat, leBytes 1 s.ochre.own.activeB.toNat])

/-- SENSORS (DEDUCED, log entry 71). -/
def execMgSensors (sid : BitVec 32) (s : State) : Host.Outcome State Fault Refusal :=
  .next (withPeer s sid.toNat 2 fun s => sideReply s 2 true (s.ochre.readings.map fun r => leBytes 2 r))

/-- LOG_READ: the records from a sequence number on. -/
def execMgLogRead (sid : BitVec 32) (first : Word) (s : State) : Host.Outcome State Fault Refusal :=
  .next (withPeer s sid.toNat 3 fun s =>
    sideReply s 3 true (s.ochre.log.filter fun r => decide (first.toNat ≤ fieldLe r 0 8)))

/-- State of a cluster as reported. -/
def clusterCode : ClState → Nat
  | .offline => 0 | .testing => 1 | .online => 2 | .failed => 3

/-- CLUSTER_STATE. -/
def execMgClusterState (sid : BitVec 32) (s : State) : Host.Outcome State Fault Refusal :=
  .next (withPeer s sid.toNat 4 fun s =>
    sideReply s 4 true ((List.range 40).map fun cl => leBytes 1 (clusterCode (getCluster s cl).state)))

/-- An entry of a core's register-file repair table (R446). -/
def rfWord (s : State) (core e : Nat) : Nat :=
  match (mapGet [] s.ochre.rfRepair core).find? fun x => x.2.2.2 = e with
  | none => 0
  | some x => 2 ^ 15 + x.2.1 % 8 * 2 ^ 12 + x.1 % 4 * 2 ^ 10 + x.2.2.1 % 32 * 2 ^ 5

/-- The repair tables: each cluster's scratchpad table, then each core's register-file table. -/
def repairWords (s : State) : List (List Nat) :=
  ((List.range 40).map fun cl => repairTable s cl) ++
    (List.range 320).map fun i => (List.range 8).map fun e => rfWord s (coreKey (i / 8) (i % 8)) e

/-- REPAIR_READ. -/
def execMgRepairRead (sid : BitVec 32) (s : State) : Host.Outcome State Fault Refusal :=
  .next (withPeer s sid.toNat 5 fun s => sideReply s 5 true ((repairWords s).map fun t => t.flatMap fun w => leBytes 2 w))

/-! ### Firmware (R454) -/

/-- The two slots of a KIND. -/
def fwOf (s : State) (och : Bool) : Fw := if och then s.ochre.own else s.ochre.sienna

/-- Replace the slots of a KIND. -/
def setFw (s : State) (och : Bool) (f : Fw) : State :=
  { s with ochre := if och then { s.ochre with own := f } else { s.ochre with sienna := f } }

/-- Replace the inactive slot. -/
def setInactive (f : Fw) (x : FwSlot) : Fw := if f.activeB then { f with a := x } else { f with b := x }

/-- FW_WRITE: a write that a RESET or a loss of power cuts short leaves the slot invalid. -/
def execMgFwWrite (sid : BitVec 32) (och : Bool) (bs : List Byte) (cut : Bool) (s : State) : Host.Outcome State Fault Refusal :=
  .next (withPeer s sid.toNat 6 fun s =>
    let f := fwOf s och
    let s := setFw s och { setInactive f ⟨bs, !cut, false⟩ with pending := false }
    if cut then s else accepted 6 s)

/-- FW_ACTIVATE. -/
def execMgFwActivate (sid : BitVec 32) (och : Bool) (s : State) : Host.Outcome State Fault Refusal :=
  .next (withPeer s sid.toNat 7 fun s =>
    let f := fwOf s och
    if fwCheck f och (inactive f) then accepted 7 (setFw s och { f with pending := true }) else refuseSide s 7)

/-- FW_COMMIT: the stored minimum never falls. -/
def execMgFwCommit (sid : BitVec 32) (och : Bool) (s : State) : Host.Outcome State Fault Refusal :=
  .next (withPeer s sid.toNat 8 fun s =>
    let f := fwOf s och
    accepted 8 (setFw s och { f with minSvn := max f.minSvn (imageSvn (activeSlot f).bytes) }))

/-- RESET: a device reset with cause DEVICE, also while main power is down. -/
def execMgReset (sid : BitVec 32) (bist : Bist) (s : State) : Host.Outcome State Fault Refusal :=
  .next (withPeer s sid.toNat 9 fun s => resetDevice (accepted 9 s) .device s.powered bist)

/-! ### Power and temperature (R452) -/

/-- POWER_CAP. -/
def execMgPowerCap (sid : BitVec 32) (watts : BitVec 16) (s : State) : Host.Outcome State Fault Refusal :=
  .next (withPeer s sid.toNat 10 fun s =>
    if 1200 ≤ watts.toNat ∧ watts.toNat ≤ 2400 then accepted 10 { s with ochre := { s.ochre with cap := watts.toNat } }
    else refuseSide s 10)

/-- Throttle level of a sensor by its place: 40 clusters, 8 stacks, 4 optical engines, 12 rails with voltage and current,
and the module's input power; none for the rails. -/
def throttleAt (cap i : Nat) : Option Nat :=
  if i < 40 then some 95 else if i < 48 then some 90 else if i < 52 then some 75 else if i = 76 then some (cap + 1) else none

/-- Reading at or above its throttle level. -/
def throttles (cap : Nat) (e : Nat × Nat) : Bool :=
  match throttleAt cap e.1 with
  | none => false
  | some l => decide (l ≤ e.2)

/-- Reading at or above the level that resets. -/
def overheats (e : Nat × Nat) : Bool :=
  decide (e.1 < 52) && (match throttleAt 0 e.1 with
    | none => false
    | some l => decide (l + 10 ≤ e.2))

/-- Reading 5 °C below its throttle level, or the power 5 % below the cap. -/
def cools (cap : Nat) (e : Nat × Nat) : Bool :=
  if e.1 < 52 then
    (match throttleAt cap e.1 with
      | none => true
      | some l => decide (e.2 + 5 ≤ l))
  else if e.1 = 76 then decide (100 * e.2 ≤ 95 * cap) else true

/-- The clock after a sample that throttles: a step lower, and the log says when throttling begins. -/
def slowClock (s : State) : State :=
  let t := { s with ochre := { s.ochre with clockMHz := max 1000 (s.ochre.clockMHz - 100), cool := 0 } }
  if s.ochre.clockMHz = 2500 then logAppend t 8 0 0 0 else t

/-- The clock after a sample in which everything is cool: a step higher once 10 ms have passed so. -/
def restoreClock (s : State) : State :=
  let o := s.ochre
  if o.cool + 1 < 100 then { s with ochre := { o with cool := o.cool + 1 } }
  else
    let t := { s with ochre := { o with cool := 100, clockMHz := min 2500 (o.clockMHz + 100) } }
    if o.clockMHz < 2500 ∧ 2400 ≤ o.clockMHz then logAppend t 8 0 0 0 else t

/-- SENSOR_SAMPLE. -/
def execSensorSample (rs : List (BitVec 16)) (bist : Bist) (s : State) : Host.Outcome State Fault Refusal :=
  let es := (List.range rs.length).zip (rs.map fun r => r.toNat)
  let s := { s with ochre := { s.ochre with readings := rs.map fun r => r.toNat } }
  .next (if !s.powered then s
    else if es.any overheats then resetDevice s .thermal true bist
    else if es.any (throttles s.ochre.cap) then slowClock s
    else if es.all (cools s.ochre.cap) then restoreClock s
    else { s with ochre := { s.ochre with cool := 0 } })

/-! ### Provisioning (R456) -/

/-- Write one entry of the provisioning table, or refuse it: tenant 0 for a client (R267), a device id of no group
(R387). -/
def provision (s : State) (e : ProvEntry) : Option State :=
  let o := s.ochre
  match e with
  | .client id t d sup =>
    if t.toNat = 0 then none
    else
      let c : Client := ⟨id.toNat, t.toNat, d.toNat, sup⟩
      some { s with ochre := { o with clients := (o.clients.filter fun x => x.id ≠ c.id) ++ [c] } }
  | .tenant t d =>
    some { s with ochre := { o with fabric := (o.fabric.filter fun x => x.1 ≠ t.toNat) ++ [(t.toNat, d.toNat)] } }
  | .device id => if bitsOf id.toNat 14 5 ≤ 512 then some { s with ochre := { o with nextDev := id.toNat } } else none
  | .peer cert => some { s with ochre := { o with peers := if o.peers.contains cert then o.peers else o.peers ++ [cert] } }

/-- Write the entries Ochre accepts; the reply says whether it refused one. -/
def provisionAll : List ProvEntry → Bool → State → State
  | [], ok, s => sideReply s 11 ok []
  | e :: r, ok, s =>
    match provision s e with
    | none => provisionAll r false s
    | some s => provisionAll r ok s

/-- PROVISION. -/
def execMgProvision (sid : BitVec 32) (es : List ProvEntry) (s : State) : Host.Outcome State Fault Refusal :=
  .next (withPeer s sid.toNat 11 fun s => provisionAll es true s)

/-! ### Protected memory (R458) -/

/-- The ranges of 1 GiB from a base. -/
def protUnits (base len : Nat) : List (Nat × Nat) := (List.range (len / 2 ^ 30)).map fun i => (base + 2 ^ 30 * i, 2 ^ 30)

/-- A range that PROTECT takes: a multiple of 1 GiB, within device memory. -/
def protRange (base len : Nat) : Bool :=
  decide (base % 2 ^ 30 = 0) && decide (len % 2 ^ 30 = 0) && decide (0 < len) && decide (base + len ≤ memTop)

/-- Zero a range of device memory. -/
def zeroRange (s : State) (base len : Nat) : State :=
  clearFarShadow (markStale { s with mem := s.mem.filter fun c => decide (c.1 < base) || decide (base + len ≤ c.1) }
    (staleHit base len)) base len

/-- PROTECT: zeroed before it is protected; it needs the main part of the device (R451). -/
def execMgProtect (sid : BitVec 32) (base len : Word) (s : State) : Host.Outcome State Fault Refusal :=
  .next (withPeer s sid.toNat 12 fun s =>
    if !s.powered || decide (s.stage = .root) || !protRange base.toNat len.toNat then refuseSide s 12
    else
      let s := zeroRange s base.toNat len.toNat
      let us := (protUnits base.toNat len.toNat).filter fun u => !s.ochre.prot.contains u
      accepted 12 { s with ochre := { s.ochre with prot := s.ochre.prot ++ us } })

/-- Does a table at a level map a page of a physical range? -/
def tableMaps (s : State) (lo len : Nat) : Nat → Nat → Bool
  | 0, tbl => (List.range 512).any fun i =>
      let e := physNat s (tbl + 8 * i) 8
      bitAt e 0 && rangesMeet (bitsOf e 47 12 * 4096) (if bitAt e 5 then 65536 else 4096) lo len
  | n + 1, tbl => (List.range (if n + 1 = 3 then 2 ^ 17 else 512)).any fun i =>
      let e := physNat s (tbl + 8 * i) 8
      let size := if n + 1 = 2 then (if bitAt e 5 then 2 ^ 33 else 2 ^ 30) else 2 ^ 21
      bitAt e 0 && (if bitAt e 4 then rangesMeet (bitsOf e 47 12 * 4096) size lo len
        else tableMaps s lo len n (bitsOf e 47 12 * 4096))

/-- Does a descriptor map a page of a physical range? -/
def descMaps (s : State) (desc lo len : Nat) : Bool :=
  ((List.range 16).any fun j =>
    let b := desc + 64 + 32 * j
    let base := physNat s b 8 / 4096 * 4096
    let lim := physNat s (b + 8) 8 / 4096 * 4096
    bitAt (physNat s (b + 24) 1) 0 && decide (base < lim) &&
      rangesMeet ((base + physNat s (b + 16) 8 / 4096 * 4096) % 2 ^ 48) (lim - base) lo len) ||
  tableMaps s lo len 3 (physNat s desc 8)

/-- The descriptors of a launch: its task's, its queue's, its save pool's. -/
def launchDescs (l : Launch) : List Nat :=
  if l.test then [] else [l.xdesc, l.qdesc] ++ l.savep.toList.map fun p => p.sdesc

/-- The descriptors the device holds: of clients, fabric tenants, queues and windows; of launches, running tasks and saved
images with their save pools; of plans, of the supervisor's ring and of a queue-save area. -/
def heldDescs (s : State) : List Nat :=
  (s.ochre.clients.map fun c => c.desc) ++ (s.ochre.fabric.map fun e => e.2) ++ ((liveQueues s).map fun e => e.2.desc) ++
    (s.windows.map fun w => w.desc) ++ (s.ready.flatMap fun r => launchDescs r.launch) ++
    (s.gangs.flatMap fun g => launchDescs g.launch ++ (g.preempt.bind fun r => r.pool).toList.map fun p => p.sdesc) ++
    ((s.saved.filter fun e => hdrNat s e.1 7 1 < 2).flatMap fun e => [hdrNat s e.1 16 8, hdrNat s e.1 24 8]) ++
    s.gathers.filterMap (fun t => t.desc) ++ (s.plans.map fun p => p.desc) ++ (s.starts.map fun x => x.desc) ++
    (s.ring.toList.map fun r => r.desc) ++ (s.quiesce.toList.map fun q => q.desc) ++ s.ochre.saveArea.toList.map fun a => a.2

/-- UNPROTECT: refused while a confidential descriptor maps the range; zeroed before it is ordinary memory again. -/
def execMgUnprotect (sid : BitVec 32) (base len : Word) (s : State) : Host.Outcome State Fault Refusal :=
  .next (withPeer s sid.toNat 13 fun s =>
    let b := base.toNat
    let n := len.toNat
    if !s.powered || decide (s.stage = .root) || !protRange b n ||
        ((heldDescs s).any fun d => descConf s d && descMaps s d b n) then refuseSide s 13
    else
      let s := zeroRange s b n
      accepted 13 { s with ochre := { s.ochre with prot := s.ochre.prot.filter fun u => !(protUnits b n).contains u } })

/-! ### Attestation and sessions (R455, R457, R459) -/

/-- GET_CERTIFICATE. -/
def execSpGetCertificate (s : State) : Host.Outcome State Fault Refusal := .next (sideReply s 20 true [Config.certChain])

/-- CHALLENGE. -/
def execSpChallenge (bs : List Byte) (s : State) : Host.Outcome State Fault Refusal :=
  .next (sideReply s 21 true [Config.identitySign bs])

/-- The provisioning table as a list of entries. -/
def provWords (o : Ochre) : List (List Nat) :=
  (o.clients.map fun c => [1, c.id, c.tenant, c.desc, c.super.toNat]) ++ (o.fabric.map fun e => [2, e.1, e.2]) ++
    [[3, o.nextDev]] ++ o.peers.map fun p => 4 :: p.map fun b => b.toNat

/-- A measurement by its index. -/
def measurement (s : State) (i : Nat) : Option (List Byte) :=
  if i = 1 then some (sha512 (activeSlot s.ochre.own).bytes)
  else if i = 2 then some (sha512 (activeSlot s.ochre.sienna).bytes)
  else if i = 3 then some (sha512 (Config.tableBytes (provWords s.ochre)))
  else if i = 4 then some (sha512 (Config.tableBytes (repairWords s)))
  else none

/-- GET_MEASUREMENTS: one measurement, their number (index 0), or all (index 255; DEDUCED, log entry 72). -/
def execSpGetMeasurements (i : Fin 256) (s : State) : Host.Outcome State Fault Refusal :=
  .next (if i.val = 0 then sideReply s 22 true [leBytes 1 4]
    else if i.val = 255 then sideReply s 22 true ((List.range 4).filterMap fun k => measurement s (k + 1))
    else
      match measurement s i.val with
      | none => refuseSide s 22
      | some m => sideReply s 22 true [m])

/-- KEY_EXCHANGE: at most 16 sessions, with a heartbeat period of 1 to 60 s. -/
def execSpKeyExchange (sid : BitVec 32) (bs : List Byte) (period : BitVec 8) (s : State) : Host.Outcome State Fault Refusal :=
  .next (if 16 ≤ s.ochre.sessions.length ∨ (findSession s sid.toNat).isSome ∨ period.toNat = 0 ∨ 60 < period.toNat then refuseSide s 23
    else
      let x : Session := ⟨sid.toNat, false, false, none, period.toNat, [], 0, []⟩
      let s := { s with ochre := { s.ochre with sessions := s.ochre.sessions ++ [x] } }
      sideReply s 23 true [Config.exchangeShare (s.ochre.sessions.length), Config.identitySign bs])

/-- FINISH: the session is established, with the certificate its requester showed. -/
def execSpFinish (sid : BitVec 32) (cert bs : List Byte) (s : State) : Host.Outcome State Fault Refusal :=
  .next (match findSession s sid.toNat with
    | none => refuseSide s 24
    | some x =>
      if x.established || !Config.finishVerify x.id cert bs then refuseSide s 24
      else accepted 24 (putSession s { x with established := true, cert := cert }))

/-- A message of an established session. -/
def inSession (s : State) (sid kind : Nat) (f : Session → State) : State :=
  match findSession s sid with
  | none => refuseSide s kind
  | some x => if x.established then f x else refuseSide s kind

/-- KEY_UPDATE. -/
def execSpKeyUpdate (sid : BitVec 32) (s : State) : Host.Outcome State Fault Refusal :=
  .next (inSession s sid.toNat 25 fun x => accepted 25 (putSession s { x with gen := x.gen + 1 }))

/-- HEARTBEAT. -/
def execSpHeartbeat (sid : BitVec 32) (s : State) : Host.Outcome State Fault Refusal :=
  .next (inSession s sid.toNat 26 fun _ => accepted 26 s)

/-- A session closes and its keys are erased; the last one that named a tenant fences it (R457, R459). -/
def closeSession (s : State) (x : Session) : State :=
  let s := { s with ochre := { s.ochre with sessions := s.ochre.sessions.filter fun y => y.id ≠ x.id } }
  match x.tenant with
  | none => s
  | some t =>
    if (tenantSessions s t).isEmpty && !s.confFence.contains t then { s with confFence := s.confFence ++ [t] } else s

/-- END_SESSION. -/
def execSpEndSession (sid : BitVec 32) (s : State) : Host.Outcome State Fault Refusal :=
  .next (inSession s sid.toNat 27 fun x => accepted 27 (closeSession s x))

/-- SESSION_EXPIRY: no message within two heartbeat periods. -/
def execSessionExpiry (sid : BitVec 32) (s : State) : Host.Outcome State Fault Refusal :=
  .next (match findSession s sid.toNat with
    | none => s
    | some x => closeSession s x)

/-- SET_KEY (R457): a session without a role becomes the tenant's, which lifts the tenant's fence (R459); at most 64 keys. -/
def execMgSetKey (sid : BitVec 32) (tenant : BitVec 12) (key : BitVec 32) (bs : List Byte) (s : State) :
    Host.Outcome State Fault Refusal :=
  .next (inSession s sid.toNat 14 fun x =>
    let keys := (x.keys.filter fun k => k.1 ≠ key.toNat) ++ [(key.toNat, bs)]
    if x.mgmt || decide (tenant.toNat = 0) || decide (x.tenant.getD tenant.toNat ≠ tenant.toNat) ||
        decide (bs.length ≠ 32) || decide (64 < keys.length) then refuseSide s 14
    else
      let s := putSession s { x with tenant := some tenant.toNat, keys := keys }
      accepted 14 { s with confFence := s.confFence.filter fun t => t ≠ tenant.toNat })

/-- OCHRE_RESET (R454): a pending image of Ochre takes effect, and every session ends. -/
def execOchreReset (s : State) : Host.Outcome State Fault Refusal :=
  let s := s.ochre.sessions.foldl closeSession s
  .next (if s.ochre.own.pending then logAppend { s with ochre := { s.ochre with own := takeEffect s.ochre.own } } 7 0 0 0 else s)

/-- PTP_LOCK (R383): the clock runs on the PTP timescale from now on. -/
def execPtpLock (sec : BitVec 48) (ns : BitVec 32) (s : State) : Host.Outcome State Fault Refusal :=
  .next (if s.powered && decide (s.stage ≠ .root) then
      { s with clockSec := sec.toNat, clockNs := ns.toNat % 1000000000, ptpLock := true }
    else s)

end Sys2Proof.Machine
end

