-- ==== Sys2Proof/Machine/Remote.lean ====
section
/-! DEFINITION. Remote: remote operations at their target (R396, R398, R400 to R404, R407 to R411) and their resolution at the
sender (R399, R401, R406, R408). A packet to this device is performed here under the same rules (R393). -/

namespace Sys2Proof.Machine

/-! ### Resolution at the sender (R401, R406, R408) -/

/-- Take an operation off the engine. -/
def dropOp (s : State) (o : RemOp) : State := { s with remote := s.remote.filter fun x => x ≠ o }

/-- An operation not yet resolved. -/
def openOp (s : State) (dev seq : Nat) : Option RemOp :=
  s.remote.find? fun o => o.dev = dev && o.seq = seq && !o.lost && o.ans.isNone

/-- FLAGS.REMOTE of a saved image is cleared once its last operation has resolved (R413). -/
def clearRemote (s : State) (gid : Nat) : State :=
  if s.remote.any fun o => o.gang = gid && !o.lost then s
  else (savedBases s gid).foldl (fun s ib =>
    if bitAt (hdrNat s ib 32 1) 2 then hdrPut s ib 32 1 (hdrNat s ib 32 1 - 4) else s) s

/-- kfst after one more refusal: NREF saturates. -/
def addRefused (k : Word) : Word := if bitsOf k.toNat 47 32 = 65535 then k else k + BitVec.ofNat 64 (2 ^ 32)

/-- kfst of a saved member lies in its control record on this device (R314, R406; DEDUCED, log entry 68). -/
def refuseSaved (s : State) (ib m : Nat) : State :=
  match recordPa s ib m 3600 with
  | none => s
  | some pa => physWrite s pa (leBytes 8 (addRefused (BitVec.ofNat 64 (physNat s pa 8))).toNat)

/-- Count a refusal in the sender's kfst (R396, R406). -/
def countRefused (s : State) (o : RemOp) : State :=
  match findGang s o.gang with
  | some _ => modCtxOf s o.gang o.member fun c => { c with kfst := addRefused c.kfst }
  | none => (savedBases s o.gang).foldl (fun s ib => refuseSaved s ib o.member) s

/-- Reply words enter the inbound FIFO in the room reserved for them; a member that has halted or ended takes none (R413). -/
def enterReply (s : State) (o : RemOp) (ws : List FWord) : State :=
  modCtxOf s o.gang o.member fun c => { c with
    fifos := vmod c.fifos o.port fun f =>
      { f with ib := if c.halted then f.ib else f.ib ++ ws, resv := f.resv - o.nrep } }

/-- Replies of a context on a port enter in the order their requests issued (R401): at most `n` of them now. -/
def enterReplies (gid m port : Nat) : Nat → State → State
  | 0, s => s
  | n + 1, s =>
    match s.remote.find? fun o => o.gang = gid && o.member = m && o.port = port && decide (0 < o.nrep) with
    | none => s
    | some o =>
      match o.ans with
      | none => s
      | some ws =>
        let s := enterReply s o ws
        enterReplies gid m port n (if o.lost then replaceOp s o { o with nrep := 0, ans := none } else dropOp s o)

/-- A plan's read of another device has come to something (R426). -/
def answerPlan (s : State) (plan : Nat) (got : StepOut) : State :=
  { s with plans := s.plans.map fun p => if p.identity = plan then { p with got := some got } else p }

/-- Resolve a context's operation by its acknowledgement or reply, or by its refusal. -/
def resolveCtxOp (s : State) (o : RemOp) (ok : Bool) (ws : List Word) : State :=
  let s := if ok || o.kind = .abort then s else countRefused s o
  let s :=
    if o.nrep = 0 then dropOp s o
    else
      let ans := (List.range o.nrep).map fun i => if ok then FWord.data (ws.getD i 0) else .fail
      enterReplies o.gang o.member o.port (s.remote.length) (replaceOp s o { o with ans := some ans })
  clearRemote s o.gang

/-- Resolve an operation by its acknowledgement or reply, or by its refusal. -/
def resolveOp (s : State) (dev seq : Nat) (ok : Bool) (ws : List Word) : State :=
  match openOp s dev seq with
  | none => s
  | some o =>
    match o.plan with
    | some i => answerPlan (dropOp s o) i (if ok then .remote (wordsBytes ws) else .refused)
    | none => resolveCtxOp s o ok ws

/-- REMOTE_REPLY_ARRIVAL (R401): the reply leaves its link's buffer (R390). -/
def execRemoteReplyArrival (port : Port) (dev : BitVec 15) (sn : BitVec 48) (ans : Bool × List Word) (s : State) :
    Host.Outcome State Fault Refusal :=
  .next (if dev.toNat = s.devId then s
    else returnFlits (resolveOp s dev.toNat sn.toNat ans.1 ans.2) port.val true (flitsOf ans.2.length))

/-- PEER_TIMEOUT (R408): unresolved; its reply words are failure words, and a drain will report it. An abort is dropped
(R411), and nobody waits for an operation of a task that has ended. -/
def execPeerTimeout (dev : BitVec 15) (sn : BitVec 48) (s : State) : Host.Outcome State Fault Refusal :=
  .next (match openOp s dev.toNat sn.toNat with
    | none => s
    | some o =>
      match o.plan with
      | some i => answerPlan (dropOp s o) i .peerLost
      | none =>
        if o.kind = .mark then s
        else if o.kind = .abort ∨ ((findGang s o.gang).isNone ∧ (savedBases s o.gang).isEmpty) then dropOp (leaveFifo s o) o
        else
          let s := leaveFifo s o
          let o' := { o with lost := true, obw := 0, ans := if o.nrep = 0 then none else some (List.replicate o.nrep .fail) }
          clearRemote (enterReplies o.gang o.member o.port s.remote.length (replaceOp s o o')) o.gang)

/-- MARKER_TIMEOUT (R404): the tag's place is taken by a failure word. -/
def execMarkerTimeout (dev : BitVec 15) (sn : BitVec 48) (s : State) : Host.Outcome State Fault Refusal :=
  .next (match openOp s dev.toNat sn.toNat with
    | none => s
    | some o =>
      if o.kind ≠ .mark then s
      else enterReplies o.gang o.member o.port s.remote.length (replaceOp s o { o with ans := some [.fail] }))

/-- RESEND_TIMER (R408): again, on another path with the allowance. -/
def execResendTimer (dev : BitVec 15) (sn : BitVec 48) (s : State) : Host.Outcome State Fault Refusal :=
  .next (match openOp s dev.toNat sn.toNat with
    | none => s
    | some o =>
      if !fabricRuns s || !o.sent || decide (o.kind = .mark) || decide (o.dev = s.devId) then s
      else
        match (routePorts s o.dev).find? fun p =>
          decide (some (p, (linkOf s p).peer) ≠ o.via) && decide (o.flits ≤ (linkOf s p).allowReq) with
        | none => s
        | some p => putOnLink s p o)

/-! ### At the target: far space and scratchpad (R396, R400 to R403, R410) -/

/-- What an access comes to: not yet (a block is being pulled), refused, or performed with its reply words. -/
inductive AccOut where
  | wait (s : State)
  | refused (s : State)
  | done (s : State) (ws : List Word)
deriving DecidableEq, Repr

/-- The operation of R192 that OP names (R402). -/
def fxAtom : FxOp → AtomOp
  | .add => .add | .and => .and | .or => .or | .xor => .xor | .max => .max | .nmax => .nmax | .xchg => .xchg | .cas => .cas

/-- New value of a remote atomic. -/
def fxNew (op : FxOp) (ws : List Word) (old : Nat) : Nat :=
  let y := (ws.getD 0 0).toNat
  if op = .cas then atomOp .cas 64 old (ws.getD 1 0).toNat y else atomOp (fxAtom op) 64 old y 0

/-- The descriptor provisioned for a tenant's packets (R396, R456). -/
def fabricDesc (s : State) (tenant : Nat) : Option Nat := (s.ochre.fabric.find? fun e => e.1 = tenant).map fun e => e.2

/-- Does an operation write? -/
def accWrites (o : RemOp) : Bool :=
  match o.kind with
  | .store | .atomic _ => true
  | _ => false

/-- The member whose loopback operation this is. -/
def loopMember (s : State) (o : RemOp) : Option (Gang × Nat) :=
  if o.src.isSome || o.plan.isSome then none else (findGang s o.gang).map fun g => (g, o.member)

/-- A loopback access to far space, as the race detector sees it: a store or load is checked (R303), and what a load or
atomic reads of a release is noted (R289). -/
def loopFar (s : State) (o : RemOp) (va : Nat) (rs : List (Nat × Nat)) : State :=
  match loopMember s o, rs with
  | some (g, m), r :: _ =>
    let rels := farRels s (getCtx g m) r.1 va (accBytes o) false 3
    let s := if o.kind = .store ∨ o.kind = .load then engineFarRaces s g m va rs (accWrites o) 3 else s
    if o.kind = .store then s else modCtxOf s g.id m fun c => rels.foldl (fun c x => noteRel x c) c
  | _, _ => s

/-- A loopback access to scratchpad, as the race detector sees it. -/
def loopSpad (s : State) (o : RemOp) (cl a : Nat) : State :=
  match loopMember s o with
  | none => s
  | some (g, m) =>
    let rels := spadRels s cl a (accBytes o) false 3
    let s := if o.kind = .store ∨ o.kind = .load then engineRaceAt s g m cl a (accBytes o) (accWrites o) 3 else s
    if o.kind = .store then s else modCtxOf s g.id m fun c => rels.foldl (fun c x => noteRel x c) c

/-- A packet's write of device memory: a loopback write leaves its context's entry, another device's none, and an atomic
continues the releases its bytes carry (R287, R291, R301). -/
def packetFar (s : State) (o : RemOp) (pa : Nat) (bs : List Byte) : State :=
  let s := physWrite s pa bs
  if shValid o.ent then shadowFarSet s pa bs.length (shSync o.ent) o.ent
  else clearFarShadow s pa bs.length (decide (o.kind ≠ .store))

/-- A packet's write of scratchpad. -/
def packetSpad (s : State) (o : RemOp) (cl a : Nat) (bs : List Byte) : State :=
  let s := spadWrites s cl a bs
  if shValid o.ent then shadowSet s cl a bs.length (shSync o.ent) o.ent
  else clearShadow s cl a bs.length (decide (o.kind ≠ .store))

/-- An access to far space under a descriptor. -/
def accessFar (s : State) (desc : Nat) (o : RemOp) (out : MemOut) : AccOut :=
  let va := bitsOf o.addr.toNat 46 0
  match xlatRange s desc va (accBytes o) (accWrites o) with
  | .error _ => .refused s
  | .ok rs =>
    let pa := match rs with
      | [] => 0
      | r :: _ => r.1
    if out ≠ .ok then .refused (retirePage s pa)
    else
      let s := loopFar s o va rs
      match o.kind with
      | .store => .done (packetFar s o pa (wordsBytes o.words)) []
      | .atomic op =>
        let old := physNat s pa 8
        .done (packetFar s o pa (leBytes 8 (fxNew op o.words old))) [BitVec.ofNat 64 old]
      | _ => .done s (wordsAt (physReads s rs) 0 o.nrep)

/-- The task of a tenant whose allocation on a cluster holds the bytes. -/
def allocOwner (s : State) (cl tenant a n : Nat) : Option Gang :=
  s.gangs.find? fun g => g.cluster = cl && g.tenant = tenant && g.killed.isNone && inAlloc g a n

/-- An access to scratchpad: absent blocks are pulled first, without freezing a gang (DEDUCED, log entry 69). -/
def accessSpad (s : State) (o : RemOp) (out : MemOut) : AccOut :=
  let cl := bitsOf o.addr.toNat 45 40
  let a := bitsOf o.addr.toNat 22 0
  let n := accBytes o
  match allocOwner s cl o.tenant a n with
  | none => .refused s
  | some g =>
    let miss := (blocksOf g a n).filter fun b => g.absent.contains b
    if !miss.isEmpty then .wait (releaseArrivals (miss.foldl (fun s b => performAct g.id s (.spad b)) s))
    else if out ≠ .ok then .refused (fenceCluster s cl a)
    else
      let s := loopSpad s o cl a
      match o.kind with
      | .store => .done (packetSpad s o cl a (wordsBytes o.words)) []
      | .atomic op =>
        let old := leNat (spadReads s cl a 8)
        .done (packetSpad s o cl a (leBytes 8 (fxNew op o.words old))) [BitVec.ofNat 64 old]
      | _ => .done s (wordsAt (spadReads s cl a n) 0 o.nrep)

/-- An access at its target (R396); one that breaks R395 lies outside everything. A read for another device's Madder or
pull has no slot whose address R395 binds. -/
def accessTarget (s : State) (o : RemOp) (out : MemOut) : AccOut :=
  match fabricDesc s o.tenant, o.kind with
  | none, _ => .refused s
  | some d, .read _ => if bitAt o.addr.toNat 47 then .refused s else accessFar s d o out
  | some d, _ =>
    if !remoteOk o.addr.toNat (accBytes o / 8) then .refused s
    else if bitAt o.addr.toNat 47 then accessSpad s o out
    else accessFar s d o out

/-- What a device that resumes an image taken here asks or tells: this device's boot count (R326), or that the image has been
resumed there, so that its watch entries and their counts are released (R237). -/
def answerOrigin (s : State) (o : RemOp) (resumed : Bool) : AccOut :=
  if resumed then
    .done { s with watch := s.watch.filter fun e => match e.2 with
      | none => true
      | some w => !(w.tenant = o.tenant && w.ibase.any fun ib => (savedBases s o.addr.toNat).contains ib) } []
  else .done s [s.boot.setWidth 64]

/-- A block that another device pulls (R327): a saved image of the tenant that still holds it here sends it from its storage,
which becomes FREE. -/
def sendBlock (s : State) (o : RemOp) (kind : BlockKind) (m i : Nat) : AccOut :=
  match (savedBases s o.addr.toNat).find? fun ib =>
    decide (descTenant s (hdrNat s ib 24 8) = o.tenant) && (residentData s ib kind.code m i).isSome with
  | none => .refused s
  | some ib =>
    match residentData s ib kind.code m i with
    | none => .refused s
    | some (bs, kts) =>
      if blockBusy s ib kind.code m i then .wait s
      else .done (dropResident s ib kind.code m i)
        (wordsAt bs 0 (bs.length / 8) ++ if kind = .tile then [BitVec.ofNat 64 kts] else [])

/-! ### At the target: messages (R394, R398, R409, R411) -/

/-- The member at an endpoint of a header: it runs there. -/
def endpoint (s : State) (h : Nat) (ok : Gang → Bool) : Option (Gang × Nat) :=
  s.gangs.findSome? fun g =>
    if g.cluster = bitsOf h 47 42 ∧ g.slot = bitsOf h 38 37 ∧ g.killed.isNone ∧ ok g then
      ((List.range g.members.length).find? fun m => decide ((getCtx g m).core = bitsOf h 41 39) && !(getCtx g m).halted).map
        fun m => (g, m)
    else none

/-- A header as it is popped: DEV, CLUSTER, CORE and SLOT name the sender. -/
def poppedHeader (src : Nat) (o : RemOp) : Word :=
  BitVec.ofNat 64 (src % 32768 * 2 ^ 48 + o.cl % 64 * 2 ^ 42 + o.co % 8 * 2 ^ 39 + o.sl % 4 * 2 ^ 37 + bitsOf o.addr.toNat 36 0)

/-- A message enters the FIFO of its context, and raises MSG where it is enabled (R344, R398; DEDUCED, log entry 67). -/
def enterMessage (s : State) (w : MsgWait) : State :=
  let s := modCtxOf s w.gang w.member fun c => { c with
    fifos := vmod c.fifos w.port fun f => { f with ib := f.ib ++ w.words.map FWord.data } }
  match findGang s w.gang with
  | none => s
  | some g =>
    if (getCtx g w.member).kfmie.getLsbD w.port then raiseUser s w.gang w.member 5 fun c => { c with msgArg := w.port } else s

/-- Is there room in the FIFO for all words of a message (R394)? -/
def messageFits (s : State) (w : MsgWait) : Bool :=
  match findGang s w.gang with
  | none => false
  | some g => decide (w.words.length ≤ ibFree (vget {} (getCtx g w.member).fifos w.port))

/-- A message waits already for the same FIFO. -/
def messageBehind (ms : List MsgWait) (w : MsgWait) : Bool :=
  ms.any fun x => x.gang = w.gang && x.member = w.member && x.port = w.port

/-- Record the receiver's edge of a message with a group (R411). -/
def receiveEdge (s : State) (src : Nat) (o : RemOp) (g : Gang) (m : Nat) : State :=
  if bitsOf o.addr.toNat 30 28 = 7 then s
  else addEdge s (logLoc g.cluster (getCtx g m).core) ⟨g.id, m, o.group, src, o.cl, o.co, o.sl, bitsOf o.addr.toNat 36 31⟩

/-- A message at its target: into the FIFO, or into the message buffer; while that is full it stays on its link. -/
def acceptMessage (s : State) (src : Nat) (o : RemOp) : AccOut :=
  match endpoint s o.addr.toNat fun g => decide (g.tenant = o.tenant) with
  | none => .refused s
  | some (g, m) =>
    let w : MsgWait := ⟨g.id, m, bitsOf o.addr.toNat 36 31, poppedHeader src o :: o.words⟩
    if messageFits s w && !messageBehind s.msgBuf w then .done (enterMessage (receiveEdge s src o g m) w) []
    else if messageBytes (s.msgBuf ++ [w]) ≤ 2 ^ 19 then
      .done { receiveEdge s src o g m with msgBuf := s.msgBuf ++ [w] } []
    else .wait s

/-- Does the context a message waits for still take it? -/
def messageAlive (s : State) (w : MsgWait) : Bool :=
  match findGang s w.gang with
  | none => false
  | some g => g.killed.isNone && !(getCtx g w.member).halted

/-- The first waiting message that may enter, with those before and after it. -/
def releasable (s : State) : List MsgWait → List MsgWait → Option (MsgWait × List MsgWait)
  | _, [] => none
  | before, w :: r =>
    if messageFits s w && !messageBehind before w then some (w, before ++ r) else releasable s (before ++ [w]) r

/-- MESSAGE_BUFFER_RELEASE (R394): messages for contexts that have ended go; the first with room enters its FIFO; and what
a full buffer withheld is returned once it has room. -/
def execMessageBufferRelease (s : State) : Host.Outcome State Fault Refusal :=
  let s := { s with msgBuf := s.msgBuf.filter (messageAlive s) }
  .next ((List.range 48).foldl payReturns (match releasable s [] s.msgBuf with
    | none => s
    | some (w, r) => enterMessage { s with msgBuf := r } w))

/-! ### At the target: performing a packet once (R407, R409) -/

/-- A packet answered before. -/
def remembered (s : State) (src seq : Nat) : Option SeqMem := s.seqMem.find? fun e => e.dev = src && e.seq = seq

/-- Answer a packet: this device's own operation resolves at once. -/
def respond (s : State) (src : Nat) (o : RemOp) (ok : Bool) (ws : List Word) : State :=
  if src = s.devId then resolveOp s src o.seq ok ws
  else placePackets { s with replies := s.replies ++ [⟨src, o.seq, ok, ws, none⟩] }

/-- Answer a packet for the first time, and remember the answer to another device's. -/
def answer (s : State) (src : Nat) (o : RemOp) (ok : Bool) (ws : List Word) : State :=
  respond (if src = s.devId then s else { s with seqMem := s.seqMem ++ [⟨src, o.seq, ok, ws, o⟩] }) src o ok ws

/-- Perform a packet of a device. -/
def performPacketOf (s : State) (src : Nat) (o : RemOp) (out : MemOut) : AccOut :=
  match o.kind with
  | .msg => acceptMessage s src o
  | .mark => .done s [o.addr]
  | .abort => .wait s
  | .store | .load | .atomic _ | .read _ => accessTarget s o out
  | .pull k m i => sendBlock s o k m.val i.val
  | .origin b => answerOrigin s o b

/-- Must a packet of another device wait: a marker for the packets of its link before it (R404), another for an earlier one
of its order (R409), which its header names or which waits here? -/
def waitsBehind (s : State) (r : ReqPacket) : Bool :=
  if r.kind = .mark then
    (s.pendIn.takeWhile fun x => x.pkt != .req r || x.dst != s.devId).any fun x => Transit.inPort x.pkt = r.port.val
  else
    (match r.after with
      | none => false
      | some n => (remembered s r.dev.toNat n.toNat).isNone) ||
    s.pendIn.any fun x => match x.pkt with
      | .req y => x.dst = s.devId && y.dev = r.dev && decide (y.sn.toNat < r.sn.toNat) &&
          ordered (transitOp y s.devId) (transitOp r s.devId)
      | .rsp _ => false

/-- Has a later packet of its order been performed already? Then its sender has given this one up, and it would come out of
order (R408, R409; DESIGN CHOICE, log entry 110). -/
def tooLate (s : State) (src : Nat) (o : RemOp) : Bool :=
  s.seqMem.any fun e => e.dev = src && e.ok && decide (o.seq < e.seq) && ordered o e.op

/-- Handle a packet (R396, R407, R409): answered again if it was answered before; dropped if it comes too late; refused
before stage 3; performed or refused. The second part: it has left its buffer. -/
def handleRequest (s : State) (src : Nat) (o : RemOp) (behind : Bool) (out : MemOut) : State × Bool :=
  match remembered s src o.seq with
  | some e => (respond s src o e.ok e.words, true)
  | none =>
    if behind then (s, false)
    else if tooLate s src o then (s, true)
    else if src ≠ s.devId ∧ s.stage ≠ .service ∧ o.kind ≠ .mark then (answer s src o false [], true)
    else
      match performPacketOf s src o out with
      | .wait s => (s, false)
      | .refused s => (answer s src o false [], true)
      | .done s ws => (answer s src o true ws, true)

/-- A link has brought a message (R394). -/
def bringMessage (s : State) (r : ReqPacket) : State :=
  if r.kind = .msg ∧ (linkOf s r.port.val).st = .up then setLink s r.port.val { linkOf s r.port.val with msgs := true } else s

/-- A packet of another device at the head of its link: it is handled and leaves the link's buffer, or waits there (R390). -/
def arriveRequest (s : State) (r : ReqPacket) (out : MemOut) : State :=
  let x := handleRequest (bringMessage s r) r.dev.toNat (transitOp r s.devId) (waitsBehind s r) out
  if x.2 then
    returnFlits { x.1 with pendIn := x.1.pendIn.filter fun y => !(y.pkt = .req r && y.dst = s.devId) } r.port.val false
      (flitsOf r.words.length) ((heldIn s (.req r) s.devId).any fun y => y.stale)
  else holdPacketIn x.1 (.req r) s.devId

/-- An operation of this device to itself that may be performed now (DEDUCED, log entry 66). -/
def loopback (s : State) (seq : Nat) : Option RemOp :=
  match openOp s s.devId seq with
  | none => none
  | some o =>
    let before := (s.remote.takeWhile fun x => x ≠ o).filter fun x => x.dev = s.devId && !x.lost && x.ans.isNone &&
      (x.kind != .mark || decide (x.port = 31))
    if !o.sent || o.kind = .abort || (decide (o.kind = .mark) && decide (o.port ≠ 31)) then none
    else if o.kind = .mark then (if before.isEmpty then some o else none)
    else if before.any (ordered o) then none
    else some o

/-- REMOTE_REQUEST_ARRIVAL (R396): for a packet of this device to itself only its number matters. -/
def execRemoteRequestArrival (r : ReqPacket) (out : MemOut) (s : State) : Host.Outcome State Fault Refusal :=
  .next (if !fabricRuns s || decide (r.kind = .abort) then s
    else if r.dev.toNat = s.devId then
      (match loopback s r.sn.toNat with
        | none => s
        | some o => (handleRequest s s.devId o false out).1)
    else arriveRequest s r out)

/-- SEQUENCE_MEMORY_EXPIRY (R407). -/
def execSequenceMemoryExpiry (dev : BitVec 15) (sn : BitVec 48) (s : State) : Host.Outcome State Fault Refusal :=
  .next { s with seqMem := s.seqMem.filter fun e => !(e.dev = dev.toNat && e.seq = sn.toNat) }

/-! ### Aborts (R411) -/

/-- Place an abort word at the tail of every inbound FIFO of a member. -/
def placeAbort (s : State) (gid m group : Nat) : State :=
  modCtxOf s gid m fun c => { c with fifos := c.fifos.map fun f => { f with ib := f.ib ++ [.abort group] } }

/-- An abort packet: its endpoint takes it where it runs a task of the group. -/
def takeAbort (s : State) (src : Nat) (o : RemOp) : State :=
  let group := (o.words.headD 0).toNat
  if (remembered s src o.seq).isSome then respond s src o true []
  else
    let s := match endpoint s o.addr.toNat fun g => g.task.groups.contains group with
      | none => s
      | some (g, m) => placeAbort s g.id m group
    answer s src o true []

/-- ABORT_ARRIVAL (R411). -/
def execAbortArrival (r : ReqPacket) (s : State) : Host.Outcome State Fault Refusal :=
  .next (if !fabricRuns s || decide (r.kind ≠ .abort) then s
    else if r.dev.toNat = s.devId then
      (match openOp s s.devId r.sn.toNat with
        | none => s
        | some o => if o.kind = .abort then takeAbort s s.devId o else s)
    else returnFlits (takeAbort s r.dev.toNat (transitOp r s.devId)) r.port.val false (flitsOf r.words.length))

end Sys2Proof.Machine
end

