-- ==== Sys2Proof/Machine/Dispatch.lean ====
section
/-! DEFINITION. Dispatch: the meaning of every instruction, one arm each. A slot acts on the bundle being issued; every
other step acts on the whole machine. -/

namespace Sys2Proof.Machine

/-- The meaning of an instruction. -/
def exec (i : Instr) (s : State) : Host.Outcome State Fault Refusal :=
  match i with
  | .sxNop => Sys2Proof.Machine.execSxNop s
  | .sxAdd d a b ty q => Sys2Proof.Machine.execSxAdd d a b ty q s
  | .sxSub d a b ty q => Sys2Proof.Machine.execSxSub d a b ty q s
  | .sxMul d a b ty q => Sys2Proof.Machine.execSxMul d a b ty q s
  | .sxMulh d a b ty q => Sys2Proof.Machine.execSxMulh d a b ty q s
  | .sxDiv d a b ty q => Sys2Proof.Machine.execSxDiv d a b ty q s
  | .sxRem d a b ty q => Sys2Proof.Machine.execSxRem d a b ty q s
  | .sxMin d a b ty q => Sys2Proof.Machine.execSxMin d a b ty q s
  | .sxMax d a b ty q => Sys2Proof.Machine.execSxMax d a b ty q s
  | .sxAnd d a b ty q => Sys2Proof.Machine.execSxAnd d a b ty q s
  | .sxOr d a b ty q => Sys2Proof.Machine.execSxOr d a b ty q s
  | .sxXor d a b ty q => Sys2Proof.Machine.execSxXor d a b ty q s
  | .sxShl d a b ty q => Sys2Proof.Machine.execSxShl d a b ty q s
  | .sxShr d a b ty q => Sys2Proof.Machine.execSxShr d a b ty q s
  | .sxSra d a b ty q => Sys2Proof.Machine.execSxSra d a b ty q s
  | .sxClz d a ty q => Sys2Proof.Machine.execSxClz d a ty q s
  | .sxCtz d a ty q => Sys2Proof.Machine.execSxCtz d a ty q s
  | .sxCnt d a ty q => Sys2Proof.Machine.execSxCnt d a ty q s
  | .sxExt d a b ty q => Sys2Proof.Machine.execSxExt d a b ty q s
  | .sxMov d a ty q => Sys2Proof.Machine.execSxMov d a ty q s
  | .sxCeq d a b ty q => Sys2Proof.Machine.execSxCeq d a b ty q s
  | .sxClt d a b ty q => Sys2Proof.Machine.execSxClt d a b ty q s
  | .sxCle d a b ty q => Sys2Proof.Machine.execSxCle d a b ty q s
  | .sxSel d a b ty q => Sys2Proof.Machine.execSxSel d a b ty q s
  | .sxQset d a ty q => Sys2Proof.Machine.execSxQset d a ty q s
  | .sxFadd d a b r q => Sys2Proof.Machine.execSxFadd d a b r q s
  | .sxFmul d a b r q => Sys2Proof.Machine.execSxFmul d a b r q s
  | .sxFma d a b r q => Sys2Proof.Machine.execSxFma d a b r q s
  | .sxFceq d a b r q => Sys2Proof.Machine.execSxFceq d a b r q s
  | .sxFclt d a b r q => Sys2Proof.Machine.execSxFclt d a b r q s
  | .sxFcvi d a r q => Sys2Proof.Machine.execSxFcvi d a r q s
  | .sxFcif d a r q => Sys2Proof.Machine.execSxFcif d a r q s
  | .siLi d k => Sys2Proof.Machine.execSiLi d k s
  | .siIh1 d k => Sys2Proof.Machine.execSiIh1 d k s
  | .siIh2 d k => Sys2Proof.Machine.execSiIh2 d k s
  | .siIh3 d k => Sys2Proof.Machine.execSiIh3 d k s
  | .siAddi d k => Sys2Proof.Machine.execSiAddi d k s
  | .siOri d k => Sys2Proof.Machine.execSiOri d k s
  | .siCeqi d k => Sys2Proof.Machine.execSiCeqi d k s
  | .siClti d k => Sys2Proof.Machine.execSiClti d k s
  | .brJ k => Sys2Proof.Machine.execBrJ k s
  | .brCall d k => Sys2Proof.Machine.execBrCall d k s
  | .brBz d k => Sys2Proof.Machine.execBrBz d k s
  | .brBnz d k => Sys2Proof.Machine.execBrBnz d k s
  | .brBlt d k => Sys2Proof.Machine.execBrBlt d k s
  | .brBge d k => Sys2Proof.Machine.execBrBge d k s
  | .brBq d k => Sys2Proof.Machine.execBrBq d k s
  | .brBnq d k => Sys2Proof.Machine.execBrBnq d k s
  | .brJr a => Sys2Proof.Machine.execBrJr a s
  | .brRet a => Sys2Proof.Machine.execBrRet a s
  | .brLvl a b l => Sys2Proof.Machine.execBrLvl a b l s
  | .brLoop l n => Sys2Proof.Machine.execBrLoop l n s
  | .brLend l a => Sys2Proof.Machine.execBrLend l a s
  | .brBud d => Sys2Proof.Machine.execBrBud d s
  | .adLd d p a b z q => Sys2Proof.Machine.execAdLd d p a b z q s
  | .adSt d p a b z q => Sys2Proof.Machine.execAdSt d p a b z q s
  | .adVld d p a b q => Sys2Proof.Machine.execAdVld d p a b q s
  | .adVst d p a b q => Sys2Proof.Machine.execAdVst d p a b q s
  | .adFld d p a b z q => Sys2Proof.Machine.execAdFld d p a b z q s
  | .adFst d p a b z q => Sys2Proof.Machine.execAdFst d p a b z q s
  | .adTch p a b q => Sys2Proof.Machine.execAdTch p a b q s
  | .adAdd d a b q => Sys2Proof.Machine.execAdAdd d a b q s
  | .adMov d b q => Sys2Proof.Machine.execAdMov d b q s
  | .adGet d a q => Sys2Proof.Machine.execAdGet d a q s
  | .adAadd d a b o w q => Sys2Proof.Machine.execAdAadd d a b o w q s
  | .adAand d a b o w q => Sys2Proof.Machine.execAdAand d a b o w q s
  | .adAor d a b o w q => Sys2Proof.Machine.execAdAor d a b o w q s
  | .adAxor d a b o w q => Sys2Proof.Machine.execAdAxor d a b o w q s
  | .adAmin d a b o w q => Sys2Proof.Machine.execAdAmin d a b o w q s
  | .adAmax d a b o w q => Sys2Proof.Machine.execAdAmax d a b o w q s
  | .adNmin d a b o w q => Sys2Proof.Machine.execAdNmin d a b o w q s
  | .adNmax d a b o w q => Sys2Proof.Machine.execAdNmax d a b o w q s
  | .adXchg d a b o w q => Sys2Proof.Machine.execAdXchg d a b o w q s
  | .adCas d a b o w q => Sys2Proof.Machine.execAdCas d a b o w q s
  | .adFadd d a b o q => Sys2Proof.Machine.execAdFadd d a b o q s
  | .adBadd d a b o q => Sys2Proof.Machine.execAdBadd d a b o q s
  | .vxAdd d a b f q r => Sys2Proof.Machine.execVxAdd d a b f q r s
  | .vxSub d a b f q r => Sys2Proof.Machine.execVxSub d a b f q r s
  | .vxMul d a b f q r => Sys2Proof.Machine.execVxMul d a b f q r s
  | .vxFma d a b f q r => Sys2Proof.Machine.execVxFma d a b f q r s
  | .vxMin d a b f q => Sys2Proof.Machine.execVxMin d a b f q s
  | .vxMax d a b f q => Sys2Proof.Machine.execVxMax d a b f q s
  | .vxAbs d a f q => Sys2Proof.Machine.execVxAbs d a f q s
  | .vxNeg d a f q => Sys2Proof.Machine.execVxNeg d a f q s
  | .vxAnd d a b q => Sys2Proof.Machine.execVxAnd d a b q s
  | .vxOr d a b q => Sys2Proof.Machine.execVxOr d a b q s
  | .vxXor d a b q => Sys2Proof.Machine.execVxXor d a b q s
  | .vxNot d a q => Sys2Proof.Machine.execVxNot d a q s
  | .vxShl d a b f q => Sys2Proof.Machine.execVxShl d a b f q s
  | .vxShr d a b f q => Sys2Proof.Machine.execVxShr d a b f q s
  | .vxSra d a b f q => Sys2Proof.Machine.execVxSra d a b f q s
  | .vxMulh d a b f q => Sys2Proof.Machine.execVxMulh d a b f q s
  | .vxAdds d a b f q => Sys2Proof.Machine.execVxAdds d a b f q s
  | .vxSubs d a b f q => Sys2Proof.Machine.execVxSubs d a b f q s
  | .vxMov d a q => Sys2Proof.Machine.execVxMov d a q s
  | .vxSel d a b q => Sys2Proof.Machine.execVxSel d a b q s
  | .vxCeq d a b f q => Sys2Proof.Machine.execVxCeq d a b f q s
  | .vxCne d a b f q => Sys2Proof.Machine.execVxCne d a b f q s
  | .vxClt d a b f q => Sys2Proof.Machine.execVxClt d a b f q s
  | .vxCle d a b f q => Sys2Proof.Machine.execVxCle d a b f q s
  | .vxQand d a b q => Sys2Proof.Machine.execVxQand d a b q s
  | .vxQor d a b q => Sys2Proof.Machine.execVxQor d a b q s
  | .vxQxor d a b q => Sys2Proof.Machine.execVxQxor d a b q s
  | .vxQnot d a q => Sys2Proof.Machine.execVxQnot d a q s
  | .vxPerm d a b q => Sys2Proof.Machine.execVxPerm d a b q s
  | .vxLsh d a b q => Sys2Proof.Machine.execVxLsh d a b q s
  | .vxLrot d a b q => Sys2Proof.Machine.execVxLrot d a b q s
  | .vxBcast d a f q => Sys2Proof.Machine.execVxBcast d a f q s
  | .vxExt d a b f q => Sys2Proof.Machine.execVxExt d a b f q s
  | .vxRadd d a f q => Sys2Proof.Machine.execVxRadd d a f q s
  | .vxRmax d a f q => Sys2Proof.Machine.execVxRmax d a f q s
  | .vxRmin d a f q => Sys2Proof.Machine.execVxRmin d a f q s
  | .vxRcp d a f q => Sys2Proof.Machine.execVxRcp d a f q s
  | .vxRsq d a f q => Sys2Proof.Machine.execVxRsq d a f q s
  | .vxExp2 d a f q => Sys2Proof.Machine.execVxExp2 d a f q s
  | .vxLog2 d a f q => Sys2Proof.Machine.execVxLog2 d a f q s
  | .vyCvt d a part sf f q r => Sys2Proof.Machine.execVyCvt d a part sf f q r s
  | .vyCvs d a part sf f q => Sys2Proof.Machine.execVyCvs d a part sf f q s
  | .vyCvo d a part sf f q => Sys2Proof.Machine.execVyCvo d a part sf f q s
  | .vyPpk d a n3 sf n q => Sys2Proof.Machine.execVyPpk d a n3 sf n q s
  | .vyPun d a n3 sf n q => Sys2Proof.Machine.execVyPun d a n3 sf n q s
  | .mxMma t z a lake f pl => Sys2Proof.Machine.execMxMma t z a lake f pl s
  | .mxMms t z a lake f pl => Sys2Proof.Machine.execMxMms t z a lake f pl s
  | .mxClr t q => Sys2Proof.Machine.execMxClr t q s
  | .mxDrn t clr a hi b q => Sys2Proof.Machine.execMxDrn t clr a hi b q s
  | .mxFil t a hi b q => Sys2Proof.Machine.execMxFil t a hi b q s
  | .mxSt t out a f q => Sys2Proof.Machine.execMxSt t out a f q s
  | .mxLd t a bf q => Sys2Proof.Machine.execMxLd t a bf q s
  | .mxCmp a inc b f q => Sys2Proof.Machine.execMxCmp a inc b f q s
  | .mxTsr t b q => Sys2Proof.Machine.execMxTsr t b q s
  | .mxAcp t add src q => Sys2Proof.Machine.execMxAcp t add src q s
  | .lkAlloc d a b f sp q => Sys2Proof.Machine.execLkAlloc d a b f sp q s
  | .lkLoad a q => Sys2Proof.Machine.execLkLoad a q s
  | .lkPin a q => Sys2Proof.Machine.execLkPin a q s
  | .lkUnpin a q => Sys2Proof.Machine.execLkUnpin a q s
  | .lkRevk a q => Sys2Proof.Machine.execLkRevk a q s
  | .lkQry d a q => Sys2Proof.Machine.execLkQry d a q s
  | .lkQuota a b q => Sys2Proof.Machine.execLkQuota a b q s
  | .lkSclr a q => Sys2Proof.Machine.execLkSclr a q s
  | .cpLvl d a b ch q => Sys2Proof.Machine.execCpLvl d a b ch q s
  | .cpSrc a ch far q => Sys2Proof.Machine.execCpSrc a ch far q s
  | .cpDst a ch far q => Sys2Proof.Machine.execCpDst a ch far q s
  | .cpBnd d a b ch q => Sys2Proof.Machine.execCpBnd d a b ch q s
  | .cpGo a b ch dec q => Sys2Proof.Machine.execCpGo a b ch dec q s
  | .cpWmk d ch q => Sys2Proof.Machine.execCpWmk d ch q s
  | .cpCncl ch q => Sys2Proof.Machine.execCpCncl ch q s
  | .cpRpl a q => Sys2Proof.Machine.execCpRpl a q s
  | .cpBput a q => Sys2Proof.Machine.execCpBput a q s
  | .cpBlat a q => Sys2Proof.Machine.execCpBlat a q s
  | .rsGo a q => Sys2Proof.Machine.execRsGo a q s
  | .rsStat d q => Sys2Proof.Machine.execRsStat d q s
  | .fxPush port b q => Sys2Proof.Machine.execFxPush port b q s
  | .fxPop port b q => Sys2Proof.Machine.execFxPop port b q s
  | .fxSt port a b w q => Sys2Proof.Machine.execFxSt port a b w q s
  | .fxLd port a w q => Sys2Proof.Machine.execFxLd port a w q s
  | .fxAt port a b op q => Sys2Proof.Machine.execFxAt port a b op q s
  | .fxRep port a b w q => Sys2Proof.Machine.execFxRep port a b w q s
  | .fxMark port b q => Sys2Proof.Machine.execFxMark port b q s
  | .fxDrn b q => Sys2Proof.Machine.execFxDrn b q s
  | .fxMsg port b q => Sys2Proof.Machine.execFxMsg port b q s
  | .fxLst port b q => Sys2Proof.Machine.execFxLst port b q s
  | .syFence ord sc q => Sys2Proof.Machine.execSyFence ord sc q s
  | .syXf paths q => Sys2Proof.Machine.execSyXf paths q s
  | .syDrn d paths sc q => Sys2Proof.Machine.execSyDrn d paths sc q s
  | .syWait d sc q => Sys2Proof.Machine.execSyWait d sc q s
  | .syPhase d q => Sys2Proof.Machine.execSyPhase d q s
  | .syLcr d q => Sys2Proof.Machine.execSyLcr d q s
  | .trTrap k => Sys2Proof.Machine.execTrTrap k s
  | .trRft q => Sys2Proof.Machine.execTrRft q s
  | .trRfu q => Sys2Proof.Machine.execTrRfu q s
  | .trCsrr d n => Sys2Proof.Machine.execTrCsrr d n s
  | .trCsrw d n => Sys2Proof.Machine.execTrCsrw d n s
  | .trYld q => Sys2Proof.Machine.execTrYld q s
  | .trHalt q => Sys2Proof.Machine.execTrHalt q s
  | .trKill a q => Sys2Proof.Machine.execTrKill a q s
  | .scUse a b q => Sys2Proof.Machine.execScUse a b q s
  | .scLd d a b q => Sys2Proof.Machine.execScLd d a b q s
  | .scLdm a b q => Sys2Proof.Machine.execScLdm a b q s
  | .pxRep n => Sys2Proof.Machine.execPxRep n s
  | .pxFirst l => Sys2Proof.Machine.execPxFirst l s
  | .pxLast l => Sys2Proof.Machine.execPxLast l s
  | .pxSeg n => Sys2Proof.Machine.execPxSeg n s
  | .issueCycle cl err => Sys2Proof.Machine.execIssueCycle cl err s
  | .dcHello client seq => Sys2Proof.Machine.execDcHello client seq s
  | .dcGet client seq addr len => Sys2Proof.Machine.execDcGet client seq addr len s
  | .dcPut client seq addr bs => Sys2Proof.Machine.execDcPut client seq addr bs s
  | .dcKick client seq qn tail => Sys2Proof.Machine.execDcKick client seq qn tail s
  | .dcQcreate client seq qn prio sup npkt ring => Sys2Proof.Machine.execDcQcreate client seq qn prio sup npkt ring s
  | .dcQdestroy client seq qn => Sys2Proof.Machine.execDcQdestroy client seq qn s
  | .dcQreset client seq qn => Sys2Proof.Machine.execDcQreset client seq qn s
  | .dcQstatus client seq qn => Sys2Proof.Machine.execDcQstatus client seq qn s
  | .dcWindow client seq addr len dir => Sys2Proof.Machine.execDcWindow client seq addr len dir s
  | .dcLoad client seq addr len => Sys2Proof.Machine.execDcLoad client seq addr len s
  | .dcUnload client seq img => Sys2Proof.Machine.execDcUnload client seq img s
  | .dcQuiesce client seq area us => Sys2Proof.Machine.execDcQuiesce client seq area us s
  | .pkNop q => Sys2Proof.Machine.execPkNop q s
  | .pkLaunch q img prio svc cluster cmask iseg xdesc cw crec phase savep => Sys2Proof.Machine.execPkLaunch q img prio svc cluster cmask iseg xdesc cw crec phase savep s
  | .pkCall q base len => Sys2Proof.Machine.execPkCall q base len s
  | .pkRet q => Sys2Proof.Machine.execPkRet q s
  | .pkPred q word value mask cond skip => Sys2Proof.Machine.execPkPred q word value mask cond skip s
  | .pkLoop q count body => Sys2Proof.Machine.execPkLoop q count body s
  | .pkFence q => Sys2Proof.Machine.execPkFence q s
  | .pkWrite q addr value add rel => Sys2Proof.Machine.execPkWrite q addr value add rel s
  | .pkWait q word thresh notify async task mem tag => Sys2Proof.Machine.execPkWait q word thresh notify async task mem tag s
  | .pkSignal q word dec => Sys2Proof.Machine.execPkSignal q word dec s
  | .pkStamp q addr => Sys2Proof.Machine.execPkStamp q addr s
  | .pkLakeRevoke q task mem l => Sys2Proof.Machine.execPkLakeRevoke q task mem l s
  | .pkLakeQuota q tenant limit => Sys2Proof.Machine.execPkLakeQuota q tenant limit s
  | .pkReshard q plan => Sys2Proof.Machine.execPkReshard q plan s
  | .pkKill q task => Sys2Proof.Machine.execPkKill q task s
  | .pkPreempt q task savep => Sys2Proof.Machine.execPkPreempt q task savep s
  | .pkResume q ibase prio cluster cmask iseg cw crec phase savep => Sys2Proof.Machine.execPkResume q ibase prio cluster cmask iseg cw crec phase savep s
  | .pkCrpl q cl chan => Sys2Proof.Machine.execPkCrpl q cl chan s
  | .pkRing q base nent => Sys2Proof.Machine.execPkRing q base nent s
  | .pkSteerInstall q rule ports udp task base slotLog nslotLog member cluster => Sys2Proof.Machine.execPkSteerInstall q rule ports udp task base slotLog nslotLog member cluster s
  | .pkSteerRemove q rule => Sys2Proof.Machine.execPkSteerRemove q rule s
  | .starvationPromotion task => Sys2Proof.Machine.execStarvationPromotion task s
  | .registerResultLands task m => Sys2Proof.Machine.execRegisterResultLands task m s
  | .queueLoadDataArrival task m => Sys2Proof.Machine.execQueueLoadDataArrival task m s
  | .queueStorePairing task m => Sys2Proof.Machine.execQueueStorePairing task m s
  | .repeatReissue task m => Sys2Proof.Machine.execRepeatReissue task m s
  | .heldWritePerformed task m => Sys2Proof.Machine.execHeldWritePerformed task m s
  | .arrayOpComplete cl co out => Sys2Proof.Machine.execArrayOpComplete cl co out s
  | .lakeFillStart task m l => Sys2Proof.Machine.execLakeFillStart task m l s
  | .lakeFillComplete task m l out => Sys2Proof.Machine.execLakeFillComplete task m l out s
  | .klsvcRefill task m l => Sys2Proof.Machine.execKlsvcRefill task m l s
  | .klsvcAccept task m l => Sys2Proof.Machine.execKlsvcAccept task m l s
  | .klsvcRevoke task m l => Sys2Proof.Machine.execKlsvcRevoke task m l s
  | .copyTransferStart cl co ch => Sys2Proof.Machine.execCopyTransferStart cl co ch s
  | .copyChunk cl co ch out => Sys2Proof.Machine.execCopyChunk cl co ch out s
  | .pageWalkComplete task m e out => Sys2Proof.Machine.execPageWalkComplete task m e out s
  | .farStorePerformed task m ix out => Sys2Proof.Machine.execFarStorePerformed task m ix out s
  | .farLoadDataArrival task m ix out => Sys2Proof.Machine.execFarLoadDataArrival task m ix out s
  | .kxinvWrite task m v => Sys2Proof.Machine.execKxinvWrite task m v s
  | .invalidationComplete task m => Sys2Proof.Machine.execInvalidationComplete task m s
  | .invalidationTimeout task m => Sys2Proof.Machine.execInvalidationTimeout task m s
  | .touchExpiry task m e => Sys2Proof.Machine.execTouchExpiry task m e s
  | .drainComplete task => Sys2Proof.Machine.execDrainComplete task s
  | .waitReread task => Sys2Proof.Machine.execWaitReread task s
  | .userInterruptTaken task m => Sys2Proof.Machine.execUserInterruptTaken task m s
  | .kuipWrite task m v => Sys2Proof.Machine.execKuipWrite task m v s
  | .kbudgetWrite v => Sys2Proof.Machine.execKbudgetWrite v s
  | .supervisorRecordDelivery => Sys2Proof.Machine.execSupervisorRecordDelivery s
  | .preemption task => Sys2Proof.Machine.execPreemption task s
  | .blockPullComplete task kind m ix out => Sys2Proof.Machine.execBlockPullComplete task kind m ix out s
  | .blockWriteOut ibase kind m ix => Sys2Proof.Machine.execBlockWriteOut ibase kind m ix s
  | .kisvcRetry ticket => Sys2Proof.Machine.execKisvcRetry ticket s
  | .kisvcAbandon ticket => Sys2Proof.Machine.execKisvcAbandon ticket s
  | .segmentArrival task m seg => Sys2Proof.Machine.execSegmentArrival task m seg s
  | .engineAccessGuard cl bank row => Sys2Proof.Machine.execEngineAccessGuard cl bank row s
  | .clusterRetest cl => Sys2Proof.Machine.execClusterRetest cl s
  | .hostPacketArrival hp udp bs => Sys2Proof.Machine.execHostPacketArrival hp udp bs s
  | .deceoMessageReceived bs => Sys2Proof.Machine.execDeceoMessageReceived bs s
  | .rdmaWrite rkey addr bs => Sys2Proof.Machine.execRdmaWrite rkey addr bs s
  | .rdmaRead rkey addr len => Sys2Proof.Machine.execRdmaRead rkey addr len s
  | .siennaExecutiveCycle ix => Sys2Proof.Machine.execSiennaExecutiveCycle ix s
  | .waitSatisfied async ix => Sys2Proof.Machine.execWaitSatisfied async ix s
  | .waitPoll async ix => Sys2Proof.Machine.execWaitPoll async ix s
  | .taskDispatch far => Sys2Proof.Machine.execTaskDispatch far s
  | .taskCompletion task => Sys2Proof.Machine.execTaskCompletion task s
  | .remoteRequestArrival r out => Sys2Proof.Machine.execRemoteRequestArrival r out s
  | .remoteReplyArrival port dev sn ans => Sys2Proof.Machine.execRemoteReplyArrival port dev sn ans s
  | .messageBufferRelease => Sys2Proof.Machine.execMessageBufferRelease s
  | .markerTimeout dev sn => Sys2Proof.Machine.execMarkerTimeout dev sn s
  | .resendTimer dev sn => Sys2Proof.Machine.execResendTimer dev sn s
  | .peerTimeout dev sn => Sys2Proof.Machine.execPeerTimeout dev sn s
  | .sequenceMemoryExpiry dev sn => Sys2Proof.Machine.execSequenceMemoryExpiry dev sn s
  | .creditReturn port rsp n => Sys2Proof.Machine.execCreditReturn port rsp n s
  | .abortArrival r => Sys2Proof.Machine.execAbortArrival r s
  | .signalLock port => Sys2Proof.Machine.execSignalLock port s
  | .trainingComplete port peer peerPort => Sys2Proof.Machine.execTrainingComplete port peer peerPort s
  | .signalLoss port => Sys2Proof.Machine.execSignalLoss port s
  | .darkTimeout port => Sys2Proof.Machine.execDarkTimeout port s
  | .linkErrorFence port ecc => Sys2Proof.Machine.execLinkErrorFence port ecc s
  | .kflctlFence port => Sys2Proof.Machine.execKflctlFence port s
  | .kflctlUnfence port => Sys2Proof.Machine.execKflctlUnfence port s
  | .kflctlRetrain port => Sys2Proof.Machine.execKflctlRetrain port s
  | .planClaim who => Sys2Proof.Machine.execPlanClaim who s
  | .planStep ix out => Sys2Proof.Machine.execPlanStep ix out s
  | .powerOnReset bist => Sys2Proof.Machine.execPowerOnReset bist s
  | .resetInput bist => Sys2Proof.Machine.execResetInput bist s
  | .watchdogReset bist => Sys2Proof.Machine.execWatchdogReset bist s
  | .testRunJudged cl => Sys2Proof.Machine.execTestRunJudged cl s
  | .testRunTimeout cl => Sys2Proof.Machine.execTestRunTimeout cl s
  | .mgIdentify => Sys2Proof.Machine.execMgIdentify s
  | .mgSensors sid => Sys2Proof.Machine.execMgSensors sid s
  | .mgLogRead sid first => Sys2Proof.Machine.execMgLogRead sid first s
  | .mgFwWrite sid ochre bs cut => Sys2Proof.Machine.execMgFwWrite sid ochre bs cut s
  | .mgFwActivate sid ochre => Sys2Proof.Machine.execMgFwActivate sid ochre s
  | .mgFwCommit sid ochre => Sys2Proof.Machine.execMgFwCommit sid ochre s
  | .fwRevert ochre => Sys2Proof.Machine.execFwRevert ochre s
  | .mgReset sid bist => Sys2Proof.Machine.execMgReset sid bist s
  | .mgPowerCap sid watts => Sys2Proof.Machine.execMgPowerCap sid watts s
  | .mgProvision sid es => Sys2Proof.Machine.execMgProvision sid es s
  | .mgProtect sid base len => Sys2Proof.Machine.execMgProtect sid base len s
  | .mgUnprotect sid base len => Sys2Proof.Machine.execMgUnprotect sid base len s
  | .mgClusterState sid => Sys2Proof.Machine.execMgClusterState sid s
  | .mgRepairRead sid => Sys2Proof.Machine.execMgRepairRead sid s
  | .mgSetKey sid tenant key bs => Sys2Proof.Machine.execMgSetKey sid tenant key bs s
  | .spGetCertificate => Sys2Proof.Machine.execSpGetCertificate s
  | .spChallenge bs => Sys2Proof.Machine.execSpChallenge bs s
  | .spGetMeasurements ix => Sys2Proof.Machine.execSpGetMeasurements ix s
  | .spKeyExchange sid bs period => Sys2Proof.Machine.execSpKeyExchange sid bs period s
  | .spFinish sid cert bs => Sys2Proof.Machine.execSpFinish sid cert bs s
  | .spKeyUpdate sid => Sys2Proof.Machine.execSpKeyUpdate sid s
  | .spHeartbeat sid => Sys2Proof.Machine.execSpHeartbeat sid s
  | .spEndSession sid => Sys2Proof.Machine.execSpEndSession sid s
  | .sessionExpiry sid => Sys2Proof.Machine.execSessionExpiry sid s
  | .sensorSample rs bist => Sys2Proof.Machine.execSensorSample rs bist s
  | .ptpLock sec ns => Sys2Proof.Machine.execPtpLock sec ns s
  | .retrainingFailed port => Sys2Proof.Machine.execRetrainingFailed port s
  | .quiesceTimeout => Sys2Proof.Machine.execQuiesceTimeout s
  | .mainPowerLoss => Sys2Proof.Machine.execMainPowerLoss s
  | .ochreReset => Sys2Proof.Machine.execOchreReset s
  | .packetForwarding x dst => Sys2Proof.Machine.execPacketForwarding x dst s
  | .flitCrcFailure port => Sys2Proof.Machine.execFlitCrcFailure port s

end Sys2Proof.Machine
end

