-- ==== Sys2Proof/Machine/Step.lean ====
section
/-! DEFINITION. Step: one step of the machine, and the placing of one instruction where the next step fetches it. -/

namespace Sys2Proof.Machine

/-- One step (DESIGN CHOICE, log entry 1): the event at the head of the agenda, or, with none, a wall cycle of the cluster whose turn it
is (DESIGN CHOICE, log entry 76). -/
def step (s : State) : Host.Outcome State Fault Refusal :=
  match s.agenda with
  | i :: r => exec i { s with agenda := r }
  | [] => exec (.issueCycle (Fin.ofNat 40 s.turn) .ok) { s with turn := (s.turn + 1) % 40 }

/-- The four words of a bundle around one word (R47, R53): a stop slot comes last, px.rep and sc.use stand before a
matrix operation. -/
def fetchBundle (w : Nat) : List Nat :=
  let stop := (encode .sxNop).getD 0 + 2 ^ 31
  let mma := (encode (.mxMma 0 false 0 0 .t8 1)).getD 0
  let nop := (encode .sxNop).getD 0
  if bitAt w 31 then [nop, nop, nop, w]
  else
    match decodeWord w with
    | .ok (.pxRep _) => [w, mma, nop, stop]
    | .ok (.scUse _ _ _) => [w, mma, nop, stop]
    | _ => [w, nop, nop, stop]

/-- A gang of one member on core 0, slot 0 of cluster 0, about to issue the bundle at address 0 of its one segment. -/
def fetchGang : Gang :=
  { id := 1, cluster := 0, slot := 0, members := [{ core := 0, segs := [(0, 0, true)] }] }

/-- The state with one instruction where the next step fetches it: cluster 0 is ONLINE and runs one task, whose next
bundle holds the instruction (DESIGN CHOICE, log entry 14). -/
def State.withFetchWord (s : State) (nbits w : Nat) : State :=
  let code := (fetchBundle (w % 2 ^ min nbits 32)).flatMap fun x => leBytes 4 x
  let k := getCore s 0 0
  let s := setCore s 0 0 { k with imem := memWrites k.imem 0 code, segOwner := vset k.segOwner 0 (some (1, 0)) }
  let s := setCluster s 0 { getCluster s 0 with state := .online, fenced := false, guard := [] }
  { s with agenda := [], turn := 0, iss := none, gangs := [fetchGang], stage := .service, powered := true }

end Sys2Proof.Machine
end

