-- ==== Sys2Proof/Laws/Encoding.lean ====
section
/-! SUPPORT. Encoding: the fields of an encoded word, the codes of every operand type read back, and the joined fields
of a word (two-part registers, ports, paths) taken apart again. -/

namespace Sys2Proof

/-- The fields of a word in the register layout (R44). -/
theorem fieldsOf_layR {c o d a b f q : Nat} (hc : c < 16) (ho : o < 64) (hd : d < 32) (ha : a < 32) (hb : b < 32)
    (hf : f < 8) (hq : q < 8) :
    fieldsOf (layR c o d a b f q) = ⟨c, o, d, a, b, f, q, a * 2048 + b * 64 + f * 8 + q⟩ := by
  simp only [fieldsOf, layR, Fields.mk.injEq]
  omega

/-- The fields of a word in the immediate layout (R45). -/
theorem fieldsOf_layI {c o d im : Nat} (hc : c < 16) (ho : o < 64) (hd : d < 32) (hi : im < 65536) :
    fieldsOf (layI c o d im) = ⟨c, o, d, im / 2048, im / 64 % 32, im / 8 % 8, im % 8, im⟩ := by
  simp only [fieldsOf, layI, Fields.mk.injEq]
  omega

/-- A word in the register layout leaves the stop bit clear. -/
theorem layR_lt {c o d a b f q : Nat} (hc : c < 16) (ho : o < 64) (hd : d < 32) (ha : a < 32) (hb : b < 32)
    (hf : f < 8) (hq : q < 8) : layR c o d a b f q < 2 ^ 31 := by
  simp only [layR]; omega

/-- A word in the immediate layout leaves the stop bit clear. -/
theorem layI_lt {c o d im : Nat} (hc : c < 16) (ho : o < 64) (hd : d < 32) (hi : im < 65536) :
    layI c o d im < 2 ^ 31 := by
  simp only [layI]; omega

/-- A well-formed instruction passes the check. -/
theorem checkValue_of {i : Instr} (h : i.wf = true) : checkValue i = .ok i := by simp [checkValue, h]

/-- Decoding a word in the register layout whose fields pass their gate. -/
theorem decodeWord_layR {c o d a b f q : Nat} {p : Prop} {dec : Decidable p} {i j : Instr}
    (h : c < 16 ∧ o < 64 ∧ d < 32 ∧ a < 32 ∧ b < 32 ∧ f < 8 ∧ q < 8)
    (hg : decodeFields ⟨c, o, d, a, b, f, q, a * 2048 + b * 64 + f * 8 + q⟩ = gate p j) (hp : p) (hj : j = i)
    (hw : i.wf = true) : layR c o d a b f q < 2 ^ 31 ∧ decodeWord (layR c o d a b f q) = .ok i := by
  obtain ⟨hc, ho, hd, ha, hb, hf, hq⟩ := h
  subst hj
  refine ⟨layR_lt hc ho hd ha hb hf hq, ?_⟩
  rw [decodeWord, fieldsOf_layR hc ho hd ha hb hf hq, hg]
  simp [gate, hp, Except.bind, checkValue_of hw]

/-- Decoding a word in the immediate layout whose fields pass their gate, if they have one. -/
theorem decodeWord_layI {c o d im : Nat} {p : Prop} {dec : Decidable p} {i j : Instr}
    (h : c < 16 ∧ o < 64 ∧ d < 32 ∧ im < 65536)
    (hg : decodeFields ⟨c, o, d, im / 2048, im / 64 % 32, im / 8 % 8, im % 8, im⟩ = gate p j) (hp : p) (hj : j = i)
    (hw : i.wf = true) : layI c o d im < 2 ^ 31 ∧ decodeWord (layI c o d im) = .ok i := by
  obtain ⟨hc, ho, hd, hi⟩ := h
  subst hj
  refine ⟨layI_lt hc ho hd hi, ?_⟩
  rw [decodeWord, fieldsOf_layI hc ho hd hi, hg]
  simp [gate, hp, Except.bind, checkValue_of hw]

/-! ### Codes -/

@[simp] theorem ofNat_val {n : Nat} [NeZero n] (x : Fin n) : Fin.ofNat n x.val = x := by
  apply Fin.ext; simp [Fin.ofNat, Nat.mod_eq_of_lt x.isLt]

@[simp] theorem IntTy.ofCode_code (t : IntTy) : IntTy.ofCode t.code = t := by cases t <;> rfl
@[simp] theorem Rnd.ofCode_code (t : Rnd) : Rnd.ofCode t.code = t := by cases t <;> rfl
@[simp] theorem VFmt.ofCode_code (t : VFmt) : VFmt.ofCode t.code = t := by cases t <;> rfl
@[simp] theorem ASize.ofCode_code (t : ASize) : ASize.ofCode t.code = t := by cases t <;> rfl
@[simp] theorem AOrd.ofCode_code (t : AOrd) : AOrd.ofCode t.code = t := by cases t <;> rfl
@[simp] theorem MFmt.ofCode_code (t : MFmt) : MFmt.ofCode t.code = t := by cases t <;> rfl
@[simp] theorem StFmt.ofCode_code (t : StFmt) : StFmt.ofCode t.code = t := by cases t <;> rfl
@[simp] theorem FOrd.ofCode_code (t : FOrd) : FOrd.ofCode t.code = t := by cases t <;> rfl
@[simp] theorem Scope.ofCode_code (t : Scope) : Scope.ofCode t.code = t := by cases t <;> rfl
@[simp] theorem FxOp.ofCode_code (t : FxOp) : FxOp.ofCode t.code = t := by cases t <;> rfl

theorem IntTy.code_lt (t : IntTy) : t.code < 8 := by cases t <;> decide
theorem Rnd.code_lt (t : Rnd) : t.code < 4 := by cases t <;> decide
theorem VFmt.code_lt (t : VFmt) : t.code < 8 := by cases t <;> decide
theorem ASize.code_lt (t : ASize) : t.code < 4 := by cases t <;> decide
theorem AOrd.code_lt (t : AOrd) : t.code < 4 := by cases t <;> decide
theorem MFmt.code_lt (t : MFmt) : t.code < 3 := by cases t <;> decide
theorem StFmt.code_lt (t : StFmt) : t.code < 7 := by cases t <;> decide
theorem FOrd.code_lt (t : FOrd) : t.code < 4 := by cases t <;> decide
theorem FOrd.code_pos (t : FOrd) : 0 < t.code := by cases t <;> decide
theorem Scope.code_lt (t : Scope) : t.code < 5 := by cases t <;> decide
theorem FxOp.code_lt (t : FxOp) : t.code < 8 := by cases t <;> decide

/-! ### Joined fields -/

theorem toNat_lt_two (b : Bool) : b.toNat < 2 := by cases b <;> decide

/-- A number below 16 beside a bit above it. -/
@[simp] theorem ofNat_high (p : Bool) (a : Fin 16) : Fin.ofNat 16 (p.toNat * 16 + a.val) = a := by
  apply Fin.ext; cases p <;> simp [Fin.ofNat]
/-- The bit above a number below 16. -/
@[simp] theorem bitAt_high (p : Bool) (a : Fin 16) : bitAt (p.toNat * 16 + a.val) 4 = p := by
  revert a; cases p <;> decide
/-- A tile or register number above its low bit. -/
@[simp] theorem ofNat_low (t : Fin 16) (z : Bool) : Fin.ofNat 16 ((t.val * 2 + z.toNat) / 2) = t := by
  revert t; cases z <;> decide
/-- The low bit below a number. -/
@[simp] theorem bitAt_low (t : Fin 16) (z : Bool) : bitAt (t.val * 2 + z.toNat) 0 = z := by
  revert t; cases z <;> decide
@[simp] theorem ofNat_dbl (t : Fin 16) : Fin.ofNat 16 (t.val * 2 / 2) = t := by revert t; decide
@[simp] theorem ofNat_dbl1 (t : Fin 16) : Fin.ofNat 16 ((t.val * 2 + 1) / 2) = t := by revert t; decide
@[simp] theorem ord_part (o : AOrd) (w : Bool) : AOrd.ofCode ((o.code * 2 + w.toNat) / 2) = o := by
  cases o <;> cases w <;> rfl
@[simp] theorem ord_part0 (o : AOrd) : AOrd.ofCode (o.code * 2 / 2) = o := by cases o <;> rfl
@[simp] theorem width_part (o : AOrd) (w : Bool) : bitAt (o.code * 2 + w.toNat) 0 = w := by
  cases o <;> cases w <;> rfl
@[simp] theorem part_part (n : Fin 4) (f : VFmt) : Fin.ofNat 4 ((n.val * 8 + f.code) / 8) = n := by
  revert n; cases f <;> decide
@[simp] theorem fmt_part (n : Fin 4) (f : VFmt) : VFmt.ofCode ((n.val * 8 + f.code) % 8) = f := by
  revert n; cases f <;> decide
@[simp] theorem fmt_mod (f : VFmt) : VFmt.ofCode (f.code % 8) = f := by cases f <;> rfl
@[simp] theorem plane_part (n : Bool) (f : VFmt) : bitAt (n.toNat * 8 + f.code) 3 = n := by
  cases n <;> cases f <;> rfl
@[simp] theorem planeFmt_part (n : Bool) (f : VFmt) : VFmt.ofCode ((n.toNat * 8 + f.code) % 8) = f := by
  cases n <;> cases f <;> rfl
@[simp] theorem lakeFmt_part (f : MFmt) (s : Bool) : MFmt.ofCode ((f.code + 4 * s.toNat) % 4) = f := by
  cases f <;> cases s <;> rfl
@[simp] theorem lakeSparse_part (f : MFmt) (s : Bool) : bitAt (f.code + 4 * s.toNat) 2 = s := by
  cases f <;> cases s <;> rfl
@[simp] theorem chan_part (c : Fin 4) (s : Bool) : Fin.ofNat 4 (c.val + 4 * s.toNat) = c := by
  revert c; cases s <;> decide
@[simp] theorem chanBit_part (c : Fin 4) (s : Bool) : bitAt (c.val + 4 * s.toNat) 2 = s := by
  revert c; cases s <;> decide
@[simp] theorem bf_part (b : Bool) : bitAt b.toNat 0 = b := by cases b <;> rfl

/-- A port number taken apart into its field and the bit beside it (R64). -/
@[simp] theorem port_join (p : Fin 48) : Fin.ofNat 48 (p.val / 2 * 2 + p.val % 2) = p := by
  apply Fin.ext; simp only [Fin.ofNat]; omega
@[simp] theorem port_join_reg (p : Fin 48) (a : Fin 16) :
    Fin.ofNat 48 (p.val / 2 * 2 + (p.val % 2 * 16 + a.val) / 16) = p := by
  apply Fin.ext; simp only [Fin.ofNat]; omega
@[simp] theorem ofNat_port_reg (p : Fin 48) (a : Fin 16) : Fin.ofNat 16 (p.val % 2 * 16 + a.val) = a := by
  apply Fin.ext; simp only [Fin.ofNat]; omega
/-- A path mask taken apart (R65). -/
@[simp] theorem path_join (p : BitVec 6) : BitVec.ofNat 6 (p.toNat / 2 * 2 + p.toNat % 2) = p := by
  apply BitVec.eq_of_toNat_eq
  have := p.isLt
  simp only [BitVec.toNat_ofNat]; omega
@[simp] theorem fenceOrd_mod (f : FOrd) : FOrd.ofCode (f.code % 4) = f := by cases f <;> rfl
@[simp] theorem lakeFmt_mod (f : MFmt) : MFmt.ofCode (f.code % 4) = f := by cases f <;> rfl

end Sys2Proof
end

