-- ==== Sys2Proof/Laws/PerInstr.lean ====
section
/-! SUPPORT. PerInstr: what is said of each instruction as syntax. RoundTrip: the decoder reads the word the encoder
writes back, with every operand, and that word leaves the stop bit to the bundle (R44 to R68). -/

namespace Sys2Proof.Laws.RoundTrip

/-- The word of a well-formed instruction leaves bit 31 clear and decodes to it. -/
def Statement (i : Instr) : Prop :=
  ∀ w : Nat, encode i = some w → i.wf = true → w < 2 ^ 31 ∧ decodeWord w = .ok i

/-- A slot has one word. -/
theorem of_some {i : Instr} {w : Nat} (he : encode i = some w)
    (h : i.wf = true → w < 2 ^ 31 ∧ decodeWord w = .ok i) : Statement i := by
  intro w' he' hw
  rw [he] at he'
  obtain rfl := Option.some.inj he'
  exact h hw

/-- A step that is no slot has no word. -/
theorem of_none {i : Instr} (h : encode i = none) : Statement i := by
  intro w he; simp [h] at he

theorem sxNop : Statement (.sxNop) := by
  exact of_some rfl fun hw => decodeWord_layR (p := True) (dec := inferInstance) (j := .sxNop ) (by omega)
    (by simp [decodeFields, decodeSx, gate]) trivial rfl hw
theorem sxAdd (d : SReg) (a : SReg) (b : SReg) (ty : IntTy) (q : QReg) : Statement (.sxAdd d a b ty q) := by
  have := d.isLt; have := a.isLt; have := b.isLt; have := ty.code_lt; have := q.isLt
  exact of_some rfl fun hw => decodeWord_layR (by omega) rfl (by simp) (by simp) hw
theorem sxSub (d : SReg) (a : SReg) (b : SReg) (ty : IntTy) (q : QReg) : Statement (.sxSub d a b ty q) := by
  have := d.isLt; have := a.isLt; have := b.isLt; have := ty.code_lt; have := q.isLt
  exact of_some rfl fun hw => decodeWord_layR (by omega) rfl (by simp) (by simp) hw
theorem sxMul (d : SReg) (a : SReg) (b : SReg) (ty : IntTy) (q : QReg) : Statement (.sxMul d a b ty q) := by
  have := d.isLt; have := a.isLt; have := b.isLt; have := ty.code_lt; have := q.isLt
  exact of_some rfl fun hw => decodeWord_layR (by omega) rfl (by simp) (by simp) hw
theorem sxMulh (d : SReg) (a : SReg) (b : SReg) (ty : IntTy) (q : QReg) : Statement (.sxMulh d a b ty q) := by
  have := d.isLt; have := a.isLt; have := b.isLt; have := ty.code_lt; have := q.isLt
  exact of_some rfl fun hw => decodeWord_layR (by omega) rfl (by simp) (by simp) hw
theorem sxDiv (d : SReg) (a : SReg) (b : SReg) (ty : IntTy) (q : QReg) : Statement (.sxDiv d a b ty q) := by
  have := d.isLt; have := a.isLt; have := b.isLt; have := ty.code_lt; have := q.isLt
  exact of_some rfl fun hw => decodeWord_layR (by omega) rfl (by simp) (by simp) hw
theorem sxRem (d : SReg) (a : SReg) (b : SReg) (ty : IntTy) (q : QReg) : Statement (.sxRem d a b ty q) := by
  have := d.isLt; have := a.isLt; have := b.isLt; have := ty.code_lt; have := q.isLt
  exact of_some rfl fun hw => decodeWord_layR (by omega) rfl (by simp) (by simp) hw
theorem sxMin (d : SReg) (a : SReg) (b : SReg) (ty : IntTy) (q : QReg) : Statement (.sxMin d a b ty q) := by
  have := d.isLt; have := a.isLt; have := b.isLt; have := ty.code_lt; have := q.isLt
  exact of_some rfl fun hw => decodeWord_layR (by omega) rfl (by simp) (by simp) hw
theorem sxMax (d : SReg) (a : SReg) (b : SReg) (ty : IntTy) (q : QReg) : Statement (.sxMax d a b ty q) := by
  have := d.isLt; have := a.isLt; have := b.isLt; have := ty.code_lt; have := q.isLt
  exact of_some rfl fun hw => decodeWord_layR (by omega) rfl (by simp) (by simp) hw
theorem sxAnd (d : SReg) (a : SReg) (b : SReg) (ty : IntTy) (q : QReg) : Statement (.sxAnd d a b ty q) := by
  have := d.isLt; have := a.isLt; have := b.isLt; have := ty.code_lt; have := q.isLt
  exact of_some rfl fun hw => decodeWord_layR (by omega) rfl (by simp) (by simp) hw
theorem sxOr (d : SReg) (a : SReg) (b : SReg) (ty : IntTy) (q : QReg) : Statement (.sxOr d a b ty q) := by
  have := d.isLt; have := a.isLt; have := b.isLt; have := ty.code_lt; have := q.isLt
  exact of_some rfl fun hw => decodeWord_layR (by omega) rfl (by simp) (by simp) hw
theorem sxXor (d : SReg) (a : SReg) (b : SReg) (ty : IntTy) (q : QReg) : Statement (.sxXor d a b ty q) := by
  have := d.isLt; have := a.isLt; have := b.isLt; have := ty.code_lt; have := q.isLt
  exact of_some rfl fun hw => decodeWord_layR (by omega) rfl (by simp) (by simp) hw
theorem sxShl (d : SReg) (a : SReg) (b : SReg) (ty : IntTy) (q : QReg) : Statement (.sxShl d a b ty q) := by
  have := d.isLt; have := a.isLt; have := b.isLt; have := ty.code_lt; have := q.isLt
  exact of_some rfl fun hw => decodeWord_layR (by omega) rfl (by simp) (by simp) hw
theorem sxShr (d : SReg) (a : SReg) (b : SReg) (ty : IntTy) (q : QReg) : Statement (.sxShr d a b ty q) := by
  have := d.isLt; have := a.isLt; have := b.isLt; have := ty.code_lt; have := q.isLt
  exact of_some rfl fun hw => decodeWord_layR (by omega) rfl (by simp) (by simp) hw
theorem sxSra (d : SReg) (a : SReg) (b : SReg) (ty : IntTy) (q : QReg) : Statement (.sxSra d a b ty q) := by
  have := d.isLt; have := a.isLt; have := b.isLt; have := ty.code_lt; have := q.isLt
  exact of_some rfl fun hw => decodeWord_layR (by omega) rfl (by simp) (by simp) hw
theorem sxClz (d : SReg) (a : SReg) (ty : IntTy) (q : QReg) : Statement (.sxClz d a ty q) := by
  have := d.isLt; have := a.isLt; have := ty.code_lt; have := q.isLt
  exact of_some rfl fun hw => decodeWord_layR (by omega) rfl (by simp) (by simp) hw
theorem sxCtz (d : SReg) (a : SReg) (ty : IntTy) (q : QReg) : Statement (.sxCtz d a ty q) := by
  have := d.isLt; have := a.isLt; have := ty.code_lt; have := q.isLt
  exact of_some rfl fun hw => decodeWord_layR (by omega) rfl (by simp) (by simp) hw
theorem sxCnt (d : SReg) (a : SReg) (ty : IntTy) (q : QReg) : Statement (.sxCnt d a ty q) := by
  have := d.isLt; have := a.isLt; have := ty.code_lt; have := q.isLt
  exact of_some rfl fun hw => decodeWord_layR (by omega) rfl (by simp) (by simp) hw
theorem sxExt (d : SReg) (a : SReg) (b : SReg) (ty : IntTy) (q : QReg) : Statement (.sxExt d a b ty q) := by
  have := d.isLt; have := a.isLt; have := b.isLt; have := ty.code_lt; have := q.isLt
  exact of_some rfl fun hw => decodeWord_layR (by omega) rfl (by simp) (by simp) hw
theorem sxMov (d : SReg) (a : SReg) (ty : IntTy) (q : QReg) : Statement (.sxMov d a ty q) := by
  have := d.isLt; have := a.isLt; have := ty.code_lt; have := q.isLt
  exact of_some rfl fun hw => decodeWord_layR (by omega) rfl (by simp) (by simp) hw
theorem sxCeq (d : SReg) (a : SReg) (b : SReg) (ty : IntTy) (q : QReg) : Statement (.sxCeq d a b ty q) := by
  have := d.isLt; have := a.isLt; have := b.isLt; have := ty.code_lt; have := q.isLt
  exact of_some rfl fun hw => decodeWord_layR (by omega) rfl (by simp) (by simp) hw
theorem sxClt (d : SReg) (a : SReg) (b : SReg) (ty : IntTy) (q : QReg) : Statement (.sxClt d a b ty q) := by
  have := d.isLt; have := a.isLt; have := b.isLt; have := ty.code_lt; have := q.isLt
  exact of_some rfl fun hw => decodeWord_layR (by omega) rfl (by simp) (by simp) hw
theorem sxCle (d : SReg) (a : SReg) (b : SReg) (ty : IntTy) (q : QReg) : Statement (.sxCle d a b ty q) := by
  have := d.isLt; have := a.isLt; have := b.isLt; have := ty.code_lt; have := q.isLt
  exact of_some rfl fun hw => decodeWord_layR (by omega) rfl (by simp) (by simp) hw
theorem sxSel (d : SReg) (a : SReg) (b : SReg) (ty : IntTy) (q : QReg) : Statement (.sxSel d a b ty q) := by
  have := d.isLt; have := a.isLt; have := b.isLt; have := ty.code_lt; have := q.isLt
  exact of_some rfl fun hw => decodeWord_layR (by omega) rfl (by simp) (by simp) hw
theorem sxQset (d : QReg) (a : SReg) (ty : IntTy) (q : QReg) : Statement (.sxQset d a ty q) := by
  have := d.isLt; have := a.isLt; have := ty.code_lt; have := q.isLt
  exact of_some rfl fun hw => decodeWord_layR (by omega) rfl (by simp) (by simp) hw
theorem sxFadd (d : SReg) (a : SReg) (b : SReg) (r : Rnd) (q : QReg) : Statement (.sxFadd d a b r q) := by
  have := d.isLt; have := a.isLt; have := b.isLt; have := r.code_lt; have := q.isLt
  exact of_some rfl fun hw => decodeWord_layR (by omega) rfl (by simp; omega) (by simp) hw
theorem sxFmul (d : SReg) (a : SReg) (b : SReg) (r : Rnd) (q : QReg) : Statement (.sxFmul d a b r q) := by
  have := d.isLt; have := a.isLt; have := b.isLt; have := r.code_lt; have := q.isLt
  exact of_some rfl fun hw => decodeWord_layR (by omega) rfl (by simp; omega) (by simp) hw
theorem sxFma (d : SReg) (a : SReg) (b : SReg) (r : Rnd) (q : QReg) : Statement (.sxFma d a b r q) := by
  have := d.isLt; have := a.isLt; have := b.isLt; have := r.code_lt; have := q.isLt
  exact of_some rfl fun hw => decodeWord_layR (by omega) rfl (by simp; omega) (by simp) hw
theorem sxFceq (d : SReg) (a : SReg) (b : SReg) (r : Rnd) (q : QReg) : Statement (.sxFceq d a b r q) := by
  have := d.isLt; have := a.isLt; have := b.isLt; have := r.code_lt; have := q.isLt
  exact of_some rfl fun hw => decodeWord_layR (by omega) rfl (by simp; omega) (by simp) hw
theorem sxFclt (d : SReg) (a : SReg) (b : SReg) (r : Rnd) (q : QReg) : Statement (.sxFclt d a b r q) := by
  have := d.isLt; have := a.isLt; have := b.isLt; have := r.code_lt; have := q.isLt
  exact of_some rfl fun hw => decodeWord_layR (by omega) rfl (by simp; omega) (by simp) hw
theorem sxFcvi (d : SReg) (a : SReg) (r : Rnd) (q : QReg) : Statement (.sxFcvi d a r q) := by
  have := d.isLt; have := a.isLt; have := r.code_lt; have := q.isLt
  exact of_some rfl fun hw => decodeWord_layR (by omega) rfl (by simp; omega) (by simp) hw
theorem sxFcif (d : SReg) (a : SReg) (r : Rnd) (q : QReg) : Statement (.sxFcif d a r q) := by
  have := d.isLt; have := a.isLt; have := r.code_lt; have := q.isLt
  exact of_some rfl fun hw => decodeWord_layR (by omega) rfl (by simp; omega) (by simp) hw
theorem siLi (d : SReg) (k : BitVec 16) : Statement (.siLi d k) := by
  have := d.isLt; have := k.isLt
  exact of_some rfl fun hw => decodeWord_layI (p := True) (by omega) rfl trivial (by simp) hw
theorem siIh1 (d : SReg) (k : BitVec 16) : Statement (.siIh1 d k) := by
  have := d.isLt; have := k.isLt
  exact of_some rfl fun hw => decodeWord_layI (p := True) (by omega) rfl trivial (by simp) hw
theorem siIh2 (d : SReg) (k : BitVec 16) : Statement (.siIh2 d k) := by
  have := d.isLt; have := k.isLt
  exact of_some rfl fun hw => decodeWord_layI (p := True) (by omega) rfl trivial (by simp) hw
theorem siIh3 (d : SReg) (k : BitVec 16) : Statement (.siIh3 d k) := by
  have := d.isLt; have := k.isLt
  exact of_some rfl fun hw => decodeWord_layI (p := True) (by omega) rfl trivial (by simp) hw
theorem siAddi (d : SReg) (k : BitVec 16) : Statement (.siAddi d k) := by
  have := d.isLt; have := k.isLt
  exact of_some rfl fun hw => decodeWord_layI (p := True) (by omega) rfl trivial (by simp) hw
theorem siOri (d : SReg) (k : BitVec 16) : Statement (.siOri d k) := by
  have := d.isLt; have := k.isLt
  exact of_some rfl fun hw => decodeWord_layI (p := True) (by omega) rfl trivial (by simp) hw
theorem siCeqi (d : SReg) (k : BitVec 16) : Statement (.siCeqi d k) := by
  have := d.isLt; have := k.isLt
  exact of_some rfl fun hw => decodeWord_layI (p := True) (by omega) rfl trivial (by simp) hw
theorem siClti (d : SReg) (k : BitVec 16) : Statement (.siClti d k) := by
  have := d.isLt; have := k.isLt
  exact of_some rfl fun hw => decodeWord_layI (p := True) (by omega) rfl trivial (by simp) hw
theorem brJ (k : BitVec 16) : Statement (.brJ k) := by
  have := k.isLt
  exact of_some rfl fun hw => decodeWord_layI (p := True) (dec := inferInstance) (j := .brJ k) (by omega)
    (by simp [decodeFields, decodeBr, gate]) trivial rfl hw
theorem brCall (d : SReg) (k : BitVec 16) : Statement (.brCall d k) := by
  have := d.isLt; have := k.isLt
  exact of_some rfl fun hw => decodeWord_layI (p := True) (by omega) rfl trivial (by simp) hw
theorem brBz (d : SReg) (k : BitVec 16) : Statement (.brBz d k) := by
  have := d.isLt; have := k.isLt
  exact of_some rfl fun hw => decodeWord_layI (p := True) (by omega) rfl trivial (by simp) hw
theorem brBnz (d : SReg) (k : BitVec 16) : Statement (.brBnz d k) := by
  have := d.isLt; have := k.isLt
  exact of_some rfl fun hw => decodeWord_layI (p := True) (by omega) rfl trivial (by simp) hw
theorem brBlt (d : SReg) (k : BitVec 16) : Statement (.brBlt d k) := by
  have := d.isLt; have := k.isLt
  exact of_some rfl fun hw => decodeWord_layI (p := True) (by omega) rfl trivial (by simp) hw
theorem brBge (d : SReg) (k : BitVec 16) : Statement (.brBge d k) := by
  have := d.isLt; have := k.isLt
  exact of_some rfl fun hw => decodeWord_layI (p := True) (by omega) rfl trivial (by simp) hw
theorem brBq (d : QReg) (k : BitVec 16) : Statement (.brBq d k) := by
  have := d.isLt; have := k.isLt
  exact of_some rfl fun hw => decodeWord_layI (by omega) rfl (by simp) (by simp) hw
theorem brBnq (d : QReg) (k : BitVec 16) : Statement (.brBnq d k) := by
  have := d.isLt; have := k.isLt
  exact of_some rfl fun hw => decodeWord_layI (by omega) rfl (by simp) (by simp) hw
theorem brJr (a : SReg) : Statement (.brJr a) := by
  have := a.isLt
  exact of_some rfl fun hw => decodeWord_layR (p := True) (dec := inferInstance) (j := .brJr a) (by omega)
    (by simp [decodeFields, decodeBr, gate]) trivial rfl hw
theorem brRet (a : SReg) : Statement (.brRet a) := by
  have := a.isLt
  exact of_some rfl fun hw => decodeWord_layR (p := True) (dec := inferInstance) (j := .brRet a) (by omega)
    (by simp [decodeFields, decodeBr, gate]) trivial rfl hw
theorem brLvl (a : SReg) (b : SReg) (l : Level) : Statement (.brLvl a b l) := by
  have := a.isLt; have := b.isLt; have := l.isLt
  exact of_some rfl fun hw => decodeWord_layR (by omega) rfl (by simp) (by simp) hw
theorem brLoop (l : Level) (n : Fin 257) : Statement (.brLoop l n) := by
  have := l.isLt; have := n.isLt
  exact of_some rfl fun hw => decodeWord_layI (by omega) rfl (by simp) (by simp) hw
theorem brLend (l : Level) (a : SReg) : Statement (.brLend l a) := by
  have := l.isLt; have := a.isLt
  exact of_some rfl fun hw => decodeWord_layR (by omega) rfl (by simp) (by simp) hw
theorem brBud (d : SReg) : Statement (.brBud d) := by
  have := d.isLt
  exact of_some rfl fun hw => decodeWord_layR (p := True) (dec := inferInstance) (j := .brBud d) (by omega)
    (by simp [decodeFields, decodeBr, gate]) trivial rfl hw
theorem adLd (d : SReg) (p : Bool) (a : AReg) (b : SReg) (z : ASize) (q : QReg) : Statement (.adLd d p a b z q) := by
  have := d.isLt; have := toNat_lt_two p; have := a.isLt; have := b.isLt; have := z.code_lt; have := q.isLt
  exact of_some rfl fun hw =>
    decodeWord_layR (by omega) rfl (by simp; omega) (by simp <;> (try apply And.intro) <;> (apply Fin.ext; show _ % _ = _; omega)) hw
theorem adSt (d : SReg) (p : Bool) (a : AReg) (b : SReg) (z : ASize) (q : QReg) : Statement (.adSt d p a b z q) := by
  have := d.isLt; have := toNat_lt_two p; have := a.isLt; have := b.isLt; have := z.code_lt; have := q.isLt
  exact of_some rfl fun hw =>
    decodeWord_layR (by omega) rfl (by simp; omega) (by simp <;> (try apply And.intro) <;> (apply Fin.ext; show _ % _ = _; omega)) hw
theorem adVld (d : VReg) (p : Bool) (a : AReg) (b : SReg) (q : QReg) : Statement (.adVld d p a b q) := by
  have := d.isLt; have := toNat_lt_two p; have := a.isLt; have := b.isLt; have := q.isLt
  exact of_some rfl fun hw =>
    decodeWord_layR (by omega) rfl (by simp) (by simp <;> (try apply And.intro) <;> (apply Fin.ext; show _ % _ = _; omega)) hw
theorem adVst (d : VReg) (p : Bool) (a : AReg) (b : SReg) (q : QReg) : Statement (.adVst d p a b q) := by
  have := d.isLt; have := toNat_lt_two p; have := a.isLt; have := b.isLt; have := q.isLt
  exact of_some rfl fun hw =>
    decodeWord_layR (by omega) rfl (by simp) (by simp <;> (try apply And.intro) <;> (apply Fin.ext; show _ % _ = _; omega)) hw
theorem adFld (d : SReg) (p : Bool) (a : AReg) (b : SReg) (z : ASize) (q : QReg) : Statement (.adFld d p a b z q) := by
  have := d.isLt; have := toNat_lt_two p; have := a.isLt; have := b.isLt; have := z.code_lt; have := q.isLt
  exact of_some rfl fun hw =>
    decodeWord_layR (by omega) rfl (by simp; omega) (by simp <;> (try apply And.intro) <;> (apply Fin.ext; show _ % _ = _; omega)) hw
theorem adFst (d : SReg) (p : Bool) (a : AReg) (b : SReg) (z : ASize) (q : QReg) : Statement (.adFst d p a b z q) := by
  have := d.isLt; have := toNat_lt_two p; have := a.isLt; have := b.isLt; have := z.code_lt; have := q.isLt
  exact of_some rfl fun hw =>
    decodeWord_layR (by omega) rfl (by simp; omega) (by simp <;> (try apply And.intro) <;> (apply Fin.ext; show _ % _ = _; omega)) hw
theorem adTch (p : Bool) (a : AReg) (b : SReg) (q : QReg) : Statement (.adTch p a b q) := by
  have := toNat_lt_two p; have := a.isLt; have := b.isLt; have := q.isLt
  exact of_some rfl fun hw =>
    decodeWord_layR (by omega) rfl (by simp) (by simp <;> (try apply And.intro) <;> (apply Fin.ext; show _ % _ = _; omega)) hw
theorem adAdd (d : AReg) (a : AReg) (b : SReg) (q : QReg) : Statement (.adAdd d a b q) := by
  have := d.isLt; have := a.isLt; have := b.isLt; have := q.isLt
  exact of_some rfl fun hw => decodeWord_layR (by omega) rfl (by simp) (by simp) hw
theorem adMov (d : AReg) (b : SReg) (q : QReg) : Statement (.adMov d b q) := by
  have := d.isLt; have := b.isLt; have := q.isLt
  exact of_some rfl fun hw => decodeWord_layR (by omega) rfl (by simp) (by simp) hw
theorem adGet (d : SReg) (a : AReg) (q : QReg) : Statement (.adGet d a q) := by
  have := d.isLt; have := a.isLt; have := q.isLt
  exact of_some rfl fun hw => decodeWord_layR (by omega) rfl (by simp) (by simp) hw
theorem adAadd (d : SReg) (a : AReg) (b : SReg) (o : AOrd) (w : Bool) (q : QReg) : Statement (.adAadd d a b o w q) := by
  have := d.isLt; have := a.isLt; have := b.isLt; have := o.code_lt; have := toNat_lt_two w; have := q.isLt
  exact of_some rfl fun hw => decodeWord_layR (by omega) rfl (by simp) (by simp) hw
theorem adAand (d : SReg) (a : AReg) (b : SReg) (o : AOrd) (w : Bool) (q : QReg) : Statement (.adAand d a b o w q) := by
  have := d.isLt; have := a.isLt; have := b.isLt; have := o.code_lt; have := toNat_lt_two w; have := q.isLt
  exact of_some rfl fun hw => decodeWord_layR (by omega) rfl (by simp) (by simp) hw
theorem adAor (d : SReg) (a : AReg) (b : SReg) (o : AOrd) (w : Bool) (q : QReg) : Statement (.adAor d a b o w q) := by
  have := d.isLt; have := a.isLt; have := b.isLt; have := o.code_lt; have := toNat_lt_two w; have := q.isLt
  exact of_some rfl fun hw => decodeWord_layR (by omega) rfl (by simp) (by simp) hw
theorem adAxor (d : SReg) (a : AReg) (b : SReg) (o : AOrd) (w : Bool) (q : QReg) : Statement (.adAxor d a b o w q) := by
  have := d.isLt; have := a.isLt; have := b.isLt; have := o.code_lt; have := toNat_lt_two w; have := q.isLt
  exact of_some rfl fun hw => decodeWord_layR (by omega) rfl (by simp) (by simp) hw
theorem adAmin (d : SReg) (a : AReg) (b : SReg) (o : AOrd) (w : Bool) (q : QReg) : Statement (.adAmin d a b o w q) := by
  have := d.isLt; have := a.isLt; have := b.isLt; have := o.code_lt; have := toNat_lt_two w; have := q.isLt
  exact of_some rfl fun hw => decodeWord_layR (by omega) rfl (by simp) (by simp) hw
theorem adAmax (d : SReg) (a : AReg) (b : SReg) (o : AOrd) (w : Bool) (q : QReg) : Statement (.adAmax d a b o w q) := by
  have := d.isLt; have := a.isLt; have := b.isLt; have := o.code_lt; have := toNat_lt_two w; have := q.isLt
  exact of_some rfl fun hw => decodeWord_layR (by omega) rfl (by simp) (by simp) hw
theorem adNmin (d : SReg) (a : AReg) (b : SReg) (o : AOrd) (w : Bool) (q : QReg) : Statement (.adNmin d a b o w q) := by
  have := d.isLt; have := a.isLt; have := b.isLt; have := o.code_lt; have := toNat_lt_two w; have := q.isLt
  exact of_some rfl fun hw => decodeWord_layR (by omega) rfl (by simp) (by simp) hw
theorem adNmax (d : SReg) (a : AReg) (b : SReg) (o : AOrd) (w : Bool) (q : QReg) : Statement (.adNmax d a b o w q) := by
  have := d.isLt; have := a.isLt; have := b.isLt; have := o.code_lt; have := toNat_lt_two w; have := q.isLt
  exact of_some rfl fun hw => decodeWord_layR (by omega) rfl (by simp) (by simp) hw
theorem adXchg (d : SReg) (a : AReg) (b : SReg) (o : AOrd) (w : Bool) (q : QReg) : Statement (.adXchg d a b o w q) := by
  have := d.isLt; have := a.isLt; have := b.isLt; have := o.code_lt; have := toNat_lt_two w; have := q.isLt
  exact of_some rfl fun hw => decodeWord_layR (by omega) rfl (by simp) (by simp) hw
theorem adCas (d : SReg) (a : AReg) (b : SReg) (o : AOrd) (w : Bool) (q : QReg) : Statement (.adCas d a b o w q) := by
  have := d.isLt; have := a.isLt; have := b.isLt; have := o.code_lt; have := toNat_lt_two w; have := q.isLt
  exact of_some rfl fun hw => decodeWord_layR (by omega) rfl (by simp) (by simp) hw
theorem adFadd (d : SReg) (a : AReg) (b : SReg) (o : AOrd) (q : QReg) : Statement (.adFadd d a b o q) := by
  have := d.isLt; have := a.isLt; have := b.isLt; have := o.code_lt; have := q.isLt
  exact of_some rfl fun hw => decodeWord_layR (by omega) rfl (by simp) (by simp) hw
theorem adBadd (d : SReg) (a : AReg) (b : SReg) (o : AOrd) (q : QReg) : Statement (.adBadd d a b o q) := by
  have := d.isLt; have := a.isLt; have := b.isLt; have := o.code_lt; have := q.isLt
  exact of_some rfl fun hw => decodeWord_layR (by omega) rfl (by simp) (by simp) hw
theorem vxAdd (d : VReg) (a : VReg) (b : VReg) (f : VFmt) (q : QReg) (r : Rnd) : Statement (.vxAdd d a b f q r) := by
  cases r <;>
  (have := d.isLt
   have := a.isLt
   have := b.isLt
   have := f.code_lt
   have := q.isLt
   exact of_some rfl fun hw => decodeWord_layR (by simp only [Rnd.code]; omega) rfl (by simp) (by simp [Rnd.ofCode]) hw)
theorem vxSub (d : VReg) (a : VReg) (b : VReg) (f : VFmt) (q : QReg) (r : Rnd) : Statement (.vxSub d a b f q r) := by
  cases r <;>
  (have := d.isLt
   have := a.isLt
   have := b.isLt
   have := f.code_lt
   have := q.isLt
   exact of_some rfl fun hw => decodeWord_layR (by simp only [Rnd.code]; omega) rfl (by simp) (by simp [Rnd.ofCode]) hw)
theorem vxMul (d : VReg) (a : VReg) (b : VReg) (f : VFmt) (q : QReg) (r : Rnd) : Statement (.vxMul d a b f q r) := by
  cases r <;>
  (have := d.isLt
   have := a.isLt
   have := b.isLt
   have := f.code_lt
   have := q.isLt
   exact of_some rfl fun hw => decodeWord_layR (by simp only [Rnd.code]; omega) rfl (by simp) (by simp [Rnd.ofCode]) hw)
theorem vxFma (d : VReg) (a : VReg) (b : VReg) (f : VFmt) (q : QReg) (r : Rnd) : Statement (.vxFma d a b f q r) := by
  cases r <;>
  (have := d.isLt
   have := a.isLt
   have := b.isLt
   have := f.code_lt
   have := q.isLt
   exact of_some rfl fun hw => decodeWord_layR (by simp only [Rnd.code]; omega) rfl (by simp) (by simp [Rnd.ofCode]) hw)
theorem vxMin (d : VReg) (a : VReg) (b : VReg) (f : VFmt) (q : QReg) : Statement (.vxMin d a b f q) := by
  have := d.isLt; have := a.isLt; have := b.isLt; have := f.code_lt; have := q.isLt
  exact of_some rfl fun hw => decodeWord_layR (by omega) rfl (by simp) (by simp) hw
theorem vxMax (d : VReg) (a : VReg) (b : VReg) (f : VFmt) (q : QReg) : Statement (.vxMax d a b f q) := by
  have := d.isLt; have := a.isLt; have := b.isLt; have := f.code_lt; have := q.isLt
  exact of_some rfl fun hw => decodeWord_layR (by omega) rfl (by simp) (by simp) hw
theorem vxAbs (d : VReg) (a : VReg) (f : VFmt) (q : QReg) : Statement (.vxAbs d a f q) := by
  have := d.isLt; have := a.isLt; have := f.code_lt; have := q.isLt
  exact of_some rfl fun hw => decodeWord_layR (by omega) rfl (by simp) (by simp) hw
theorem vxNeg (d : VReg) (a : VReg) (f : VFmt) (q : QReg) : Statement (.vxNeg d a f q) := by
  have := d.isLt; have := a.isLt; have := f.code_lt; have := q.isLt
  exact of_some rfl fun hw => decodeWord_layR (by omega) rfl (by simp) (by simp) hw
theorem vxAnd (d : VReg) (a : VReg) (b : VReg) (q : QReg) : Statement (.vxAnd d a b q) := by
  have := d.isLt; have := a.isLt; have := b.isLt; have := q.isLt
  exact of_some rfl fun hw => decodeWord_layR (by omega) rfl (by simp) (by simp) hw
theorem vxOr (d : VReg) (a : VReg) (b : VReg) (q : QReg) : Statement (.vxOr d a b q) := by
  have := d.isLt; have := a.isLt; have := b.isLt; have := q.isLt
  exact of_some rfl fun hw => decodeWord_layR (by omega) rfl (by simp) (by simp) hw
theorem vxXor (d : VReg) (a : VReg) (b : VReg) (q : QReg) : Statement (.vxXor d a b q) := by
  have := d.isLt; have := a.isLt; have := b.isLt; have := q.isLt
  exact of_some rfl fun hw => decodeWord_layR (by omega) rfl (by simp) (by simp) hw
theorem vxNot (d : VReg) (a : VReg) (q : QReg) : Statement (.vxNot d a q) := by
  have := d.isLt; have := a.isLt; have := q.isLt
  exact of_some rfl fun hw => decodeWord_layR (by omega) rfl (by simp) (by simp) hw
theorem vxShl (d : VReg) (a : VReg) (b : VReg) (f : VFmt) (q : QReg) : Statement (.vxShl d a b f q) := by
  have := d.isLt; have := a.isLt; have := b.isLt; have := f.code_lt; have := q.isLt
  exact of_some rfl fun hw => decodeWord_layR (by omega) rfl (by simp) (by simp) hw
theorem vxShr (d : VReg) (a : VReg) (b : VReg) (f : VFmt) (q : QReg) : Statement (.vxShr d a b f q) := by
  have := d.isLt; have := a.isLt; have := b.isLt; have := f.code_lt; have := q.isLt
  exact of_some rfl fun hw => decodeWord_layR (by omega) rfl (by simp) (by simp) hw
theorem vxSra (d : VReg) (a : VReg) (b : VReg) (f : VFmt) (q : QReg) : Statement (.vxSra d a b f q) := by
  have := d.isLt; have := a.isLt; have := b.isLt; have := f.code_lt; have := q.isLt
  exact of_some rfl fun hw => decodeWord_layR (by omega) rfl (by simp) (by simp) hw
theorem vxMulh (d : VReg) (a : VReg) (b : VReg) (f : VFmt) (q : QReg) : Statement (.vxMulh d a b f q) := by
  have := d.isLt; have := a.isLt; have := b.isLt; have := f.code_lt; have := q.isLt
  exact of_some rfl fun hw => decodeWord_layR (by omega) rfl (by simp) (by simp) hw
theorem vxAdds (d : VReg) (a : VReg) (b : VReg) (f : VFmt) (q : QReg) : Statement (.vxAdds d a b f q) := by
  have := d.isLt; have := a.isLt; have := b.isLt; have := f.code_lt; have := q.isLt
  exact of_some rfl fun hw => decodeWord_layR (by omega) rfl (by simp) (by simp) hw
theorem vxSubs (d : VReg) (a : VReg) (b : VReg) (f : VFmt) (q : QReg) : Statement (.vxSubs d a b f q) := by
  have := d.isLt; have := a.isLt; have := b.isLt; have := f.code_lt; have := q.isLt
  exact of_some rfl fun hw => decodeWord_layR (by omega) rfl (by simp) (by simp) hw
theorem vxMov (d : VReg) (a : VReg) (q : QReg) : Statement (.vxMov d a q) := by
  have := d.isLt; have := a.isLt; have := q.isLt
  exact of_some rfl fun hw => decodeWord_layR (by omega) rfl (by simp) (by simp) hw
theorem vxSel (d : VReg) (a : VReg) (b : VReg) (q : QReg) : Statement (.vxSel d a b q) := by
  have := d.isLt; have := a.isLt; have := b.isLt; have := q.isLt
  exact of_some rfl fun hw => decodeWord_layR (by omega) rfl (by simp) (by simp) hw
theorem vxCeq (d : QReg) (a : VReg) (b : VReg) (f : VFmt) (q : QReg) : Statement (.vxCeq d a b f q) := by
  have := d.isLt; have := a.isLt; have := b.isLt; have := f.code_lt; have := q.isLt
  exact of_some rfl fun hw => decodeWord_layR (by omega) rfl (by simp) (by simp) hw
theorem vxCne (d : QReg) (a : VReg) (b : VReg) (f : VFmt) (q : QReg) : Statement (.vxCne d a b f q) := by
  have := d.isLt; have := a.isLt; have := b.isLt; have := f.code_lt; have := q.isLt
  exact of_some rfl fun hw => decodeWord_layR (by omega) rfl (by simp) (by simp) hw
theorem vxClt (d : QReg) (a : VReg) (b : VReg) (f : VFmt) (q : QReg) : Statement (.vxClt d a b f q) := by
  have := d.isLt; have := a.isLt; have := b.isLt; have := f.code_lt; have := q.isLt
  exact of_some rfl fun hw => decodeWord_layR (by omega) rfl (by simp) (by simp) hw
theorem vxCle (d : QReg) (a : VReg) (b : VReg) (f : VFmt) (q : QReg) : Statement (.vxCle d a b f q) := by
  have := d.isLt; have := a.isLt; have := b.isLt; have := f.code_lt; have := q.isLt
  exact of_some rfl fun hw => decodeWord_layR (by omega) rfl (by simp) (by simp) hw
theorem vxQand (d : QReg) (a : QReg) (b : QReg) (q : QReg) : Statement (.vxQand d a b q) := by
  have := d.isLt; have := a.isLt; have := b.isLt; have := q.isLt
  exact of_some rfl fun hw => decodeWord_layR (by omega) rfl (by simp) (by simp) hw
theorem vxQor (d : QReg) (a : QReg) (b : QReg) (q : QReg) : Statement (.vxQor d a b q) := by
  have := d.isLt; have := a.isLt; have := b.isLt; have := q.isLt
  exact of_some rfl fun hw => decodeWord_layR (by omega) rfl (by simp) (by simp) hw
theorem vxQxor (d : QReg) (a : QReg) (b : QReg) (q : QReg) : Statement (.vxQxor d a b q) := by
  have := d.isLt; have := a.isLt; have := b.isLt; have := q.isLt
  exact of_some rfl fun hw => decodeWord_layR (by omega) rfl (by simp) (by simp) hw
theorem vxQnot (d : QReg) (a : QReg) (q : QReg) : Statement (.vxQnot d a q) := by
  have := d.isLt; have := a.isLt; have := q.isLt
  exact of_some rfl fun hw => decodeWord_layR (by omega) rfl (by simp) (by simp) hw
theorem vxPerm (d : VReg) (a : VReg) (b : VReg) (q : QReg) : Statement (.vxPerm d a b q) := by
  have := d.isLt; have := a.isLt; have := b.isLt; have := q.isLt
  exact of_some rfl fun hw => decodeWord_layR (by omega) rfl (by simp) (by simp) hw
theorem vxLsh (d : VReg) (a : VReg) (b : SReg) (q : QReg) : Statement (.vxLsh d a b q) := by
  have := d.isLt; have := a.isLt; have := b.isLt; have := q.isLt
  exact of_some rfl fun hw => decodeWord_layR (by omega) rfl (by simp) (by simp) hw
theorem vxLrot (d : VReg) (a : VReg) (b : SReg) (q : QReg) : Statement (.vxLrot d a b q) := by
  have := d.isLt; have := a.isLt; have := b.isLt; have := q.isLt
  exact of_some rfl fun hw => decodeWord_layR (by omega) rfl (by simp) (by simp) hw
theorem vxBcast (d : VReg) (a : SReg) (f : VFmt) (q : QReg) : Statement (.vxBcast d a f q) := by
  have := d.isLt; have := a.isLt; have := f.code_lt; have := q.isLt
  exact of_some rfl fun hw => decodeWord_layR (by omega) rfl (by simp) (by simp) hw
theorem vxExt (d : SReg) (a : VReg) (b : SReg) (f : VFmt) (q : QReg) : Statement (.vxExt d a b f q) := by
  have := d.isLt; have := a.isLt; have := b.isLt; have := f.code_lt; have := q.isLt
  exact of_some rfl fun hw => decodeWord_layR (by omega) rfl (by simp) (by simp) hw
theorem vxRadd (d : SReg) (a : VReg) (f : VFmt) (q : QReg) : Statement (.vxRadd d a f q) := by
  have := d.isLt; have := a.isLt; have := f.code_lt; have := q.isLt
  exact of_some rfl fun hw => decodeWord_layR (by omega) rfl (by simp) (by simp) hw
theorem vxRmax (d : SReg) (a : VReg) (f : VFmt) (q : QReg) : Statement (.vxRmax d a f q) := by
  have := d.isLt; have := a.isLt; have := f.code_lt; have := q.isLt
  exact of_some rfl fun hw => decodeWord_layR (by omega) rfl (by simp) (by simp) hw
theorem vxRmin (d : SReg) (a : VReg) (f : VFmt) (q : QReg) : Statement (.vxRmin d a f q) := by
  have := d.isLt; have := a.isLt; have := f.code_lt; have := q.isLt
  exact of_some rfl fun hw => decodeWord_layR (by omega) rfl (by simp) (by simp) hw
theorem vxRcp (d : VReg) (a : VReg) (f : VFmt) (q : QReg) : Statement (.vxRcp d a f q) := by
  have := d.isLt; have := a.isLt; have := f.code_lt; have := q.isLt
  exact of_some rfl fun hw => decodeWord_layR (by omega) rfl (by simp) (by simp) hw
theorem vxRsq (d : VReg) (a : VReg) (f : VFmt) (q : QReg) : Statement (.vxRsq d a f q) := by
  have := d.isLt; have := a.isLt; have := f.code_lt; have := q.isLt
  exact of_some rfl fun hw => decodeWord_layR (by omega) rfl (by simp) (by simp) hw
theorem vxExp2 (d : VReg) (a : VReg) (f : VFmt) (q : QReg) : Statement (.vxExp2 d a f q) := by
  have := d.isLt; have := a.isLt; have := f.code_lt; have := q.isLt
  exact of_some rfl fun hw => decodeWord_layR (by omega) rfl (by simp) (by simp) hw
theorem vxLog2 (d : VReg) (a : VReg) (f : VFmt) (q : QReg) : Statement (.vxLog2 d a f q) := by
  have := d.isLt; have := a.isLt; have := f.code_lt; have := q.isLt
  exact of_some rfl fun hw => decodeWord_layR (by omega) rfl (by simp) (by simp) hw
theorem vyCvt (d : VReg) (a : VReg) (part : Fin 4) (sf : VFmt) (f : VFmt) (q : QReg) (r : Rnd) : Statement (.vyCvt d a part sf f q r) := by
  cases r <;>
  (have := d.isLt
   have := a.isLt
   have := part.isLt
   have := sf.code_lt
   have := f.code_lt
   have := q.isLt
   exact of_some rfl fun hw =>
    decodeWord_layR (by simp only [Rnd.code]; omega) rfl (by simp) (by simp [Rnd.ofCode] <;> (try apply And.intro) <;> (apply Fin.ext; show _ % _ = _; omega)) hw)
theorem vyCvs (d : VReg) (a : VReg) (part : Fin 4) (sf : VFmt) (f : VFmt) (q : QReg) : Statement (.vyCvs d a part sf f q) := by
  have := d.isLt; have := a.isLt; have := part.isLt; have := sf.code_lt; have := f.code_lt; have := q.isLt
  exact of_some rfl fun hw =>
    decodeWord_layR (by omega) rfl (by simp) (by simp <;> (try apply And.intro) <;> (apply Fin.ext; show _ % _ = _; omega)) hw
theorem vyCvo (d : VReg) (a : VReg) (part : Fin 4) (sf : VFmt) (f : VFmt) (q : QReg) : Statement (.vyCvo d a part sf f q) := by
  have := d.isLt; have := a.isLt; have := part.isLt; have := sf.code_lt; have := f.code_lt; have := q.isLt
  exact of_some rfl fun hw =>
    decodeWord_layR (by omega) rfl (by simp) (by simp <;> (try apply And.intro) <;> (apply Fin.ext; show _ % _ = _; omega)) hw
theorem vyPpk (d : VReg) (a : VReg) (n3 : Bool) (sf : VFmt) (n : Fin 8) (q : QReg) : Statement (.vyPpk d a n3 sf n q) := by
  have := d.isLt; have := a.isLt; have := toNat_lt_two n3; have := sf.code_lt; have := n.isLt; have := q.isLt
  exact of_some rfl fun hw => decodeWord_layR (by omega) rfl (by simp; omega) (by simp) hw
theorem vyPun (d : VReg) (a : VReg) (n3 : Bool) (sf : VFmt) (n : Fin 8) (q : QReg) : Statement (.vyPun d a n3 sf n q) := by
  have := d.isLt; have := a.isLt; have := toNat_lt_two n3; have := sf.code_lt; have := n.isLt; have := q.isLt
  exact of_some rfl fun hw => decodeWord_layR (by omega) rfl (by simp; omega) (by simp) hw
theorem mxMma (t : TileNo) (z : Bool) (a : AReg) (lake : LakeNo) (f : MFmt) (pl : Fin 8) : Statement (.mxMma t z a lake f pl) := by
  have := t.isLt; have := toNat_lt_two z; have := a.isLt; have := lake.isLt; have := f.code_lt; have := pl.isLt
  exact of_some rfl fun hw =>
    decodeWord_layR (by omega) (if_pos (by simp)) (by simp; omega) (by simp <;> (try apply And.intro) <;> (apply Fin.ext; show _ % _ = _; omega)) hw
theorem mxMms (t : TileNo) (z : Bool) (a : AReg) (lake : LakeNo) (f : MFmt) (pl : Fin 8) : Statement (.mxMms t z a lake f pl) := by
  have := t.isLt; have := toNat_lt_two z; have := a.isLt; have := lake.isLt; have := f.code_lt; have := pl.isLt
  exact of_some rfl fun hw =>
    decodeWord_layR (by omega) (if_neg (by simp)) (by simp; omega) (by simp <;> (try apply And.intro) <;> (apply Fin.ext; show _ % _ = _; omega)) hw
theorem mxClr (t : TileNo) (q : QReg) : Statement (.mxClr t q) := by
  have := t.isLt; have := q.isLt
  exact of_some rfl fun hw => decodeWord_layR (by omega) rfl (by simp) (by simp) hw
theorem mxDrn (t : TileNo) (clr : Bool) (a : AReg) (hi : Bool) (b : VReg) (q : QReg) : Statement (.mxDrn t clr a hi b q) := by
  have := t.isLt; have := toNat_lt_two clr; have := a.isLt; have := toNat_lt_two hi; have := b.isLt; have := q.isLt
  exact of_some rfl fun hw =>
    decodeWord_layR (by omega) rfl (by simp) (by simp <;> (try apply And.intro) <;> (apply Fin.ext; show _ % _ = _; omega)) hw
theorem mxFil (t : TileNo) (a : AReg) (hi : Bool) (b : VReg) (q : QReg) : Statement (.mxFil t a hi b q) := by
  have := t.isLt; have := a.isLt; have := toNat_lt_two hi; have := b.isLt; have := q.isLt
  exact of_some rfl fun hw =>
    decodeWord_layR (by omega) rfl (by simp) (by simp <;> (try apply And.intro) <;> (apply Fin.ext; show _ % _ = _; omega)) hw
theorem mxSt (t : TileNo) (out : Bool) (a : AReg) (f : StFmt) (q : QReg) : Statement (.mxSt t out a f q) := by
  have := t.isLt; have := toNat_lt_two out; have := a.isLt; have := f.code_lt; have := q.isLt
  exact of_some rfl fun hw =>
    decodeWord_layR (by omega) rfl (by simp; omega) (by simp <;> (try apply And.intro) <;> (apply Fin.ext; show _ % _ = _; omega)) hw
theorem mxLd (t : TileNo) (a : AReg) (bf : Bool) (q : QReg) : Statement (.mxLd t a bf q) := by
  have := t.isLt; have := a.isLt; have := toNat_lt_two bf; have := q.isLt
  exact of_some rfl fun hw => decodeWord_layR (by omega) rfl (by simp; omega) (by simp) hw
theorem mxCmp (a : AReg) (inc : Bool) (b : SReg) (f : MFmt) (q : QReg) : Statement (.mxCmp a inc b f q) := by
  have := a.isLt; have := toNat_lt_two inc; have := b.isLt; have := f.code_lt; have := q.isLt
  exact of_some rfl fun hw =>
    decodeWord_layR (by omega) rfl (by simp; omega) (by simp <;> (try apply And.intro) <;> (apply Fin.ext; show _ % _ = _; omega)) hw
theorem mxTsr (t : TileNo) (b : SReg) (q : QReg) : Statement (.mxTsr t b q) := by
  have := t.isLt; have := b.isLt; have := q.isLt
  exact of_some rfl fun hw => decodeWord_layR (by omega) rfl (by simp) (by simp) hw
theorem mxAcp (t : TileNo) (add : Bool) (src : TileNo) (q : QReg) : Statement (.mxAcp t add src q) := by
  have := t.isLt; have := toNat_lt_two add; have := src.isLt; have := q.isLt
  exact of_some rfl fun hw =>
    decodeWord_layR (by omega) rfl (by simp) (by simp <;> (try apply And.intro) <;> (apply Fin.ext; show _ % _ = _; omega)) hw
theorem lkAlloc (d : SReg) (a : SReg) (b : SReg) (f : MFmt) (sp : Bool) (q : QReg) : Statement (.lkAlloc d a b f sp q) := by
  have := d.isLt; have := a.isLt; have := b.isLt; have := f.code_lt; have := toNat_lt_two sp; have := q.isLt
  exact of_some rfl fun hw => decodeWord_layR (by omega) rfl (by simp; omega) (by simp) hw
theorem lkLoad (a : SReg) (q : QReg) : Statement (.lkLoad a q) := by
  have := a.isLt; have := q.isLt
  exact of_some rfl fun hw => decodeWord_layR (by omega) rfl (by simp) (by simp) hw
theorem lkPin (a : SReg) (q : QReg) : Statement (.lkPin a q) := by
  have := a.isLt; have := q.isLt
  exact of_some rfl fun hw => decodeWord_layR (by omega) rfl (by simp) (by simp) hw
theorem lkUnpin (a : SReg) (q : QReg) : Statement (.lkUnpin a q) := by
  have := a.isLt; have := q.isLt
  exact of_some rfl fun hw => decodeWord_layR (by omega) rfl (by simp) (by simp) hw
theorem lkRevk (a : SReg) (q : QReg) : Statement (.lkRevk a q) := by
  have := a.isLt; have := q.isLt
  exact of_some rfl fun hw => decodeWord_layR (by omega) rfl (by simp) (by simp) hw
theorem lkQry (d : SReg) (a : SReg) (q : QReg) : Statement (.lkQry d a q) := by
  have := d.isLt; have := a.isLt; have := q.isLt
  exact of_some rfl fun hw => decodeWord_layR (by omega) rfl (by simp) (by simp) hw
theorem lkQuota (a : SReg) (b : SReg) (q : QReg) : Statement (.lkQuota a b q) := by
  have := a.isLt; have := b.isLt; have := q.isLt
  exact of_some rfl fun hw => decodeWord_layR (by omega) rfl (by simp) (by simp) hw
theorem lkSclr (a : SReg) (q : QReg) : Statement (.lkSclr a q) := by
  have := a.isLt; have := q.isLt
  exact of_some rfl fun hw => decodeWord_layR (by omega) rfl (by simp) (by simp) hw
theorem cpLvl (d : SReg) (a : SReg) (b : SReg) (ch : Chan) (q : QReg) : Statement (.cpLvl d a b ch q) := by
  have := d.isLt; have := a.isLt; have := b.isLt; have := ch.isLt; have := q.isLt
  exact of_some rfl fun hw => decodeWord_layR (by omega) rfl (by simp) (by simp) hw
theorem cpSrc (a : SReg) (ch : Chan) (far : Bool) (q : QReg) : Statement (.cpSrc a ch far q) := by
  have := a.isLt; have := ch.isLt; have := toNat_lt_two far; have := q.isLt
  exact of_some rfl fun hw =>
    decodeWord_layR (by omega) rfl (by simp) (by simp <;> (try apply And.intro) <;> (apply Fin.ext; show _ % _ = _; omega)) hw
theorem cpDst (a : SReg) (ch : Chan) (far : Bool) (q : QReg) : Statement (.cpDst a ch far q) := by
  have := a.isLt; have := ch.isLt; have := toNat_lt_two far; have := q.isLt
  exact of_some rfl fun hw =>
    decodeWord_layR (by omega) rfl (by simp) (by simp <;> (try apply And.intro) <;> (apply Fin.ext; show _ % _ = _; omega)) hw
theorem cpBnd (d : SReg) (a : SReg) (b : SReg) (ch : Chan) (q : QReg) : Statement (.cpBnd d a b ch q) := by
  have := d.isLt; have := a.isLt; have := b.isLt; have := ch.isLt; have := q.isLt
  exact of_some rfl fun hw => decodeWord_layR (by omega) rfl (by simp) (by simp) hw
theorem cpGo (a : SReg) (b : SReg) (ch : Chan) (dec : Bool) (q : QReg) : Statement (.cpGo a b ch dec q) := by
  have := a.isLt; have := b.isLt; have := ch.isLt; have := toNat_lt_two dec; have := q.isLt
  exact of_some rfl fun hw =>
    decodeWord_layR (by omega) rfl (by simp) (by simp <;> (try apply And.intro) <;> (apply Fin.ext; show _ % _ = _; omega)) hw
theorem cpWmk (d : SReg) (ch : Chan) (q : QReg) : Statement (.cpWmk d ch q) := by
  have := d.isLt; have := ch.isLt; have := q.isLt
  exact of_some rfl fun hw => decodeWord_layR (by omega) rfl (by simp) (by simp) hw
theorem cpCncl (ch : Chan) (q : QReg) : Statement (.cpCncl ch q) := by
  have := ch.isLt; have := q.isLt
  exact of_some rfl fun hw => decodeWord_layR (by omega) rfl (by simp) (by simp) hw
theorem cpRpl (a : SReg) (q : QReg) : Statement (.cpRpl a q) := by
  have := a.isLt; have := q.isLt
  exact of_some rfl fun hw => decodeWord_layR (by omega) rfl (by simp) (by simp) hw
theorem cpBput (a : SReg) (q : QReg) : Statement (.cpBput a q) := by
  have := a.isLt; have := q.isLt
  exact of_some rfl fun hw => decodeWord_layR (by omega) rfl (by simp) (by simp) hw
theorem cpBlat (a : SReg) (q : QReg) : Statement (.cpBlat a q) := by
  have := a.isLt; have := q.isLt
  exact of_some rfl fun hw => decodeWord_layR (by omega) rfl (by simp) (by simp) hw
theorem rsGo (a : SReg) (q : QReg) : Statement (.rsGo a q) := by
  have := a.isLt; have := q.isLt
  exact of_some rfl fun hw => decodeWord_layR (by omega) rfl (by simp) (by simp) hw
theorem rsStat (d : SReg) (q : QReg) : Statement (.rsStat d q) := by
  have := d.isLt; have := q.isLt
  exact of_some rfl fun hw => decodeWord_layR (by omega) rfl (by simp) (by simp) hw
theorem fxPush (port : Port) (b : SReg) (q : QReg) : Statement (.fxPush port b q) := by
  have := port.isLt; have := b.isLt; have := q.isLt
  exact of_some rfl fun hw =>
    decodeWord_layR (by omega) rfl (by simp; omega) (by simp <;> (try apply And.intro) <;> (apply Fin.ext; show _ % _ = _; omega)) hw
theorem fxPop (port : Port) (b : SReg) (q : QReg) : Statement (.fxPop port b q) := by
  have := port.isLt; have := b.isLt; have := q.isLt
  exact of_some rfl fun hw =>
    decodeWord_layR (by omega) rfl (by simp; omega) (by simp <;> (try apply And.intro) <;> (apply Fin.ext; show _ % _ = _; omega)) hw
theorem fxSt (port : Port) (a : AReg) (b : Fin 32) (w : Fin 7) (q : QReg) : Statement (.fxSt port a b w q) := by
  have := port.isLt; have := a.isLt; have := b.isLt; have := w.isLt; have := q.isLt
  exact of_some rfl fun hw =>
    decodeWord_layR (by omega) rfl (by simp; omega) (by simp <;> (try apply And.intro) <;> (apply Fin.ext; show _ % _ = _; omega)) hw
theorem fxLd (port : Port) (a : AReg) (w : Fin 6) (q : QReg) : Statement (.fxLd port a w q) := by
  have := port.isLt; have := a.isLt; have := w.isLt; have := q.isLt
  exact of_some rfl fun hw =>
    decodeWord_layR (by omega) rfl (by simp; omega) (by simp <;> (try apply And.intro) <;> (apply Fin.ext; show _ % _ = _; omega)) hw
theorem fxAt (port : Port) (a : AReg) (b : SReg) (op : FxOp) (q : QReg) : Statement (.fxAt port a b op q) := by
  have := port.isLt; have := a.isLt; have := b.isLt; have := op.code_lt; have := q.isLt
  exact of_some rfl fun hw =>
    decodeWord_layR (by omega) rfl (by simp; omega) (by simp <;> (try apply And.intro) <;> (apply Fin.ext; show _ % _ = _; omega)) hw
theorem fxRep (port : Port) (a : AReg) (b : VReg) (w : Fin 6) (q : QReg) : Statement (.fxRep port a b w q) := by
  have := port.isLt; have := a.isLt; have := b.isLt; have := w.isLt; have := q.isLt
  exact of_some rfl fun hw =>
    decodeWord_layR (by omega) rfl (by simp; omega) (by simp <;> (try apply And.intro) <;> (apply Fin.ext; show _ % _ = _; omega)) hw
theorem fxMark (port : Port) (b : SReg) (q : QReg) : Statement (.fxMark port b q) := by
  have := port.isLt; have := b.isLt; have := q.isLt
  exact of_some rfl fun hw =>
    decodeWord_layR (by omega) rfl (by simp; omega) (by simp <;> (try apply And.intro) <;> (apply Fin.ext; show _ % _ = _; omega)) hw
theorem fxDrn (b : SReg) (q : QReg) : Statement (.fxDrn b q) := by
  have := b.isLt; have := q.isLt
  exact of_some rfl fun hw => decodeWord_layR (by omega) rfl (by simp) (by simp) hw
theorem fxMsg (port : Port) (b : SReg) (q : QReg) : Statement (.fxMsg port b q) := by
  have := port.isLt; have := b.isLt; have := q.isLt
  exact of_some rfl fun hw =>
    decodeWord_layR (by omega) rfl (by simp; omega) (by simp <;> (try apply And.intro) <;> (apply Fin.ext; show _ % _ = _; omega)) hw
theorem fxLst (port : Port) (b : SReg) (q : QReg) : Statement (.fxLst port b q) := by
  have := port.isLt; have := b.isLt; have := q.isLt
  exact of_some rfl fun hw =>
    decodeWord_layR (by omega) rfl (by simp; omega) (by simp <;> (try apply And.intro) <;> (apply Fin.ext; show _ % _ = _; omega)) hw
theorem syFence (ord : FOrd) (sc : Scope) (q : QReg) : Statement (.syFence ord sc q) := by
  have := ord.code_lt; have := ord.code_pos; have := sc.code_lt; have := q.isLt
  exact of_some rfl fun hw => decodeWord_layR (by omega) rfl (by simp; omega) (by simp) hw
theorem syXf (paths : BitVec 6) (q : QReg) : Statement (.syXf paths q) := by
  have := paths.isLt; have := q.isLt
  exact of_some rfl fun hw => decodeWord_layR (by omega) rfl (by simp) (by simp) hw
theorem syDrn (d : SReg) (paths : BitVec 6) (sc : Scope) (q : QReg) : Statement (.syDrn d paths sc q) := by
  have := d.isLt; have := paths.isLt; have := sc.code_lt; have := q.isLt
  exact of_some rfl fun hw => decodeWord_layR (by omega) rfl (by simp; omega) (by simp) hw
theorem syWait (d : SReg) (sc : Scope) (q : QReg) : Statement (.syWait d sc q) := by
  have := d.isLt; have := sc.code_lt; have := q.isLt
  exact of_some rfl fun hw => decodeWord_layR (by omega) rfl (by simp; omega) (by simp) hw
theorem syPhase (d : SReg) (q : QReg) : Statement (.syPhase d q) := by
  have := d.isLt; have := q.isLt
  exact of_some rfl fun hw => decodeWord_layR (by omega) rfl (by simp) (by simp) hw
theorem syLcr (d : SReg) (q : QReg) : Statement (.syLcr d q) := by
  have := d.isLt; have := q.isLt
  exact of_some rfl fun hw => decodeWord_layR (by omega) rfl (by simp) (by simp) hw
theorem trTrap (k : BitVec 16) : Statement (.trTrap k) := by
  have := k.isLt
  exact of_some rfl fun hw => decodeWord_layI (p := True) (dec := inferInstance) (j := .trTrap k) (by omega)
    (by simp [decodeFields, decodeTr, gate]) trivial rfl hw
theorem trRft (q : QReg) : Statement (.trRft q) := by
  have := q.isLt
  exact of_some rfl fun hw => decodeWord_layR (by omega) rfl (by simp) (by simp) hw
theorem trRfu (q : QReg) : Statement (.trRfu q) := by
  have := q.isLt
  exact of_some rfl fun hw => decodeWord_layR (by omega) rfl (by simp) (by simp) hw
theorem trCsrr (d : SReg) (n : Fin 4096) : Statement (.trCsrr d n) := by
  have := d.isLt; have := n.isLt
  exact of_some rfl fun hw => decodeWord_layI (by omega) rfl (by simp) (by simp) hw
theorem trCsrw (d : SReg) (n : Fin 4096) : Statement (.trCsrw d n) := by
  have := d.isLt; have := n.isLt
  exact of_some rfl fun hw => decodeWord_layI (by omega) rfl (by simp) (by simp) hw
theorem trYld (q : QReg) : Statement (.trYld q) := by
  have := q.isLt
  exact of_some rfl fun hw => decodeWord_layR (by omega) rfl (by simp) (by simp) hw
theorem trHalt (q : QReg) : Statement (.trHalt q) := by
  have := q.isLt
  exact of_some rfl fun hw => decodeWord_layR (by omega) rfl (by simp) (by simp) hw
theorem trKill (a : SReg) (q : QReg) : Statement (.trKill a q) := by
  have := a.isLt; have := q.isLt
  exact of_some rfl fun hw => decodeWord_layR (by omega) rfl (by simp) (by simp) hw
theorem scUse (a : EReg) (b : EReg) (q : QReg) : Statement (.scUse a b q) := by
  have := a.isLt; have := b.isLt; have := q.isLt
  exact of_some rfl fun hw => decodeWord_layR (by omega) rfl (by simp) (by simp) hw
theorem scLd (d : EReg) (a : AReg) (b : SReg) (q : QReg) : Statement (.scLd d a b q) := by
  have := d.isLt; have := a.isLt; have := b.isLt; have := q.isLt
  exact of_some rfl fun hw => decodeWord_layR (by omega) rfl (by simp) (by simp) hw
theorem scLdm (a : AReg) (b : SReg) (q : QReg) : Statement (.scLdm a b q) := by
  have := a.isLt; have := b.isLt; have := q.isLt
  exact of_some rfl fun hw => decodeWord_layR (by omega) rfl (by simp) (by simp) hw
theorem pxRep (n : Fin 256) : Statement (.pxRep n) := by
  have := n.isLt
  exact of_some rfl fun hw => decodeWord_layI (by omega) rfl (by simp) (by simp) hw
theorem pxFirst (l : Level) : Statement (.pxFirst l) := by
  have := l.isLt
  exact of_some rfl fun hw => decodeWord_layI (by omega) rfl (by simp) (by simp) hw
theorem pxLast (l : Level) : Statement (.pxLast l) := by
  have := l.isLt
  exact of_some rfl fun hw => decodeWord_layI (by omega) rfl (by simp) (by simp) hw
theorem pxSeg (n : Fin 16) : Statement (.pxSeg n) := by
  have := n.isLt
  exact of_some rfl fun hw => decodeWord_layI (by omega) rfl (by simp) (by simp) hw
theorem issueCycle (cl : Fin 40) (err : IssueErr) : Statement (.issueCycle cl err) := of_none rfl
theorem dcHello (client : BitVec 32) (seq : Word) : Statement (.dcHello client seq) := of_none rfl
theorem dcGet (client : BitVec 32) (seq : Word) (addr : Word) (len : BitVec 32) : Statement (.dcGet client seq addr len) := of_none rfl
theorem dcPut (client : BitVec 32) (seq : Word) (addr : Word) (bs : List Byte) : Statement (.dcPut client seq addr bs) := of_none rfl
theorem dcKick (client : BitVec 32) (seq : Word) (qn : BitVec 16) (tail : Word) : Statement (.dcKick client seq qn tail) := of_none rfl
theorem dcQcreate (client : BitVec 32) (seq : Word) (qn : BitVec 16) (prio : BitVec 8) (sup : BitVec 8) (npkt : BitVec 32) (ring : Word) : Statement (.dcQcreate client seq qn prio sup npkt ring) := of_none rfl
theorem dcQdestroy (client : BitVec 32) (seq : Word) (qn : BitVec 16) : Statement (.dcQdestroy client seq qn) := of_none rfl
theorem dcQreset (client : BitVec 32) (seq : Word) (qn : BitVec 16) : Statement (.dcQreset client seq qn) := of_none rfl
theorem dcQstatus (client : BitVec 32) (seq : Word) (qn : BitVec 16) : Statement (.dcQstatus client seq qn) := of_none rfl
theorem dcWindow (client : BitVec 32) (seq : Word) (addr : Word) (len : Word) (dir : BitVec 8) : Statement (.dcWindow client seq addr len dir) := of_none rfl
theorem dcLoad (client : BitVec 32) (seq : Word) (addr : Word) (len : Word) : Statement (.dcLoad client seq addr len) := of_none rfl
theorem dcUnload (client : BitVec 32) (seq : Word) (img : BitVec 32) : Statement (.dcUnload client seq img) := of_none rfl
theorem dcQuiesce (client : BitVec 32) (seq : Word) (area : Word) (us : BitVec 32) : Statement (.dcQuiesce client seq area us) := of_none rfl
theorem pkNop (q : Fin 4096) : Statement (.pkNop q) := of_none rfl
theorem pkLaunch (q : Fin 4096) (img : BitVec 32) (prio : Fin 4) (svc : Bool) (cluster : BitVec 8) (cmask : BitVec 8) (iseg : Fin 16) (xdesc : Word) (cw : Word) (crec : Word) (phase : Word) (savep : Word) : Statement (.pkLaunch q img prio svc cluster cmask iseg xdesc cw crec phase savep) := of_none rfl
theorem pkCall (q : Fin 4096) (base : Word) (len : BitVec 32) : Statement (.pkCall q base len) := of_none rfl
theorem pkRet (q : Fin 4096) : Statement (.pkRet q) := of_none rfl
theorem pkPred (q : Fin 4096) (word : Word) (value : Word) (mask : Word) (cond : Fin 6) (skip : BitVec 16) : Statement (.pkPred q word value mask cond skip) := of_none rfl
theorem pkLoop (q : Fin 4096) (count : BitVec 16) (body : BitVec 16) : Statement (.pkLoop q count body) := of_none rfl
theorem pkFence (q : Fin 4096) : Statement (.pkFence q) := of_none rfl
theorem pkWrite (q : Fin 4096) (addr : Word) (value : Word) (add : Bool) (rel : Bool) : Statement (.pkWrite q addr value add rel) := of_none rfl
theorem pkWait (q : Fin 4096) (word : Word) (thresh : Word) (notify : Fin 3) (async : Bool) (task : Word) (mem : Word) (tag : BitVec 32) : Statement (.pkWait q word thresh notify async task mem tag) := of_none rfl
theorem pkSignal (q : Fin 4096) (word : Word) (dec : Word) : Statement (.pkSignal q word dec) := of_none rfl
theorem pkStamp (q : Fin 4096) (addr : Word) : Statement (.pkStamp q addr) := of_none rfl
theorem pkLakeRevoke (q : Fin 4096) (task : Word) (mem : BitVec 8) (l : Fin 16) : Statement (.pkLakeRevoke q task mem l) := of_none rfl
theorem pkLakeQuota (q : Fin 4096) (tenant : BitVec 12) (limit : BitVec 8) : Statement (.pkLakeQuota q tenant limit) := of_none rfl
theorem pkReshard (q : Fin 4096) (plan : Word) : Statement (.pkReshard q plan) := of_none rfl
theorem pkKill (q : Fin 4096) (task : Word) : Statement (.pkKill q task) := of_none rfl
theorem pkPreempt (q : Fin 4096) (task : Word) (savep : Word) : Statement (.pkPreempt q task savep) := of_none rfl
theorem pkResume (q : Fin 4096) (ibase : Word) (prio : Fin 4) (cluster : BitVec 8) (cmask : BitVec 8) (iseg : Fin 16) (cw : Word) (crec : Word) (phase : Word) (savep : Word) : Statement (.pkResume q ibase prio cluster cmask iseg cw crec phase savep) := of_none rfl
theorem pkCrpl (q : Fin 4096) (cl : Fin 40) (chan : BitVec 7) : Statement (.pkCrpl q cl chan) := of_none rfl
theorem pkRing (q : Fin 4096) (base : Word) (nent : BitVec 32) : Statement (.pkRing q base nent) := of_none rfl
theorem pkSteerInstall (q : Fin 4096) (rule : BitVec 8) (ports : Fin 4) (udp : BitVec 16) (task : Word) (base : BitVec 32) (slotLog : BitVec 8) (nslotLog : BitVec 8) (member : BitVec 8) (cluster : BitVec 8) : Statement (.pkSteerInstall q rule ports udp task base slotLog nslotLog member cluster) := of_none rfl
theorem pkSteerRemove (q : Fin 4096) (rule : BitVec 8) : Statement (.pkSteerRemove q rule) := of_none rfl
theorem starvationPromotion (task : Word) : Statement (.starvationPromotion task) := of_none rfl
theorem registerResultLands (task : Word) (m : Fin 8) : Statement (.registerResultLands task m) := of_none rfl
theorem queueLoadDataArrival (task : Word) (m : Fin 8) : Statement (.queueLoadDataArrival task m) := of_none rfl
theorem queueStorePairing (task : Word) (m : Fin 8) : Statement (.queueStorePairing task m) := of_none rfl
theorem repeatReissue (task : Word) (m : Fin 8) : Statement (.repeatReissue task m) := of_none rfl
theorem heldWritePerformed (task : Word) (m : Fin 8) : Statement (.heldWritePerformed task m) := of_none rfl
theorem arrayOpComplete (cl : Fin 40) (co : Fin 8) (out : ArrayOut) : Statement (.arrayOpComplete cl co out) := of_none rfl
theorem lakeFillStart (task : Word) (m : Fin 8) (l : Fin 16) : Statement (.lakeFillStart task m l) := of_none rfl
theorem lakeFillComplete (task : Word) (m : Fin 8) (l : Fin 16) (out : MemOut) : Statement (.lakeFillComplete task m l out) := of_none rfl
theorem klsvcRefill (task : Word) (m : Fin 8) (l : Fin 16) : Statement (.klsvcRefill task m l) := of_none rfl
theorem klsvcAccept (task : Word) (m : Fin 8) (l : Fin 16) : Statement (.klsvcAccept task m l) := of_none rfl
theorem klsvcRevoke (task : Word) (m : Fin 8) (l : Fin 16) : Statement (.klsvcRevoke task m l) := of_none rfl
theorem copyTransferStart (cl : Fin 40) (co : Fin 8) (ch : Fin 4) : Statement (.copyTransferStart cl co ch) := of_none rfl
theorem copyChunk (cl : Fin 40) (co : Fin 8) (ch : Fin 4) (out : MemOut) : Statement (.copyChunk cl co ch out) := of_none rfl
theorem pageWalkComplete (task : Word) (m : Fin 8) (e : Fin 8) (out : MemOut) : Statement (.pageWalkComplete task m e out) := of_none rfl
theorem farStorePerformed (task : Word) (m : Fin 8) (i : Fin 16) (out : MemOut) : Statement (.farStorePerformed task m i out) := of_none rfl
theorem farLoadDataArrival (task : Word) (m : Fin 8) (i : Fin 16) (out : MemOut) : Statement (.farLoadDataArrival task m i out) := of_none rfl
theorem kxinvWrite (task : Word) (m : Fin 8) (v : Word) : Statement (.kxinvWrite task m v) := of_none rfl
theorem invalidationComplete (task : Word) (m : Fin 8) : Statement (.invalidationComplete task m) := of_none rfl
theorem invalidationTimeout (task : Word) (m : Fin 8) : Statement (.invalidationTimeout task m) := of_none rfl
theorem touchExpiry (task : Word) (m : Fin 8) (e : Fin 8) : Statement (.touchExpiry task m e) := of_none rfl
theorem drainComplete (task : Word) : Statement (.drainComplete task) := of_none rfl
theorem waitReread (task : Word) : Statement (.waitReread task) := of_none rfl
theorem userInterruptTaken (task : Word) (m : Fin 8) : Statement (.userInterruptTaken task m) := of_none rfl
theorem kuipWrite (task : Word) (m : Fin 8) (v : Word) : Statement (.kuipWrite task m v) := of_none rfl
theorem kbudgetWrite (v : Word) : Statement (.kbudgetWrite v) := of_none rfl
theorem supervisorRecordDelivery : Statement (.supervisorRecordDelivery) := of_none rfl
theorem preemption (task : Word) : Statement (.preemption task) := of_none rfl
theorem blockPullComplete (task : Word) (kind : BlockKind) (m : Fin 8) (i : Fin 2048) (out : PullOut) : Statement (.blockPullComplete task kind m i out) := of_none rfl
theorem blockWriteOut (ibase : Word) (kind : BlockKind) (m : Fin 8) (i : Fin 2048) : Statement (.blockWriteOut ibase kind m i) := of_none rfl
theorem kisvcRetry (ticket : BitVec 32) : Statement (.kisvcRetry ticket) := of_none rfl
theorem kisvcAbandon (ticket : BitVec 32) : Statement (.kisvcAbandon ticket) := of_none rfl
theorem segmentArrival (task : Word) (m : Fin 8) (seg : Fin 16) : Statement (.segmentArrival task m seg) := of_none rfl
theorem engineAccessGuard (cl : Fin 40) (bank : Fin 64) (row : BitVec 11) : Statement (.engineAccessGuard cl bank row) := of_none rfl
theorem clusterRetest (cl : Fin 40) : Statement (.clusterRetest cl) := of_none rfl
theorem hostPacketArrival (hp : Fin 2) (udp : BitVec 16) (bs : List Byte) : Statement (.hostPacketArrival hp udp bs) := of_none rfl
theorem deceoMessageReceived (bs : List Byte) : Statement (.deceoMessageReceived bs) := of_none rfl
theorem rdmaWrite (rkey : BitVec 32) (addr : Word) (bs : List Byte) : Statement (.rdmaWrite rkey addr bs) := of_none rfl
theorem rdmaRead (rkey : BitVec 32) (addr : Word) (len : BitVec 32) : Statement (.rdmaRead rkey addr len) := of_none rfl
theorem siennaExecutiveCycle (i : Fin 8) : Statement (.siennaExecutiveCycle i) := of_none rfl
theorem waitSatisfied (async : Bool) (i : Fin 4096) : Statement (.waitSatisfied async i) := of_none rfl
theorem waitPoll (async : Bool) (i : Fin 4096) : Statement (.waitPoll async i) := of_none rfl
theorem taskDispatch (far : List FarMember) : Statement (.taskDispatch far) := of_none rfl
theorem taskCompletion (task : Word) : Statement (.taskCompletion task) := of_none rfl
theorem remoteRequestArrival (r : ReqPacket) (out : MemOut) : Statement (.remoteRequestArrival r out) := of_none rfl
theorem remoteReplyArrival (port : Port) (dev : BitVec 15) (sn : BitVec 48) (ans : Bool × List Word) :
    Statement (.remoteReplyArrival port dev sn ans) := of_none rfl
theorem messageBufferRelease : Statement (.messageBufferRelease) := of_none rfl
theorem markerTimeout (dev : BitVec 15) (sn : BitVec 48) : Statement (.markerTimeout dev sn) := of_none rfl
theorem resendTimer (dev : BitVec 15) (sn : BitVec 48) : Statement (.resendTimer dev sn) := of_none rfl
theorem peerTimeout (dev : BitVec 15) (sn : BitVec 48) : Statement (.peerTimeout dev sn) := of_none rfl
theorem sequenceMemoryExpiry (dev : BitVec 15) (sn : BitVec 48) : Statement (.sequenceMemoryExpiry dev sn) := of_none rfl
theorem creditReturn (port : Port) (rsp : Bool) (n : BitVec 16) : Statement (.creditReturn port rsp n) := of_none rfl
theorem abortArrival (r : ReqPacket) : Statement (.abortArrival r) := of_none rfl
theorem signalLock (port : Port) : Statement (.signalLock port) := of_none rfl
theorem trainingComplete (port : Port) (peer : BitVec 15) (peerPort : Port) : Statement (.trainingComplete port peer peerPort) := of_none rfl
theorem signalLoss (port : Port) : Statement (.signalLoss port) := of_none rfl
theorem darkTimeout (port : Port) : Statement (.darkTimeout port) := of_none rfl
theorem linkErrorFence (port : Port) (ecc : Bool) : Statement (.linkErrorFence port ecc) := of_none rfl
theorem kflctlFence (port : Port) : Statement (.kflctlFence port) := of_none rfl
theorem kflctlUnfence (port : Port) : Statement (.kflctlUnfence port) := of_none rfl
theorem kflctlRetrain (port : Port) : Statement (.kflctlRetrain port) := of_none rfl
theorem planClaim (who : PlanWho) : Statement (.planClaim who) := of_none rfl
theorem planStep (i : Fin 256) (out : StepOut) : Statement (.planStep i out) := of_none rfl
theorem powerOnReset (bist : Bist) : Statement (.powerOnReset bist) := of_none rfl
theorem resetInput (bist : Bist) : Statement (.resetInput bist) := of_none rfl
theorem watchdogReset (bist : Bist) : Statement (.watchdogReset bist) := of_none rfl
theorem testRunJudged (cl : Fin 40) : Statement (.testRunJudged cl) := of_none rfl
theorem testRunTimeout (cl : Fin 40) : Statement (.testRunTimeout cl) := of_none rfl
theorem mgIdentify : Statement (.mgIdentify) := of_none rfl
theorem mgSensors (sid : BitVec 32) : Statement (.mgSensors sid) := of_none rfl
theorem mgLogRead (sid : BitVec 32) (first : Word) : Statement (.mgLogRead sid first) := of_none rfl
theorem mgFwWrite (sid : BitVec 32) (ochre : Bool) (bs : List Byte) (cut : Bool) : Statement (.mgFwWrite sid ochre bs cut) := of_none rfl
theorem mgFwActivate (sid : BitVec 32) (ochre : Bool) : Statement (.mgFwActivate sid ochre) := of_none rfl
theorem mgFwCommit (sid : BitVec 32) (ochre : Bool) : Statement (.mgFwCommit sid ochre) := of_none rfl
theorem fwRevert (ochre : Bool) : Statement (.fwRevert ochre) := of_none rfl
theorem mgReset (sid : BitVec 32) (bist : Bist) : Statement (.mgReset sid bist) := of_none rfl
theorem mgPowerCap (sid : BitVec 32) (watts : BitVec 16) : Statement (.mgPowerCap sid watts) := of_none rfl
theorem mgProvision (sid : BitVec 32) (es : List ProvEntry) : Statement (.mgProvision sid es) := of_none rfl
theorem mgProtect (sid : BitVec 32) (base : Word) (len : Word) : Statement (.mgProtect sid base len) := of_none rfl
theorem mgUnprotect (sid : BitVec 32) (base : Word) (len : Word) : Statement (.mgUnprotect sid base len) := of_none rfl
theorem mgClusterState (sid : BitVec 32) : Statement (.mgClusterState sid) := of_none rfl
theorem mgRepairRead (sid : BitVec 32) : Statement (.mgRepairRead sid) := of_none rfl
theorem mgSetKey (sid : BitVec 32) (tenant : BitVec 12) (key : BitVec 32) (bs : List Byte) : Statement (.mgSetKey sid tenant key bs) := of_none rfl
theorem spGetCertificate : Statement (.spGetCertificate) := of_none rfl
theorem spChallenge (bs : List Byte) : Statement (.spChallenge bs) := of_none rfl
theorem spGetMeasurements (i : Fin 256) : Statement (.spGetMeasurements i) := of_none rfl
theorem spKeyExchange (sid : BitVec 32) (bs : List Byte) (period : BitVec 8) : Statement (.spKeyExchange sid bs period) := of_none rfl
theorem spFinish (sid : BitVec 32) (cert : List Byte) (bs : List Byte) : Statement (.spFinish sid cert bs) := of_none rfl
theorem spKeyUpdate (sid : BitVec 32) : Statement (.spKeyUpdate sid) := of_none rfl
theorem spHeartbeat (sid : BitVec 32) : Statement (.spHeartbeat sid) := of_none rfl
theorem spEndSession (sid : BitVec 32) : Statement (.spEndSession sid) := of_none rfl
theorem sessionExpiry (sid : BitVec 32) : Statement (.sessionExpiry sid) := of_none rfl
theorem sensorSample (rs : List (BitVec 16)) (bist : Bist) : Statement (.sensorSample rs bist) := of_none rfl
theorem ptpLock (sec : BitVec 48) (ns : BitVec 32) : Statement (.ptpLock sec ns) := of_none rfl
theorem retrainingFailed (port : Port) : Statement (.retrainingFailed port) := of_none rfl
theorem quiesceTimeout : Statement (.quiesceTimeout) := of_none rfl
theorem mainPowerLoss : Statement (.mainPowerLoss) := of_none rfl
theorem ochreReset : Statement (.ochreReset) := of_none rfl
theorem packetForwarding (x : Transit) (dst : BitVec 15) : Statement (.packetForwarding x dst) := of_none rfl
theorem flitCrcFailure (port : Port) : Statement (.flitCrcFailure port) := of_none rfl

end Sys2Proof.Laws.RoundTrip
end

