-- ==== Sys2Proof/Safety.lean ====
section
/-! DEFINITION. Safety: what counts as a safe run. -/

namespace Sys2Proof

/-- The machine answers a next state in each of the next `n` steps: it stops on no fault and no refusal. -/
def SafeRun (n : Nat) (s : Machine.State) : Prop := ∃ t, core.run n s = .next t

/-- A step from the state keeps a property, when it answers a next state. -/
def StepKeeps (Inv : Machine.State → Prop) : Prop :=
  ∀ s t, Inv s → core.step s = .next t → Inv t

/-- A property holds at reset and is kept by every step. -/
structure Invariant (Inv : Machine.State → Prop) : Prop where
  atReset : Inv core.reset
  kept : StepKeeps Inv

end Sys2Proof
end

