-- ==== Sys2Proof/Certificates/Slice0/Obligations.lean ====
section
/-! DEFINITION. Obligations: the statements for the provers, one definition each, and the few notions they share
(namespace Claim). The values a statement gives are written from the spec's tables, not from the model's own functions,
wherever the spec writes them out. -/

open Sys2Proof Sys2Proof.Machine

namespace Sys2Proof.Claim

/-! ### A slot performed on the issuing context -/

/-- The slot about to be performed: the state beside the issue record taken out of it. -/
def start (s : State) (r : Issue) : Perf := ⟨{ s with iss := none }, r⟩

/-- The state after a slot: the record is put back, at the next slot, with no prefix in force. -/
def finish (p : Perf) : State :=
  { p.st with iss := some { p.is with slot := p.is.slot + 1, cond := true, rep := 0, away := false } }

/-- The state after a px slot: the record is put back at the next slot; what the prefix set stays. -/
def finishPx (p : Perf) : State := { p.st with iss := some { p.is with slot := p.is.slot + 1 } }

/-- In every state with an issuing context the slot `i` completes, and its whole effect is `f`. -/
def Performs (i : Instr) (f : Perf → Perf) : Prop :=
  ∀ (s : State) (r : Issue), s.iss = some r → exec i s = .next (finish (f (start s r)))

/-- The same of a px slot. -/
def PerformsPx (i : Instr) (f : Perf → Perf) : Prop :=
  ∀ (s : State) (r : Issue), s.iss = some r → exec i s = .next (finishPx (f (start s r)))

/-- A slot no predicate governs: skipped only where a px.first or px.last forbids it (R130). -/
def unpredicated (f : Perf → Perf) (p : Perf) : Perf := if p.is.cond = true then f p else p

/-- A slot its predicate governs: bit 0 of Qreg[q] decides (R58). A predicate register whose block was saved and is not yet
back must be pulled before it is known, which freezes the slot (R310; the model's choice, log entry 25); one that is known and
0 leaves all as it is but for what reading it raises. -/
def predicated (q : QReg) (f : Perf → Perf) (p : Perf) : Perf :=
  if p.is.cond = true then
    (if q.val ≠ 0 ∧ (oldCtx p).mode < 2 ∧ (workCtx p).presS = false ∧ (workCtx p).touchS = true then touchBlock p 0
     else if (readQ p q.val).1.getLsbD 0 = true then f (readQ p q.val).2
     else { p with is := { p.is with traps := (readQ p q.val).2.is.traps } })
  else p

/-- A lane slot: the predicate is one bit for each lane (R58). -/
def lanewise (q : QReg) (f : Word → Perf → Perf) (p : Perf) : Perf :=
  if p.is.cond = true then f (readQ p q.val).1 (readQ p q.val).2 else p

/-! ### Integer types (R61, R144) -/

/-- A binary operation on the patterns of an integer type, its result extended by the type: `sg` at the signed types, `un` at
the unsigned ones. -/
def typed2 (sg un : (w : Nat) → BitVec w → BitVec w → BitVec w) : IntTy → Word → Word → Word
  | .i64, x, y => sg 64 x y
  | .n64, x, y => un 64 x y
  | .i32, x, y => (sg 32 (x.setWidth 32) (y.setWidth 32)).signExtend 64
  | .n32, x, y => (un 32 (x.setWidth 32) (y.setWidth 32)).setWidth 64
  | .i16, x, y => (sg 16 (x.setWidth 16) (y.setWidth 16)).signExtend 64
  | .n16, x, y => (un 16 (x.setWidth 16) (y.setWidth 16)).setWidth 64
  | .i8, x, y => (sg 8 (x.setWidth 8) (y.setWidth 8)).signExtend 64
  | .n8, x, y => (un 8 (x.setWidth 8) (y.setWidth 8)).setWidth 64

/-- A unary operation on the pattern of an integer type, its result extended by the type. -/
def typed1 (f : (w : Nat) → BitVec w → BitVec w) : IntTy → Word → Word := fun ty x =>
  typed2 (fun w a _ => f w a) (fun w a _ => f w a) ty x 0

/-- A count of bits of the pattern of an integer type. -/
def counted (f : (w : Nat) → BitVec w → Nat) : IntTy → Word → Word
  | .i64, x | .n64, x => BitVec.ofNat 64 (f 64 x)
  | .i32, x | .n32, x => BitVec.ofNat 64 (f 32 (x.setWidth 32))
  | .i16, x | .n16, x => BitVec.ofNat 64 (f 16 (x.setWidth 16))
  | .i8, x | .n8, x => BitVec.ofNat 64 (f 8 (x.setWidth 8))

/-- A truth value of the patterns of an integer type, as 1 or 0. -/
def compared (sg un : (w : Nat) → BitVec w → BitVec w → Bool) : IntTy → Word → Word → Word :=
  typed2 (fun w a b => if sg w a b then 1 else 0) (fun w a b => if un w a b then 1 else 0)

/-! ### Shapes of scalar slots -/

/-- Sreg[A] and Sreg[B] are read in that order; Sreg[D] takes the value `lat` logical cycles later (R144). -/
def fromTwo (lat : Nat) (val : Word → Word → Word) (d a b : SReg) (p : Perf) : Perf :=
  writeS (readS (readS p a.val).2 b.val).2 d.val lat (val (readS p a.val).1 (readS (readS p a.val).2 b.val).1)

/-- Sreg[A] is read; Sreg[D] takes the value `lat` logical cycles later. -/
def fromOne (lat : Nat) (val : Word → Word) (d a : SReg) (p : Perf) : Perf :=
  writeS (readS p a.val).2 d.val lat (val (readS p a.val).1)

end Sys2Proof.Claim

open Sys2Proof.Claim

/-! ## Encoding (chapter 02) -/

/-- R44 to R68: decoding the word of a well-formed instruction gives it back, every operand at every value its encoding
admits; the word leaves bit 31, the stop bit, to the bundle. -/
def Obligations.DecodeReadsBackEveryEncoding : Prop :=
  ∀ (i : Instr) (w : Nat), encode i = some w → i.wf = true →
    w < 2 ^ 31 ∧ decodeWord w = .ok i ∧ decodeWord (w + 2 ^ 31) = .ok i

/-- R44 to R68: a word that decodes is, but for its stop bit, the one word of its instruction, which is well formed: no
bit of a word is ignored, and no two words below 2^31 decode alike. -/
def Obligations.EncodingIsTheOnlyWord : Prop :=
  ∀ (w : Nat) (i : Instr), decodeWord w = .ok i → encode i = some (w % 2 ^ 31) ∧ i.wf = true

/-- Words written out bit by bit from R44, R45 and the tables of R60 to R67: stop bit, class, operation, then the fields. -/
def Obligations.WordsOfEachFamily : Prop :=
  decodeWord 0b0_0000_000001_00001_00010_00011_010_101 = .ok (.sxAdd 1 2 3 .i32 5) ∧
  decodeWord 0b0_0001_000100_11110_1111111111111111 = .ok (.siAddi 30 0xFFFF) ∧
  decodeWord 0b1_0010_000010_00100_1111111111111100 = .ok (.brBz 4 0xFFFC) ∧
  decodeWord 0b0_0011_010000_00110_00111_01000_111_001 = .ok (.adAadd 6 7 8 .acqrel true 1) ∧
  decodeWord 0b0_0100_000111_00001_00010_00011_001_000 = .ok (.vxSub 1 2 3 .bf16 0 .rup) ∧
  decodeWord 0b0_0101_000100_00001_00010_00000_110_000 = .ok (.vyCvs 1 2 0 .f32 .t8 0) ∧
  decodeWord 0b0_0110_000000_00101_00110_01000_010_000 = .ok (.mxMma 2 true 3 4 .bf16 0) ∧
  decodeWord 0b0_0111_000000_00001_00010_00011_101_000 = .ok (.lkAlloc 1 2 3 .t6 true 0) ∧
  decodeWord 0b0_1000_000100_00000_00010_00011_110_000 = .ok (.cpGo 2 3 2 true 0) ∧
  decodeWord 0b0_1001_000010_10000_10101_00111_011_000 = .ok (.fxSt 33 5 7 3 0) ∧
  decodeWord 0b0_1010_000000_00000_00000_00010_011_000 = .ok (.syFence .rel .device 0) ∧
  decodeWord 0b0_1011_000011_00101_0000000000010000 = .ok (.trCsrr 5 16) ∧
  decodeWord 0b0_1100_000001_00011_00100_00101_000_000 = .ok (.scLd 3 4 5 0) ∧
  decodeWord 0b0_1101_000000_00000_0000000011111111 = .ok (.pxRep 255)

/-- R66, R68: what the decoder refuses, and why: a class without operations, an operation code left unassigned, a nonzero
reserved field, and an operand outside its legal set. -/
def Obligations.ReservedWordsAreRefused : Prop :=
  (∀ w : Nat, 14 ≤ w / 2 ^ 27 % 16 → decodeWord w = .error .badClass) ∧
  (∀ w : Nat, w / 2 ^ 27 % 16 = 0 → 25 ≤ w / 2 ^ 21 % 64 → w / 2 ^ 21 % 64 ≤ 31 ∨ 39 ≤ w / 2 ^ 21 % 64 →
    decodeWord w = .error .unassigned) ∧
  (∀ w : Nat, w / 2 ^ 27 % 16 = 1 → 8 ≤ w / 2 ^ 21 % 64 → decodeWord w = .error .unassigned) ∧
  (∀ w : Nat, w / 2 ^ 27 % 16 = 2 → w / 2 ^ 21 % 64 = 0 → w / 2 ^ 16 % 32 ≠ 0 → decodeWord w = .error .reservedField) ∧
  (∀ w : Nat, w / 2 ^ 27 % 16 = 11 → w / 2 ^ 21 % 64 = 3 → w % 2 ^ 16 < 4096 → csrAssigned (w % 2 ^ 16) = false →
    decodeWord w = .error .illegalValue)

/-! ## Scalar operations (chapter 05) -/

/-- R144, R145, R21: each two-operand integer operation reads A then B by its type, gives the exact result wrapped to the
width and extended by the type, after the latency of R145. When the predicate that governs a slot is yet to be pulled, the slot
freezes (the model's choice, log entry 25). -/
def Sys2Proof.Claim.ScalarArithmeticResultsPart : Prop :=
  ∀ (d a b : SReg) (ty : IntTy) (q : QReg),
    Performs (.sxAdd d a b ty q) (predicated q (fromTwo 1 (typed2 (fun _ x y => x + y) (fun _ x y => x + y) ty) d a b)) ∧
    Performs (.sxSub d a b ty q) (predicated q (fromTwo 1 (typed2 (fun _ x y => x - y) (fun _ x y => x - y) ty) d a b)) ∧
    Performs (.sxMul d a b ty q) (predicated q (fromTwo 3 (typed2 (fun _ x y => x * y) (fun _ x y => x * y) ty) d a b)) ∧
    Performs (.sxMulh d a b ty q) (predicated q (fromTwo 3 (typed2
      (fun w x y => ((x.signExtend (2 * w) * y.signExtend (2 * w)) >>> w).setWidth w)
      (fun w x y => ((x.setWidth (2 * w) * y.setWidth (2 * w)) >>> w).setWidth w) ty) d a b)) ∧
    Performs (.sxMin d a b ty q) (predicated q (fromTwo 1 (typed2 (fun _ x y => if x.slt y then x else y)
      (fun _ x y => if x.ult y then x else y) ty) d a b)) ∧
    Performs (.sxMax d a b ty q) (predicated q (fromTwo 1 (typed2 (fun _ x y => if x.slt y then y else x)
      (fun _ x y => if x.ult y then y else x) ty) d a b))

/-- R22, R145: division rounds toward zero, by zero it gives all ones and the dividend as remainder, the signed overflow
case wraps; none of these traps; the latency is 20. -/
def Sys2Proof.Claim.ScalarDivisionResultsPart : Prop :=
  ∀ (d a b : SReg) (ty : IntTy) (q : QReg),
    Performs (.sxDiv d a b ty q) (predicated q (fromTwo 20 (typed2
      (fun w x y => if y = 0 then BitVec.allOnes w else x.sdiv y)
      (fun w x y => if y = 0 then BitVec.allOnes w else x / y) ty) d a b)) ∧
    Performs (.sxRem d a b ty q) (predicated q (fromTwo 20 (typed2
      (fun _ x y => if y = 0 then x else x.srem y) (fun _ x y => if y = 0 then x else x % y) ty) d a b))

/-- R21, R22, R144, R145: the arithmetic of the scalar unit: sums, products, minima, maxima, quotients and remainders,
with the corners of division the rules name. A slot whose predicate is yet to be pulled freezes (the model's choice,
log entry 25). -/
def Obligations.ScalarArithmeticResults : Prop := ScalarArithmeticResultsPart ∧ ScalarDivisionResultsPart

/-- R145: the bitwise operations and the compares, which give 1 or 0 (with a predicate yet to be pulled, log entry 25). -/
def Sys2Proof.Claim.ScalarLogicAndCompareResultsPart : Prop :=
  ∀ (d a b : SReg) (ty : IntTy) (q : QReg),
    Performs (.sxAnd d a b ty q) (predicated q (fromTwo 1 (typed2 (fun _ x y => x &&& y) (fun _ x y => x &&& y) ty) d a b)) ∧
    Performs (.sxOr d a b ty q) (predicated q (fromTwo 1 (typed2 (fun _ x y => x ||| y) (fun _ x y => x ||| y) ty) d a b)) ∧
    Performs (.sxXor d a b ty q) (predicated q (fromTwo 1 (typed2 (fun _ x y => x ^^^ y) (fun _ x y => x ^^^ y) ty) d a b)) ∧
    Performs (.sxCeq d a b ty q) (predicated q (fromTwo 1 (compared (fun _ x y => x == y) (fun _ x y => x == y) ty) d a b)) ∧
    Performs (.sxClt d a b ty q) (predicated q (fromTwo 1 (compared (fun _ x y => x.slt y) (fun _ x y => x.ult y) ty) d a b)) ∧
    Performs (.sxCle d a b ty q) (predicated q (fromTwo 1 (compared (fun _ x y => x.sle y) (fun _ x y => x.ule y) ty) d a b))

/-- R146: shifts and the field extract take the amount or position in full, at 64 bits; an amount of the width or more
shifts everything out. -/
def Sys2Proof.Claim.ScalarShiftResultsPart : Prop :=
  ∀ (d a b : SReg) (ty : IntTy) (q : QReg),
    Performs (.sxShl d a b ty q) (predicated q (fromTwo 1 (fun x n => typed1 (fun _ v => v <<< n.toNat) ty x) d a b)) ∧
    Performs (.sxShr d a b ty q) (predicated q (fromTwo 1 (fun x n => typed1 (fun _ v => v >>> n.toNat) ty x) d a b)) ∧
    Performs (.sxSra d a b ty q) (predicated q (fromTwo 1 (fun x n => typed1 (fun _ v => v.sshiftRight n.toNat) ty x) d a b)) ∧
    Performs (.sxExt d a b ty q) (predicated q (fromTwo 1 (fun x n => typed1 (fun _ v => v) ty (x >>> n.toNat)) d a b))

/-- R145, R146: the bitwise, compare and shift slots of the scalar unit. A slot whose predicate is yet to be pulled
freezes (the model's choice, log entry 25). -/
def Obligations.ScalarLogicResults : Prop := ScalarLogicAndCompareResultsPart ∧ ScalarShiftResultsPart

/-- R145, R147, R148: counts, moves, the select, whose Q names its selector, and the write of a predicate from a scalar. -/
def Sys2Proof.Claim.ScalarCountMoveSelectResultsPart : Prop :=
  ∀ (d a b : SReg) (dq : QReg) (ty : IntTy) (q : QReg),
    Performs (.sxClz d a ty q) (predicated q (fromOne 1 (counted (fun w v =>
      ((List.range w).takeWhile fun i => !v.getLsbD (w - 1 - i)).length) ty) d a)) ∧
    Performs (.sxCtz d a ty q) (predicated q (fromOne 1 (counted (fun w v =>
      ((List.range w).takeWhile fun i => !v.getLsbD i).length) ty) d a)) ∧
    Performs (.sxCnt d a ty q) (predicated q (fromOne 1 (counted (fun w v =>
      ((List.range w).filter fun i => v.getLsbD i).length) ty) d a)) ∧
    Performs (.sxMov d a ty q) (predicated q (fromOne 1 (typed1 (fun _ v => v) ty) d a)) ∧
    Performs (.sxSel d a b ty q) (unpredicated fun p =>
      let x := readS p a.val
      let y := readS x.2 b.val
      let c := readQ y.2 q.val
      writeS c.2 d.val 1 (typed1 (fun _ v => v) ty (if c.1.getLsbD 0 = true then x.1 else y.1))) ∧
    Performs (.sxQset dq a ty q) (predicated q fun p =>
      writeQ (readS p a.val).2 dq.val 1 (BitVec.allOnes 64)
        (if ty = .i64 ∨ ty = .n64 then (readS p a.val).1
         else if typed1 (fun _ v => v) ty (readS p a.val).1 = 0 then 0 else BitVec.allOnes 64)) ∧
    Performs .sxNop id

/-- R150: the si operations. li does not read its register; addi sign-extends its immediate, ori zero-extends it; ceqi and
clti compare with the sign-extended immediate. No predicate governs them. -/
def Sys2Proof.Claim.ImmediateResultsPart : Prop :=
  ∀ (d : SReg) (k : BitVec 16),
    Performs (.siLi d k) (unpredicated fun p => writeS p d.val 1 (k.setWidth 64)) ∧
    Performs (.siIh1 d k) (unpredicated (fromOne 1 (fun x => (x.extractLsb' 32 32 ++ k ++ x.extractLsb' 0 16 : BitVec 64)) d d)) ∧
    Performs (.siIh2 d k) (unpredicated (fromOne 1 (fun x => (x.extractLsb' 48 16 ++ k ++ x.extractLsb' 0 32 : BitVec 64)) d d)) ∧
    Performs (.siIh3 d k) (unpredicated (fromOne 1 (fun x => (k ++ x.extractLsb' 0 48 : BitVec 64)) d d)) ∧
    Performs (.siAddi d k) (unpredicated (fromOne 1 (fun x => x + k.signExtend 64) d d)) ∧
    Performs (.siOri d k) (unpredicated (fromOne 1 (fun x => x ||| k.setWidth 64) d d)) ∧
    Performs (.siCeqi d k) (unpredicated (fromOne 1 (fun x => if x = k.signExtend 64 then 1 else 0) d d)) ∧
    Performs (.siClti d k) (unpredicated (fromOne 1 (fun x => if x.slt (k.signExtend 64) then 1 else 0) d d))

/-- R145, R147, R148, R150: the counts, moves, the select and the predicate set of the scalar unit, and the immediate
slots. -/
def Obligations.CountMoveSelectAndImmediateResults : Prop := ScalarCountMoveSelectResultsPart ∧ ImmediateResultsPart

namespace Sys2Proof.Claim

/-- The value of a magnitude code of T8 in units of 2^-12, by the groups of the table of R30. -/
def t8Units (m : Nat) : Nat :=
  let e := fun i : Nat => m / 2 ^ i % 2
  if m < 0x01 then 0
  else if m < 0x02 then 1
  else if m < 0x04 then 2 ^ (2 + e 0)
  else if m < 0x08 then 2 ^ (3 + e 1) * (2 + m % 2)
  else if m < 0x10 then 2 ^ (4 + e 2) * (4 + m % 4)
  else if m < 0x20 then 2 ^ (5 + e 3) * (8 + m % 8)
  else if m < 0x40 then 2 ^ (6 + e 4) * (16 + m % 16)
  else if m < 0x60 then 2 ^ (8 + e 4) * (16 + m % 16)
  else if m < 0x70 then 2 ^ (11 + e 3) * (8 + m % 8)
  else if m < 0x78 then 2 ^ (14 + e 2) * (4 + m % 4)
  else if m < 0x7C then 2 ^ (17 + e 1) * (2 + m % 2)
  else if m < 0x7E then 2 ^ (20 + e 0)
  else if m < 0x7F then 2 ^ 22
  else 2 ^ 24

/-- The magnitudes of the T6 codes 0 to 31 in units of 2^-8, from the table of R29. -/
def t6Table : List Nat :=
  [0, 1, 4, 8, 16, 24, 32, 48, 64, 80, 96, 112, 128, 160, 192, 224, 256, 320, 384, 448, 512, 640, 768, 896, 1024, 1536, 2048,
   3072, 4096, 8192, 16384, 65536]

/-- A value as its sign and its magnitude in units of 2^-12; none stands for NaN and for what is no multiple of the unit. -/
def unitsOf : FVal → Option (Bool × Nat)
  | .fin s m e => if -12 ≤ e then some (s, m * 2 ^ (e + 12).toNat) else none
  | .nan => none
  | .inf _ => none

/-- The code of a magnitude with a sign, at `w` magnitude bits. -/
def signed (w : Nat) (s : Bool) (m : Nat) : Nat := (if s = true then 2 ^ w else 0) + m

/-- The value of a magnitude code at `w` magnitude bits, in units of 2^-12 (R30, R31). -/
def units (w m : Nat) : Nat := if w = 5 then t8Units (4 * m) else t8Units m

/-- The tie point between magnitude codes `c` and `c + 1` in units of 2^-13 (R33): the arithmetic mean of their values, but
between the codes whose values differ by a factor of four, the power of two between them. -/
def tiePoint (w c : Nat) : Nat :=
  if units w (c + 1) = 4 * units w c then 4 * units w c else units w c + units w (c + 1)

/-- How m × 2^e compares with `n` units of 2^-13. -/
def below (m : Nat) (e : Int) (n : Nat) : Prop := m * 2 ^ (e + 13).toNat < n * 2 ^ (-13 - e).toNat
/-- m × 2^e equals `n` units of 2^-13. -/
def equals (m : Nat) (e : Int) (n : Nat) : Prop := m * 2 ^ (e + 13).toNat = n * 2 ^ (-13 - e).toNat

/-- The magnitude of an FP32 code in units of 2^-149, the smallest subnormal (R23); 0 of a code that is not finite. -/
def magnitude (x : Nat) : Nat :=
  let exp := x / 2 ^ 23 % 256
  if exp = 255 then 0 else if exp = 0 then x % 2 ^ 23 else (2 ^ 23 + x % 2 ^ 23) * 2 ^ (exp - 1)

end Sys2Proof.Claim

/-- R31: a T6 code and the T8 code with its sign and four times its magnitude have one value, and the top six bits of the T8
code are the T6 code itself. -/
def Obligations.T6CodesAreT8Codes : Prop :=
  ∀ (s : Bool) (m : Nat), m < 32 →
    unitsOf (taperedRead (signed 5 s m) 5) = unitsOf (taperedRead (signed 7 s (4 * m)) 7) ∧
    (taperedRead (signed 5 s m) 5 = .nan ↔ taperedRead (signed 7 s (4 * m)) 7 = .nan) ∧
    signed 7 s (4 * m) / 4 = signed 5 s m

/-- R28 to R30, R33: the codes of T8 and T6. Each code has the value its table gives: code 0 is +0, the code of magnitude 0 with
the sign is NaN. A value converts to the code in code order that the tie points choose, ties to the even code; below half of the
smallest value it gives +0 and above the largest the largest code or, in OUT mode, an outlier. -/
def Obligations.TaperedCodes : Prop :=
  (∀ w, w = 5 ∨ w = 7 →
    taperedRead (2 ^ w) w = .nan ∧ taperedRead 0 w = .fin false 0 0 ∧
    (∀ (s : Bool) (m : Nat), 0 < m → m < 2 ^ w → unitsOf (taperedRead (signed w s m) w) = some (s, units w m))) ∧
  (∀ m, m < 32 → units 5 m = 16 * t6Table.getD m 0) ∧
  ∀ (w : Nat) (out : Bool) (s : Bool), w = 5 ∨ w = 7 →
    let largest := fun (r : Tapered) => r = if out = true then .outlier else .code (signed w s (2 ^ w - 1))
    toTapered w out .nan = .code (2 ^ w) ∧ largest (toTapered w out (.inf s)) ∧
    (∀ e, toTapered w out (.fin s 0 e) = .code 0) ∧
    ∀ (m : Nat) (e : Int), 0 < m →
      let r := toTapered w out (.fin s m e)
      let lt := fun n => below m e n
      let eq := fun n => equals m e n
      ((lt (units w 1) ∨ eq (units w 1)) → r = .code 0) ∧
      (¬lt (units w 1) → ¬eq (units w 1) → lt (2 * units w 1) → r = .code (signed w s 1)) ∧
      (¬lt (2 * units w (2 ^ w - 1)) → ¬eq (2 * units w (2 ^ w - 1)) → largest r) ∧
      ∀ c, 0 < c → c + 1 < 2 ^ w → ¬lt (2 * units w c) → lt (2 * units w (c + 1)) ∨ eq (2 * units w (c + 1)) →
        (lt (tiePoint w c) → r = .code (signed w s c)) ∧
        (eq (tiePoint w c) → r = .code (signed w s (if c % 2 = 0 then c else c + 1))) ∧
        (¬lt (tiePoint w c) → ¬eq (tiePoint w c) → r = .code (signed w s (c + 1)))

/-- R169: rcp, rsq, exp2 and log2 of FP32 codes. Special inputs give the codes of the table; rcp and rsq of a positive number give
the FP32 number nearest to the exact value: no other lies as near (a number `y` is nearest to 1/x when x (y + z) is at least 2
for every z above y and at most 2 for every z below it, and so for 1/√x with x (y + z)² and 4); rcp keeps the sign; exp2 of an
integer is a power of two where FP32 holds it, and log2 of a power of two is its exponent. -/
def Obligations.ApproximationFunctions : Prop :=
  (∀ x, x < 2 ^ 32 → 0x7F800000 < x % 2 ^ 31 →
    rcpF32 x = 0x7FC00000 ∧ rsqF32 x = 0x7FC00000 ∧ exp2F32 x = 0x7FC00000 ∧ log2F32 x = 0x7FC00000) ∧
  ([0x00000000, 0x80000000, 0x7F800000, 0xFF800000].map fun x => [rcpF32 x, rsqF32 x, exp2F32 x, log2F32 x]) =
    [[0x7F800000, 0x7F800000, 0x3F800000, 0xFF800000], [0xFF800000, 0xFF800000, 0x3F800000, 0xFF800000],
     [0, 0, 0x7F800000, 0x7F800000], [0x80000000, 0x7FC00000, 0, 0x7FC00000]] ∧
  (∀ x, 0x80000000 < x → x < 0xFF800000 → rsqF32 x = 0x7FC00000 ∧ log2F32 x = 0x7FC00000 ∧
    rcpF32 x = rcpF32 (x - 0x80000000) + 0x80000000) ∧
  (∀ x, 0 < x → x < 0x7F800000 →
    let a := magnitude x
    ((rcpF32 x = 0x7F800000 ∧ x ≤ 0x00200000) ∨ (rcpF32 x < 0x7F800000 ∧ 0x00200000 < x ∧
      ∀ z, z < 0x7F800000 →
        (rcpF32 x < z → 2 ^ 299 ≤ a * (magnitude (rcpF32 x) + magnitude z)) ∧
        (z < rcpF32 x → a * (magnitude (rcpF32 x) + magnitude z) ≤ 2 ^ 299))) ∧
    rsqF32 x < 0x7F800000 ∧
    ∀ z, z < 0x7F800000 →
      (rsqF32 x < z → 2 ^ 449 ≤ a * (magnitude (rsqF32 x) + magnitude z) ^ 2) ∧
      (z < rsqF32 x → a * (magnitude (rsqF32 x) + magnitude z) ^ 2 ≤ 2 ^ 449)) ∧
  (∀ x, 0x43000000 ≤ x → x < 0x7F800000 → exp2F32 x = 0x7F800000) ∧
  (∀ x, 0xC3160000 ≤ x → x < 0xFF800000 → exp2F32 x = 0) ∧
  ∀ k : Int, -149 ≤ k → k ≤ 127 →
    exp2F32 (f32F.write .rne (FVal.ofInt k 0 false)) = f32F.write .rne (.fin false 1 k) ∧
    log2F32 (f32F.write .rne (.fin false 1 k)) = f32F.write .rne (FVal.ofInt k 0 false)

/-- R151, R26: scalar floating point reads bits 31:0 of each source, rounds the exact result once by its mode, and clears
bits 63:32; sx.fma reads the old Sreg[D] after A and B. The exact results are those of Float.lean, which
FloatSpecialValues and FloatExactCodes speak of. -/
def Obligations.ScalarFloatResults : Prop :=
  ∀ (d a b : SReg) (r : Rnd) (q : QReg),
    Performs (.sxFadd d a b r q) (predicated q (fromTwo 3 (fun x y =>
      BitVec.ofNat 64 (fAdd f32F r (x.setWidth 32).toNat (y.setWidth 32).toNat)) d a b)) ∧
    Performs (.sxFmul d a b r q) (predicated q (fromTwo 3 (fun x y =>
      BitVec.ofNat 64 (fMul f32F r (x.setWidth 32).toNat (y.setWidth 32).toNat)) d a b)) ∧
    Performs (.sxFma d a b r q) (predicated q fun p =>
      let x := readS p a.val
      let y := readS x.2 b.val
      let z := readS y.2 d.val
      writeS z.2 d.val 4 (BitVec.ofNat 64
        (fFma f32F r (x.1.setWidth 32).toNat (y.1.setWidth 32).toNat (z.1.setWidth 32).toNat))) ∧
    Performs (.sxFceq d a b r q) (predicated q (fromTwo 1 (fun x y =>
      if fEq f32F (x.setWidth 32).toNat (y.setWidth 32).toNat then 1 else 0) d a b)) ∧
    Performs (.sxFclt d a b r q) (predicated q (fromTwo 1 (fun x y =>
      if fLt f32F (x.setWidth 32).toNat (y.setWidth 32).toNat then 1 else 0) d a b)) ∧
    Performs (.sxFcvi d a r q) (predicated q (fromOne 2 (fun x =>
      BitVec.ofInt 64 ((f32F.read (x.setWidth 32).toNat).toInt r (-9223372036854775808) 9223372036854775807)) d a)) ∧
    Performs (.sxFcif d a r q) (predicated q (fromOne 2 (fun x =>
      BitVec.ofNat 64 (f32F.round r x.msb x.toInt.natAbs 0 false)) d a))

/-- R27, R151, R162: the codes of special values in FP32: an operand that is a NaN gives the canonical quiet NaN
0x7FC00000 in a sum, product or fused sum, and compares false with everything; −0 equals +0; infinities of opposite sign
sum to the canonical NaN, as do zero and infinity multiplied. -/
def Sys2Proof.Claim.FloatSpecialValuesPart : Prop :=
  (∀ (r : Rnd) (x y z : Nat), x < 2 ^ 32 → y < 2 ^ 32 → z < 2 ^ 32 →
    0x7F800000 < x % 0x80000000 →
    fAdd f32F r x y = 0x7FC00000 ∧ fAdd f32F r y x = 0x7FC00000 ∧ fMul f32F r x y = 0x7FC00000 ∧
    fMul f32F r y x = 0x7FC00000 ∧ fFma f32F r x y z = 0x7FC00000 ∧ fFma f32F r y x z = 0x7FC00000 ∧
    fFma f32F r y z x = 0x7FC00000 ∧ fMin f32F x y = 0x7FC00000 ∧ fMax f32F y x = 0x7FC00000 ∧
    fEq f32F x y = false ∧ fEq f32F y x = false ∧ fLt f32F x y = false ∧ fLt f32F y x = false) ∧
  (∀ r : Rnd, fAdd f32F r 0x7F800000 0xFF800000 = 0x7FC00000 ∧ fMul f32F r 0x7F800000 0x80000000 = 0x7FC00000 ∧
    fEq f32F 0 0x80000000 = true ∧ fLt f32F 0x80000000 0 = false ∧ fMin f32F 0 0x80000000 = 0x80000000 ∧
    fMax f32F 0x80000000 0 = 0 ∧ fAdd f32F r 0 0x80000000 = (if r = .rdn then 0x80000000 else 0))

/-- R23, R24, R26: a value that FP32 or BF16 holds exactly is written back as the very code it was read from, whatever
the rounding mode; a NaN code gives the canonical one. -/
def Sys2Proof.Claim.FloatExactCodesPart : Prop :=
  ∀ (r : Rnd) (x : Nat),
    (x < 2 ^ 32 → f32F.write r (f32F.read x) = if 0x7F800000 < x % 0x80000000 then 0x7FC00000 else x) ∧
    (x < 2 ^ 16 → bf16F.write r (bf16F.read x) = if 0x7F80 < x % 0x8000 then 0x7FC0 else x)

/-- R23, R24, R26, R27, R151, R162: special values of the float operations, and the exact codes of the small formats. -/
def Obligations.FloatFormatRules : Prop := FloatSpecialValuesPart ∧ FloatExactCodesPart

namespace Sys2Proof.Claim

/-- The transfer to a target (R119): the next bundle is there, or INSTR_ADDRESS with the target as its value, where the
target is no multiple of 4 or lies outside the code; that service code ends with its segment of 16 KiB is the model's choice (log
entry 9). -/
def jump (t : Int) (p : Perf) : Perf :=
  if t % 4 = 0 ∧ 0 ≤ t ∧ t < 16384 * (if 2 ≤ (oldCtx p).mode then 1 else p.is.old.task.nseg) then
    { p with is := { p.is with npc := some t.toNat } }
  else raise p .instrAddress (BitVec.ofInt 64 t)

/-- The target of an offset in words from the bundle's first slot (R119). -/
def target (k : BitVec 16) (p : Perf) : Int := p.is.fa + 4 * k.toInt

/-- A br slot that leaves the sequence: a violation inside the body of an active level, even when not taken (R129); not
performed beside a tr slot that decides what follows (R119). -/
def branching (f : Perf → Perf) (p : Perf) : Perf :=
  if p.is.handler = false ∧ inBody p.st p.is.old p.is.m p.is.fa = true then violate p
  else if p.is.brOff = true then p else unpredicated f p

/-- A branch that a scalar register decides. -/
def branchOn (taken : Word → Prop) [DecidablePred taken] (d : SReg) (k : BitVec 16) : Perf → Perf := branching fun p =>
  if taken (readS p d.val).1 then jump (target k p) (readS p d.val).2 else (readS p d.val).2

/-- A branch that a predicate over all 64 lanes decides (R121). -/
def branchLanes (want : Bool) (d : QReg) (k : BitVec 16) : Perf → Perf := branching fun p =>
  let m := readQ p d.val
  if m.1 = 0 then (if want then m.2 else jump (target k p) m.2)
  else if m.1 = BitVec.allOnes 64 then (if want then jump (target k p) m.2 else m.2)
  else raise m.2 .nonuniformBranch m.1

end Sys2Proof.Claim

/-! ## Branches and the sequencer (chapter 04) -/

/-- R119 to R123, R129: every br slot that leaves the sequence completes: it checks its target and goes there when it is
taken; call writes the address of the next bundle in sequence to its link one cycle later; bud writes the effective budget. The
bound of 16,384 bytes for targets in service code is the model's choice (log entry 9). -/
def Obligations.BranchResults : Prop :=
  ∀ (d a : SReg) (dq : QReg) (k : BitVec 16),
    Performs (.brJ k) (branching fun p => jump (target k p) p) ∧
    Performs (.brCall d k) (branching fun p => writeS (jump (target k p) p) d.val 1 (BitVec.ofNat 64 p.is.nxt)) ∧
    Performs (.brBz d k) (branchOn (fun x => x = 0) d k) ∧
    Performs (.brBnz d k) (branchOn (fun x => x ≠ 0) d k) ∧
    Performs (.brBlt d k) (branchOn (fun x => x.slt 0 = true) d k) ∧
    Performs (.brBge d k) (branchOn (fun x => x.slt 0 = false) d k) ∧
    Performs (.brBq dq k) (branchLanes true dq k) ∧
    Performs (.brBnq dq k) (branchLanes false dq k) ∧
    Performs (.brJr a) (branching fun p => jump (readS p a.val).1.toNat (readS p a.val).2) ∧
    Performs (.brRet a) (branching fun p => jump (readS p a.val).1.toNat (readS p a.val).2) ∧
    Performs (.brBud d) (unpredicated fun p => writeS p d.val 1 (BitVec.ofNat 64 p.is.old.budget))

/-- R125, R126, R128: the sequencer's slots. lvl sets the count of an inactive level and adds, replaces or removes stride
entries, at most four; loop enters its body, or skips it when the count is 0; lend sets the stop flag. Each violates the
schedule where the rule says so. Where a body ends that holds words which form no bundle is the model's choice (log entry 98). -/
def Sys2Proof.Claim.SequencerResultsPart : Prop :=
  ∀ (a b : SReg) (l : Level) (n : Fin 257),
    Performs (.brLvl a b l) (unpredicated fun p =>
      let x := readS p a.val
      let d := if b.val = 0 then ((0 : Word), x.2) else readS x.2 b.val
      let lv := oldLevel p l.val
      if lv.active = true ∨ x.1.extractLsb' 32 32 ≠ 0 then violate d.2
      else
        let p' := modLevel d.2 l.val fun v => { v with count := (x.1.setWidth 32).toNat }
        if b.val = 0 then modLevel p' l.val fun v => { v with strides := [] }
        else if d.1.extractLsb' 48 12 ≠ 0 then violate p'
        else
          let r := (d.1.extractLsb' 60 4).toNat
          let st : Word := (d.1.setWidth 48).signExtend 64
          if (lv.strides.map Prod.fst).contains r then
            modLevel p' l.val fun v => { v with strides := lv.strides.map fun e => if e.1 = r then (r, st) else e }
          else if 4 ≤ lv.strides.length then violate p'
          else modLevel p' l.val fun v => { v with strides := lv.strides ++ [(r, st)] }) ∧
    Performs (.brLoop l n) (unpredicated fun p =>
      let body : LevelSt := { start := p.is.nxt, len := n.val }
      let stop := bodyEnd p.st p.is.old p.is.m body
      if (oldLevel p l.val).active = true ∨ p.is.old.budget < n.val ∨
          (∃ e ∈ activeLevels (oldCtx p), bodyEnd p.st p.is.old p.is.m e.2 < stop) then violate p
      else if (oldLevel p l.val).count = 0 then { p with is := { p.is with npc := some stop } }
      else modLevel p l.val fun v =>
        { v with active := true, index := 0, stop := false, start := p.is.nxt, len := n.val, cap := 1 }) ∧
    Performs (.brLend l a) (unpredicated fun p =>
      if (oldLevel p l.val).active = false then violate (readS p a.val).2
      else if (readS p a.val).1 = 0 then (readS p a.val).2
      else modLevel (readS p a.val).2 l.val fun v => { v with stop := true })

/-- R130 to R132: the px slots set what governs the slot they modify: a repeat count, or a condition on an active level's
iteration, added to any other; px.seg asks for an instruction segment once, and a segment the task does not have raises
INSTR_ADDRESS, whose value, the segment's first address, is the model's choice (log entry 22). -/
def Sys2Proof.Claim.PrefixResultsPart : Prop :=
  ∀ (l : Level) (n : Fin 256) (g : Fin 16),
    PerformsPx (.pxRep n) (fun p => { p with is := { p.is with rep := n.val } }) ∧
    PerformsPx (.pxFirst l) (fun p =>
      if (oldLevel p l.val).active = false then violate p
      else { p with is := { p.is with cond := p.is.cond && decide ((oldLevel p l.val).index = 0) } }) ∧
    PerformsPx (.pxLast l) (fun p =>
      if (oldLevel p l.val).active = false then violate p
      else { p with is := { p.is with cond := p.is.cond && decide ((oldLevel p l.val).index + 1 = (oldLevel p l.val).count) } }) ∧
    PerformsPx (.pxSeg g) (fun p =>
      if p.is.old.task.nseg ≤ g.val then raise p .instrAddress (BitVec.ofNat 64 (16384 * g.val))
      else modWork p fun c =>
        if (c.segs.map fun e => e.1).contains g.val = true ∨ c.segReq.contains g.val = true then c
        else { c with segReq := c.segReq ++ [g.val] })

/-- R125, R126, R128, R130 to R132: the sequencer slots and the px slots. The trap value of px.seg (log entry 22) and
where a body ends that holds words which form no bundle (log entry 98) are the model's choices. -/
def Obligations.SequencerAndPrefixResults : Prop := SequencerResultsPart ∧ PrefixResultsPart

/-! ## Steps, bundles and operands (chapters 02 to 04) -/

/-- Log entry 1 (DESIGN CHOICE): a step performs the event at the head of the agenda; with none, a wall cycle of the
cluster whose turn it is, and the turn passes to the next of the 40. -/
def Obligations.StepTakesTheNextItem : Prop :=
  (∀ (s : State) (i : Instr) (r : List Instr), s.agenda = i :: r → step s = exec i { s with agenda := r }) ∧
  (∀ (s : State) (cl : Fin 40), s.agenda = [] → s.turn = cl.val →
    step s = exec (.issueCycle cl .ok) { s with turn := (cl.val + 1) % 40 })

/-- R47, R69: the bundle at a member's next address is the run of words up to the first with the stop bit, inside one
segment of 16 KiB; where every word decodes and the bundle's own rules hold, those instructions are what the member
performs, and the bundle after it starts at the word that follows. -/
def Obligations.FetchDecodesTheBundle : Prop :=
  ∀ (s : State) (g : Gang) (m : Nat) (ws : List Nat) (is : List Instr),
    (getCtx g m).mode < 2 →
    ws.length = is.length → 4 ≤ ws.length → ws.length ≤ 8 →
    nextPc (getCtx g m) % 16384 + 4 * ws.length ≤ 16384 →
    (∀ j (h : j < ws.length), codeWord s g m (nextPc (getCtx g m) + 4 * j) = ws[j]) →
    (∀ j (h : j < ws.length), bitAt ws[j] 31 = decide (j + 1 = ws.length)) →
    (∀ j (h : j < ws.length) (h' : j < is.length), decodeWord ws[j] = .ok is[j]) →
    legalBundle (getCtx g m).mode g.svc is = true →
    nextBundle s g m = some (is, nextPc (getCtx g m) + 4 * ws.length)

/-- R47, R54: performing a bundle's slots is performing `exec` of each, in slot order, on the issuing context; each is
performed on the gang as it stood before the bundle. -/
def Obligations.BundleSlotsAreExecuted : Prop :=
  ∀ (p : Perf) (i : Instr) (w : Nat) (is : List Instr), encode i = some w →
    ∃ (t : State) (r : Issue), exec i { p.st with iss := some p.is } = .next t ∧ t.iss = some r ∧
      r.old = p.is.old ∧ r.m = p.is.m ∧ r.slot = p.is.slot + 1 ∧
      runSlots p (i :: is) = runSlots ⟨{ t with iss := none }, r⟩ is

/-- R1, R107 to R111: a wall cycle of a cluster completes. With no gang of the cluster in the state and no error shown, it
advances the cluster's wall clock by one, gives back the rows that engines had reserved, and leaves memory and the other
clusters alone. -/
def Sys2Proof.Claim.IdleClusterCyclePart : Prop :=
  ∀ (s : State) (cl : Fin 40), (∀ g ∈ s.gangs, g.cluster ≠ cl.val) →
    (∀ co < 8, (getCore s cl.val co).engine = []) → s.remote = [] → s.replies = [] → s.pendIn = [] →
    ∃ t, exec (.issueCycle cl .ok) s = .next t ∧ (getCluster t cl.val).wall = (getCluster s cl.val).wall + 1 ∧
      (getCluster t cl.val).guard = [] ∧ (getCluster t cl.val).spad = (getCluster s cl.val).spad ∧ t.mem = s.mem ∧
      t.gangs = s.gangs ∧ ∀ c, c ≠ cl.val → getCluster t c = getCluster s c

/-- R8, R72, R106 to R109: a gang alone on its cluster, at a boundary that asks for nothing, whose bundles neither freeze nor
trap nor halt, issues them in the wall cycle: its logical clock advances by one, as does the cluster's wall clock. -/
def Sys2Proof.Claim.LoneGangIssuesPart : Prop :=
  ∀ (s : State) (cl : Fin 40) (g : Gang), s.gangs = [g] → g.cluster = cl.val → (getCluster s cl.val).guard = [] →
    g.killed = none → g.kill = none → g.conf = false → g.calls = [] → g.preempt = none → g.yld = false → g.walks = [] →
    walksWait s g.id = false →
    let b := settleWall (getCluster s cl.val).wall g
    handlerOf b = none → pendingInt b = none →
    let h := settleGang b
    let a := attempt (putGang { s with iss := none } h) h
    a.p.is.freezes = [] → a.p.is.traps = [] → a.halts = [] →
    ∃ t u, exec (.issueCycle cl .ok) s = .next t ∧ findGang t g.id = some u ∧ u.lc = g.lc + 1 ∧
      u.last = (getCluster s cl.val).wall ∧ u.members.length = g.members.length ∧
      (getCluster t cl.val).wall = (getCluster s cl.val).wall + 1 ∧ t.agenda = s.agenda ∧ t.turn = s.turn

/-- R1, R8, R72, R106 to R111: a wall cycle of an idle cluster, and of a gang alone on its cluster. -/
def Obligations.ClusterCycleResults : Prop := IdleClusterCyclePart ∧ LoneGangIssuesPart

/-- R56, R57, R72, R332: reading a scalar register. s0 reads 0 in every mode; in RUN mode s31 pops the load-data queue, in
order, and an empty queue violates the schedule; in a user-level handler s24 to s31 name the shadow registers; service code
names its own bank. R136: a read of a register entry whose parity fails in the wall cycle raises REGISTER_PARITY, and any other
read raises nothing. -/
def Sys2Proof.Claim.ScalarReadFormsPart : Prop :=
  ∀ (p : Perf) (n : Fin 32),
    readS p 0 = (0, p) ∧
    ((oldCtx p).mode = 0 → n.val ≠ 0 → n.val ≠ 31 →
      readS p n.val = ((oldCtx p).s[n], readReg (touchBlock p 0) .s n.val)) ∧
    ((oldCtx p).mode = 0 → (workCtx p).ldq = [] → readS p 31 = (0, violate p)) ∧
    (∀ w r, (oldCtx p).mode = 0 → (workCtx p).ldq = w :: r →
      readS p 31 = (w, modWork p fun c => { c with ldq := r })) ∧
    ((oldCtx p).mode = 1 → n.val ≠ 0 → n.val < 24 →
      readS p n.val = ((oldCtx p).s[n], readReg (touchBlock p 0) .s n.val)) ∧
    (∀ j : Fin 8, (oldCtx p).mode = 1 → readS p (24 + j.val) = ((oldCtx p).h[j], readReg (touchBlock p 0) .h j.val)) ∧
    (2 ≤ (oldCtx p).mode → n.val ≠ 0 → readS p n.val = ((oldCtx p).ss[n], readReg p .ss n.val)) ∧
    (∀ f k, p.is.par = none → readReg p f k = p) ∧
    (∀ f k b, p.is.par = some b → readReg p f k =
      if b.file = some f ∧ b.num = k then raise p .registerParity b.tval else p)

/-- R56, R57, R140, R149, R332, R337: writing a scalar register. A write to s0 is discarded; in RUN mode a write to s31 pushes
the store-data queue; any other binds a result of all 64 bits for the register its mode names. -/
def Sys2Proof.Claim.ScalarWriteFormsPart : Prop :=
  ∀ (p : Perf) (n : Fin 32) (lat : Nat) (v : Word),
    writeS p 0 lat v = p ∧
    ((oldCtx p).mode = 0 → writeS p 31 lat v = pushQueue p fun c =>
      { c with sdq := c.sdq ++ [⟨p.is.old.lc + lat, v.setWidth 2048⟩] }) ∧
    ((oldCtx p).mode = 0 → n.val ≠ 0 → n.val ≠ 31 →
      writeS p n.val lat v = pushResult (touchBlock p 0) lat .s n.val (BitVec.setWidth 2048 (BitVec.allOnes 64)) (v.setWidth 2048)) ∧
    ((oldCtx p).mode = 1 → n.val ≠ 0 → n.val < 24 →
      writeS p n.val lat v = pushResult (touchBlock p 0) lat .s n.val (BitVec.setWidth 2048 (BitVec.allOnes 64)) (v.setWidth 2048)) ∧
    (∀ j : Fin 8, (oldCtx p).mode = 1 → writeS p (24 + j.val) lat v =
      pushResult (touchBlock p 0) lat .h j.val (BitVec.setWidth 2048 (BitVec.allOnes 64)) (v.setWidth 2048)) ∧
    (2 ≤ (oldCtx p).mode → n.val ≠ 0 → writeS p n.val lat v =
      pushResult p lat .ss n.val (BitVec.setWidth 2048 (BitVec.allOnes 64)) (v.setWidth 2048))

/-- R56, R332, R337: the predicate, scale and address registers: q0 reads all ones and e0 reads 0, and writes to them are
discarded; service code has its own predicates and address registers; any other write binds a result of the bits its mask
names. -/
def Sys2Proof.Claim.ConstantRegisterFormsPart : Prop :=
  ∀ (p : Perf) (n : Fin 8) (a : Fin 16) (lat : Nat) (mask v : Word) (e : BitVec 8),
    readQ p 0 = (BitVec.allOnes 64, p) ∧ writeQ p 0 lat mask v = p ∧ readE p 0 = (0, p) ∧ writeE p 0 lat e = p ∧
    (n.val ≠ 0 →
      readE p n.val = ((oldCtx p).e[n], readReg (touchBlock p 0) .e n.val) ∧
      writeE p n.val lat e = pushResult (touchBlock p 0) lat .e n.val (BitVec.setWidth 2048 (BitVec.allOnes 8)) (e.setWidth 2048)) ∧
    (n.val ≠ 0 → (oldCtx p).mode < 2 →
      readQ p n.val = ((oldCtx p).q[n], readReg (touchBlock p 0) .q n.val) ∧
      writeQ p n.val lat mask v = pushResult (touchBlock p 0) lat .q n.val (mask.setWidth 2048) (v.setWidth 2048)) ∧
    (n.val ≠ 0 → 2 ≤ (oldCtx p).mode →
      readQ p n.val = ((oldCtx p).sq[n], readReg p .sq n.val) ∧
      writeQ p n.val lat mask v = pushResult p lat .sq n.val (mask.setWidth 2048) (v.setWidth 2048)) ∧
    ((oldCtx p).mode < 2 →
      readA p a.val = ((oldCtx p).a[a], readReg (touchBlock p 0) .a a.val) ∧
      writeA p a.val lat v =
        pushResult (touchBlock p 0) lat .a a.val (BitVec.setWidth 2048 (BitVec.allOnes 64)) (v.setWidth 2048)) ∧
    (2 ≤ (oldCtx p).mode →
      readA p a.val = ((oldCtx p).sa[a], readReg p .sa a.val) ∧
      writeA p a.val lat v = pushResult p lat .sa a.val (BitVec.setWidth 2048 (BitVec.allOnes 64)) (v.setWidth 2048))

/-- R56, R138, R140, R142: the vector registers. Outside handlers v31 pops the vector load-data queue, whole and in order, and
an empty queue violates the schedule; a write to it pushes the vector store-data queue, with 0 in the lanes the mask leaves out.
Any other register is read and bound with its own block of four touched. In a handler, where the rules give v31 no queue, a read
of it changes nothing but the counter of free values and a write is discarded (the model's choice, log entry 8). -/
def Sys2Proof.Claim.VectorRegisterFormsPart : Prop :=
  ∀ (p : Perf) (n : Fin 32) (lat : Nat) (mask v : Vec),
    (n.val ≠ 31 →
      readV p n.val = ((oldCtx p).v[n], readReg (touchBlock p (1 + n.val / 4)) .v n.val) ∧
      writeV p n.val lat mask v = pushResult (touchBlock p (1 + n.val / 4)) lat .v n.val mask v) ∧
    (p.is.handler = false →
      ((workCtx p).vldq = [] → readV p 31 = (0, violate p)) ∧
      (∀ w r, (workCtx p).vldq = w :: r → readV p 31 = (w, modWork p fun c => { c with vldq := r })) ∧
      writeV p 31 lat mask v = pushQueue p fun c => { c with vsdq := c.vsdq ++ [⟨p.is.old.lc + lat, v &&& mask⟩] }) ∧
    (p.is.handler = true → (∃ k, (readV p 31).2 = { p with st := { p.st with free := k } }) ∧ writeV p 31 lat mask v = p)

/-- R56, R57, R72, R138, R140, R142, R149, R332, R337: every form of reading and writing a numbered register of each file.
What v31 is in a handler is the model's choice (log entry 8). -/
def Obligations.RegisterForms : Prop := ScalarReadFormsPart ∧ ScalarWriteFormsPart ∧ ConstantRegisterFormsPart ∧ VectorRegisterFormsPart

/-- R9, R114, R337: binding a result. In RUN mode it is due `lat` logical cycles after its bundle, and a seventeenth result
in flight in the next cycle violates the schedule; a handler's is due `lat` wall cycles later. -/
def Obligations.ResultsAreBoundWithTheirLatency : Prop :=
  ∀ (p : Perf) (lat num : Nat) (file : RFile) (mask val : Vec), p.is.m < p.is.work.members.length →
    (p.is.handler = false → (workCtx (pushResult p lat file num mask val)).results =
      (workCtx p).results ++ [⟨p.is.old.lc + lat, file, num, mask, val, none, []⟩] ∧
      ((pushResult p lat file num mask val).is.traps = p.is.traps ↔
        ((workCtx p).results.filter fun r => p.is.old.lc + 1 < r.due).length + (if 1 < lat then 1 else 0) ≤ 16)) ∧
    (p.is.handler = true → (workCtx (pushResult p lat file num mask val)).hresults = (workCtx p).hresults ++
      [⟨(getCluster p.st p.is.old.cluster).wall + lat, file, num, mask, val, none, []⟩])

namespace Sys2Proof.Claim

/-- Bits of a register of a file (R134). -/
def fileWidth : RFile → Nat
  | .v => 2048
  | .e => 8
  | .s | .a | .q | .h | .ss | .sa | .sq => 64

/-- Registers of a file (R134, R332). -/
def fileSize : RFile → Nat
  | .s | .v | .ss => 32
  | .a | .sa => 16
  | .q | .e | .h | .sq => 8

/-- Register `k` of a file, zero-extended. -/
def register (c : Ctx) (f : RFile) (k : Nat) : Vec :=
  match f with
  | .s => (vget 0 c.s k).setWidth 2048
  | .a => (vget 0 c.a k).setWidth 2048
  | .v => vget 0 c.v k
  | .q => (vget 0 c.q k).setWidth 2048
  | .e => (vget 0 c.e k).setWidth 2048
  | .h => (vget 0 c.h k).setWidth 2048
  | .ss => (vget 0 c.ss k).setWidth 2048
  | .sa => (vget 0 c.sa k).setWidth 2048
  | .sq => (vget 0 c.sq k).setWidth 2048

/-- Is the block of a register present: the scalar block, a vector block of four, or the service bank, which has no block
(R307)? -/
def blockHere (c : Ctx) (f : RFile) (k : Nat) : Bool :=
  match f with
  | .s | .a | .q | .e | .h => c.presS
  | .v => vget true c.presV (k / 4)
  | .ss | .sa | .sq => true

/-- A register after a result that writes the bits of a mask. -/
def written (f : RFile) (old mask val : Vec) : Vec :=
  (((old &&& ~~~mask) ||| (val &&& mask)).setWidth (fileWidth f)).setWidth 2048

end Sys2Proof.Claim

/-- R115, R9: results of any file, whole or of the lanes of a mask, that are due land in the order they were issued in, so that
of two writes of one register that become visible at one cycle the one issued later, which stands later among the results, is
the one that remains, bit by bit; a bundle of that cycle reads it, and every other register keeps its value. A result due later
stays bound, and so does one whose block is yet to be pulled (R310). -/
def Obligations.ResultsLandWhenDue : Prop :=
  ∀ (c : Ctx) (t due num : Nat) (f : RFile) (m1 v1 m2 v2 : Vec), num < fileSize f →
    (f = .e → m1.setWidth 8 = BitVec.allOnes 8 ∧ m2.setWidth 8 = BitVec.allOnes 8) →
    let one := (⟨due, f, num, m1, v1, none, []⟩ : Result)
    let two := (⟨due, f, num, m2, v2, none, []⟩ : Result)
    (t < due ∨ blockHere c f num = false → (c.results = [one] ∨ c.results = [one, two]) → landDue c t = c) ∧
    (due ≤ t → blockHere c f num = true →
      (c.results = [one] → register (landDue c t) f num = written f (register c f num) m1 v1) ∧
      (c.results = [one, two] → register (landDue c t) f num = written f (written f (register c f num) m1 v1) m2 v2) ∧
      (c.results = [one] ∨ c.results = [one, two] → (landDue c t).results = [] ∧
        ∀ f' k, (f' ≠ f ∨ k ≠ num) → register (landDue c t) f' k = register c f' k))

namespace Sys2Proof.Claim

/-- Does one of the six queues hold more than 16 counted entries (R139, R140)? A load in flight to a port counts toward the
load-address queue and toward the load-data queue it will enter. -/
def overfull (c : Ctx) : Prop :=
  16 < c.laq.length ∨ 16 < c.ldq.length + (c.laq.filter fun e => !e.vec && !e.atomic).length ∨
  16 < c.vldq.length + (c.laq.filter fun e => e.vec && !e.atomic).length ∨
  16 < c.saq.length ∨ 16 < c.sdq.length ∨ 16 < c.vsdq.length

end Sys2Proof.Claim

/-- R139, R140, R142: each of the six queues of a context holds 16 entries: what a slot adds to a queue, it adds at the end; a
queue then made to hold more than 16 violates the schedule, and queues that hold no more do not. A load that arrives moves from
the load-address queue to the end of the load-data queue of its kind, in order. -/
def Obligations.QueuesHoldSixteenEntries : Prop :=
  (∀ (p : Perf) (f : Ctx → Ctx), p.is.m < p.is.work.members.length →
    workCtx (pushQueue p f) = f (workCtx p) ∧
    (overfull (f (workCtx p)) → (pushQueue p f).is.traps =
      p.is.traps ++ [⟨p.is.m, p.is.slot, .scheduleViolation, BitVec.ofNat 64 p.is.slot⟩]) ∧
    (¬overfull (f (workCtx p)) → (pushQueue p f).is.traps = p.is.traps)) ∧
  (∀ (p : Perf) (lat : Nat) (v : Word) (x : Vec) (vec atomic : Bool),
    pushSdq p lat v = pushQueue p (fun c => { c with sdq := c.sdq ++ [⟨p.is.old.lc + lat, v.setWidth 2048⟩] }) ∧
    pushVsdq p lat x = pushQueue p (fun c => { c with vsdq := c.vsdq ++ [⟨p.is.old.lc + lat, x⟩] }) ∧
    pushLaq p vec x atomic = pushQueue p (fun c => { c with laq := c.laq ++ [⟨vec, p.is.old.lc + 6, x, atomic⟩] })) ∧
  ∀ (c : Ctx) (t : Nat) (e : LaqEntry) (r : List LaqEntry), c.laq = e :: r → e.arrive ≤ t → (∀ x ∈ r, t < x.arrive) →
    e.atomic = false → arriveLoads c t = { c with
      laq := r
      ldq := if e.vec = true then c.ldq else c.ldq ++ [e.data.setWidth 64]
      vldq := if e.vec = true then c.vldq ++ [e.data] else c.vldq }

namespace Sys2Proof.Claim

/-- EA of an ad slot (R188): the sum of the two registers modulo 2^64, or, with the post-increment, the address register
alone, which takes the sum one cycle later. -/
def effective (post : Bool) (a : AReg) (b : SReg) (p : Perf) : Nat × Perf :=
  let x := readA p a.val
  let y := readS x.2 b.val
  if post = true then (x.1.toNat, writeA y.2 a.val 1 (x.1 + y.1)) else ((x.1.toNat + y.1.toNat) % 2 ^ 64, y.2)

/-- A local access of `n` bytes aligned to `n` (R180, R188): LOCAL_ALIGN before LOCAL_BOUNDS, each with the address as
its value; inside the gang's allocation the access `f` is made. -/
def localAccess (ea n : Nat) (f : Perf → Perf) (p : Perf) : Perf :=
  if ea % n ≠ 0 then raise p .localAlign (BitVec.ofNat 64 ea)
  else if p.is.old.task.spadBase ≤ ea ∧ ea + n ≤ p.is.old.task.spadBase + p.is.old.task.spadSize then f p
  else raise p .localBounds (BitVec.ofNat 64 ea)

/-- Is the scalar register number the port of the queues (R57)? -/
def namesPort (p : Perf) (d : SReg) : Prop := (oldCtx p).mode = 0 ∧ d.val = 31

/-- Does a vector register number name the port: v31 outside handlers (R57)? -/
def namesVPort (p : Perf) (d : VReg) : Prop := d.val = 31 ∧ p.is.handler = false

/-- A little-endian number of `n` bytes of the cluster's scratchpad (R14). -/
def spadNumber (p : Perf) (ea : Nat) : Nat → Nat
  | 0 => 0
  | n + 1 => spadNumber p ea n + (memRead (getCluster p.st p.is.old.cluster).spad (ea + n)).toNat * 256 ^ n

/-- The bytes of a number, lowest first. -/
def numberBytes (x n : Nat) : List Byte := (List.range n).map fun i => BitVec.ofNat 8 (x / 256 ^ i)

end Sys2Proof.Claim

/-! ## Address slots, loads and stores (chapters 07 and 10) -/

/-- R188 to R190: a scalar load reads its bytes at issue, little-endian and zero-extended, and its register takes them six
cycles later; a load to the port queues them for six cycles later. A vector load gives its lanes, those whose predicate
bit is 0 keeping their register's value. -/
def Obligations.LocalLoadResults : Prop :=
  ∀ (d : SReg) (dv : VReg) (post : Bool) (a : AReg) (b : SReg) (z : ASize) (q : QReg),
    Performs (.adLd d post a b z q) (predicated q fun p =>
      let ea := effective post a b p
      localAccess ea.1 z.bytes (fun p =>
        let p' := accessLocal p ea.1 z.bytes false true 0
        let v : Word := BitVec.ofNat 64 (spadNumber p' ea.1 z.bytes)
        if (oldCtx p').mode = 0 ∧ d.val = 31 then
          pushQueue p' fun c => { c with laq := c.laq ++ [⟨false, p'.is.old.lc + 6, v.setWidth 2048, false⟩] }
        else writeS p' d.val 6 v) ea.2) ∧
    Performs (.adVld dv post a b q) (lanewise q fun m p =>
      let ea := effective post a b p
      localAccess ea.1 256 (fun p =>
        let p' := accessLanes p ea.1 m false
        let v : Vec := BitVec.ofNat 2048 (spadNumber p' ea.1 256)
        if dv.val = 31 ∧ p'.is.handler = false then
          pushQueue p' fun c => { c with laq := c.laq ++ [⟨true, p'.is.old.lc + 6, v &&& laneMask m, false⟩] }
        else writeV p' dv.val 6 (laneMask m) v) ea.2)

/-- R188 to R190, R289: a scalar store of a register is noted with its address and its bytes, little-endian, to be performed
when the bundle issues; a store of the port queues its address for the data to come. A vector store stores each lane whose
predicate bit is 1 at its own address. After a release fence a store is a release, which raises the interval. -/
def Sys2Proof.Claim.LocalStoreSlotsPart : Prop :=
  ∀ (d : SReg) (dv : VReg) (post : Bool) (a : AReg) (b : SReg) (z : ASize) (q : QReg),
    Performs (.adSt d post a b z q) (predicated q fun p =>
      let ea := effective post a b p
      localAccess ea.1 z.bytes (fun p =>
        if (oldCtx p).mode = 0 ∧ d.val = 31 then
          pushQueue p fun c => { c with saq := c.saq ++ [⟨false, z.bytes, ea.1, 0⟩] }
        else
          let v := readS p d.val
          let p' := accessLocal v.2 ea.1 z.bytes true true 0
          releaseWrite (addOp p' (.store ea.1 (numberBytes v.1.toNat z.bytes) (writeEntry p')))) ea.2) ∧
    Performs (.adVst dv post a b q) (lanewise q fun m p =>
      let ea := effective post a b p
      localAccess ea.1 256 (fun p =>
        if dv.val = 31 ∧ p.is.handler = false then
          pushQueue p fun c => { c with saq := c.saq ++ [⟨true, 256, ea.1, m⟩] }
        else
          let v := readV p dv.val
          let p' := accessLanes v.2 ea.1 m true
          let ops := ((List.range 64).filter fun i => m.getLsbD i).map fun i =>
            MemOp.store (ea.1 + 4 * i) (numberBytes (v.1.extractLsb' (32 * i) 32).toNat 4) (writeEntry p')
          let p'' : Perf := { p' with is := { p'.is with ops := p'.is.ops ++ ops } }
          if m = 0 then p'' else releaseWrite p'') ea.2)

/-- R54, R185, R189: performing a store of a bundle: the bytes at its address in the gang's cluster become its data; every
other byte of that scratchpad, every other cluster's, and device memory read as before. -/
def Sys2Proof.Claim.StoresChangeOnlyTheirBytesPart : Prop :=
  ∀ (p : Perf) (a : Nat) (data : List Byte) (ent : Lane) (x : Nat),
    let t := (performOp p (.store a data ent)).st
    (∀ i (h : i < data.length), memRead (getCluster t p.is.old.cluster).spad (a + i) = data[i]) ∧
    (x < a ∨ a + data.length ≤ x →
      memRead (getCluster t p.is.old.cluster).spad x = memRead (getCluster p.st p.is.old.cluster).spad x) ∧
    (∀ c, c ≠ p.is.old.cluster → getCluster t c = getCluster p.st c) ∧
    t.mem = p.st.mem ∧ t.gangs = p.st.gangs ∧ t.cores = p.st.cores ∧
    (performOp p (.store a data ent)).is = p.is

/-- R54, R185, R188 to R190, R289: stores to scratchpad, and what performing one changes. -/
def Obligations.LocalStoreResults : Prop := LocalStoreSlotsPart ∧ StoresChangeOnlyTheirBytesPart

/-- R191: the address file's moves: the sum of an address register and a scalar, a scalar moved in, an address register
moved out, each one cycle later. -/
def Sys2Proof.Claim.AddressMoveResultsPart : Prop :=
  ∀ (d a : AReg) (ds b : SReg) (q : QReg),
    Performs (.adAdd d a b q) (predicated q fun p =>
      let x := readA p a.val
      let y := readS x.2 b.val
      writeA y.2 d.val 1 (x.1 + y.1)) ∧
    Performs (.adMov d b q) (predicated q fun p => writeA (readS p b.val).2 d.val 1 (readS p b.val).1) ∧
    Performs (.adGet ds a q) (predicated q fun p => writeS (readA p a.val).2 ds.val 1 (readA p a.val).1)

namespace Sys2Proof.Claim

/-- Op(old, y) of R192 for the integer atomics, on words of width `w`; `c` is the comparand. -/
def atomValue (op : AtomOp) (w : Nat) (old y c : BitVec w) : BitVec w :=
  match op with
  | .add => old + y
  | .and => old &&& y
  | .or => old ||| y
  | .xor => old ^^^ y
  | .min => if old.slt y then old else y
  | .max => if old.slt y then y else old
  | .nmin => if old.ult y then old else y
  | .nmax => if old.ult y then y else old
  | .xchg => y
  | .cas => if old = c then y else old
  | .fadd => BitVec.ofNat w (fAdd f32F .rne old.toNat y.toNat)
  | .badd => BitVec.ofNat w (fAdd bf16F .rne (old.toNat % 65536) (y.toNat % 65536) +
      65536 * fAdd bf16F .rne (old.toNat / 65536) (y.toNat / 65536))

/-- Where the old value of an atomic goes (R192): a register, bound now with the value to come, or, at the port, an entry of
the store-data queue and one of the load-address queue that carries no data. -/
def atomicBound (op : AtomOp) (n ea : Nat) (d : SReg) (y cmp : Word) (ent : Lane) (p : Perf) : Perf :=
  let due := if p.is.handler = true then (getCluster p.st p.is.old.cluster).wall + 6 else p.is.old.lc + 6
  let y' := BitVec.ofNat 64 (y.toNat % 256 ^ n)
  let c' := BitVec.ofNat 64 (cmp.toNat % 256 ^ n)
  if (oldCtx p).mode = 0 ∧ d.val = 31 then
    let p' := pushSdq (pushLaq p false 0 true) 6 0
    addOp p' (.atomic op n ea y' c' p.is.m none (some (workCtx p).sdq.length) due ent)
  else addOp (writeS p d.val 6 0) (.atomic op n ea y' c' p.is.m (destS p d.val) none due ent)

/-- An atomic slot (R192): Areg[A], then Sreg[B], then, for cas alone, the comparand Sreg[D]; alignment and bounds; an
acquire synchronises at cluster scope, and any other notes the releases it reads for a later fence (R289); a release is marked
with cluster scope, or the wider one of a fence before it (the model's choice, log entry 128), and raises the interval. -/
def atomicSlotAs (op : AtomOp) (n : Nat) (d : SReg) (a : AReg) (b : SReg) (o : AOrd) (p : Perf) : Perf :=
  let x := readA p a.val
  let y := readS x.2 b.val
  let c := if op = .cas then readS y.2 d.val else ((0 : Word), y.2)
  let ea := x.1.toNat
  localAccess ea n (fun p =>
    let p1 := needRows (checkWatermark (touchSpad p ea n) ea n) ea n
    let p2 := if o = .acq ∨ o = .acqrel then acquireLocal p1 ea n 2 else noteRange p1 ea n true
    let rel := o = .rel ∨ o = .acqrel
    let fence := (oldCtx p2).relScope
    let scope := if rel ∧ (fence = 7 ∨ fence < 2) then 2 else fence
    let ent := entryOf p2.st p2.is.old p2.is.m scope true
    let p3 := atomicBound op n ea d y.1 c.1 ent p2
    if rel then { p3 with is := { p3.is with work := bumpInterval p3.is.work p3.is.m } } else releaseWrite p3) c.2

end Sys2Proof.Claim

/-- R192: every bank atomic completes: it is noted with its operation, its address and its operands cut to its width, to be
performed in its bank's order when the bundle issues; its old value is bound for six cycles later. -/
def Sys2Proof.Claim.AtomicSlotResultsPart : Prop :=
  ∀ (d : SReg) (a : AReg) (b : SReg) (o : AOrd) (w : Bool) (q : QReg),
    let n := if w = true then 8 else 4
    Performs (.adAadd d a b o w q) (predicated q (atomicSlotAs .add n d a b o)) ∧
    Performs (.adAand d a b o w q) (predicated q (atomicSlotAs .and n d a b o)) ∧
    Performs (.adAor d a b o w q) (predicated q (atomicSlotAs .or n d a b o)) ∧
    Performs (.adAxor d a b o w q) (predicated q (atomicSlotAs .xor n d a b o)) ∧
    Performs (.adAmin d a b o w q) (predicated q (atomicSlotAs .min n d a b o)) ∧
    Performs (.adAmax d a b o w q) (predicated q (atomicSlotAs .max n d a b o)) ∧
    Performs (.adNmin d a b o w q) (predicated q (atomicSlotAs .nmin n d a b o)) ∧
    Performs (.adNmax d a b o w q) (predicated q (atomicSlotAs .nmax n d a b o)) ∧
    Performs (.adXchg d a b o w q) (predicated q (atomicSlotAs .xchg n d a b o)) ∧
    Performs (.adCas d a b o w q) (predicated q (atomicSlotAs .cas n d a b o)) ∧
    Performs (.adFadd d a b o q) (predicated q (atomicSlotAs .fadd 4 d a b o)) ∧
    Performs (.adBadd d a b o q) (predicated q (atomicSlotAs .badd 4 d a b o))

/-- R192: performing an atomic when its bundle issues: the word in scratchpad becomes Op(old, y), every other byte stays, and
the old value, sign-extended for amin and amax and else zero-extended, is what a bound result takes. -/
def Sys2Proof.Claim.AtomicsReadModifyWritePart : Prop :=
  ∀ (p : Perf) (op : AtomOp) (wide : Bool) (a : Nat) (y c : Word) (m : Nat) (file : RFile) (num due : Nat) (ent : Lane)
    (x : Nat) (r : Result), (wide = true → op ≠ .fadd ∧ op ≠ .badd) →
    let w := if wide = true then 64 else 32
    let n := w / 8
    let t := performOp p (.atomic op n a (BitVec.ofNat 64 (y.toNat % 2 ^ w)) (BitVec.ofNat 64 (c.toNat % 2 ^ w)) m
      (some (file, num)) none due ent)
    let old := BitVec.ofNat w (spadNumber p a n)
    (∀ i < n, memRead (getCluster t.st p.is.old.cluster).spad (a + i) =
      BitVec.ofNat 8 ((atomValue op w old (y.setWidth w) (c.setWidth w)).toNat / 256 ^ i)) ∧
    (x < a ∨ a + n ≤ x →
      memRead (getCluster t.st p.is.old.cluster).spad x = memRead (getCluster p.st p.is.old.cluster).spad x) ∧
    (m < p.is.work.members.length → (getCtx p.is.work m).results = [r] → r.file = file → r.num = num → r.due = due →
      (getCtx t.is.work m).results = [{ r with val :=
        if op = .min ∨ op = .max then (old.signExtend 64).setWidth 2048 else (old.setWidth 64).setWidth 2048 }])

/-- R192: the atomic slots, and what an atomic does to its word. The scope of a release after a fence is the model's
choice (log entry 128). -/
def Obligations.AtomicResults : Prop := AtomicSlotResultsPart ∧ AtomicsReadModifyWritePart

/-- R273, R274: a touch walks the region of its address, a walk that ends at issue (the model's choice, log entry 101); a failed
walk raises the replayable TOUCH_FAULT with the region and the cause; otherwise the entry is live from the next bundle on, for
256 cycles, in the entry that holds the region or the lowest that is not live, and with none free the schedule is violated. -/
def Sys2Proof.Claim.TouchResultsPart : Prop :=
  ∀ (post : Bool) (a : AReg) (b : SReg) (q : QReg),
    Performs (.adTch post a b q) (predicated q fun p =>
      let ea := effective post a b p
      let region := ea.1 / 4096 * 4096
      let fault := fun c : Nat => raise ea.2 .touchFault (BitVec.ofNat 64 (region % 2 ^ 56 + c % 256))
      match translate ea.2.st ea.2.is.old.launch.xdesc region with
      | .error c => fault c
      | .ok x =>
        if x.r = false then fault 2
        else
          match touchSlot (workCtx ea.2) region ea.2.is.old.lc with
          | none => violate ea.2
          | some i => modWork ea.2 fun c => { c with touches := vset c.touches i (some
              ⟨region, x.pa, x.w, if ea.2.is.handler = true then ea.2.is.old.lc else ea.2.is.old.lc + 1, ea.2.is.old.lc + 256,
                ea.2.st.invalNo⟩) })

namespace Sys2Proof.Claim

/-- The checks of a far access, in the order of R275: the alignment, then an entry of the touch file that holds the region and
is live at the logical cycle (with W, for a store), then room in the far-data queue, for want of which the gang freezes. -/
def farAccess (ea n : Nat) (store : Bool) (f : Touch → Perf → Perf) (p : Perf) : Perf :=
  let live := (oldCtx p).touches.toList.filterMap id |>.find? fun e =>
    decide (e.region = ea / 4096 * 4096) && (decide (e.live ≤ p.is.old.lc) && decide (p.is.old.lc ≤ e.exp))
  if ea % n ≠ 0 then raise p .farAlign (BitVec.ofNat 64 ea)
  else
    match live with
    | none => raise p .accessUntouched (BitVec.ofNat 64 ea)
    | some e =>
      if store = true ∧ e.w = false then raise p .accessUntouched (BitVec.ofNat 64 ea)
      else if 16 ≤ (workCtx p).farq.length then freezeOn p .farQueue
      else f e p

/-- A far access joins the far-data queue under the next number, after the race check of R303 in far mode. -/
def queueFar (o : FarOp) (p : Perf) : Perf :=
  modWork (checkFarRace p o.pa o.va o.bytes o.store) fun c =>
    { c with farq := c.farq ++ [{ o with id := c.farId }], farId := c.farId + 1 }

/-- The results of a list beyond the first `n` wait for the data of far load `id`. -/
def waitingFor (id n : Nat) (rs : List Result) : List Result :=
  rs.take n ++ (rs.drop n).map fun r => { r with far := some id }

end Sys2Proof.Claim

/-- R275 to R277, R289, R295: far loads and stores, in every mode and every form of address. After the checks a far load queues
its access and binds, for whatever register it names (none for s0), a result of the latency in kfdlat that waits for its data; a
far store queues the low bytes of its register at the physical address, and with a release fence before it its entry carries the
fence's scope. -/
def Sys2Proof.Claim.FarAccessResultsPart : Prop :=
  ∀ (d : SReg) (post : Bool) (a : AReg) (b : SReg) (z : ASize) (q : QReg),
    Performs (.adFld d post a b z q) (predicated q fun p =>
      let ea := effective post a b p
      farAccess ea.1 z.bytes false (fun e p =>
        let o : FarOp := ⟨0, false, e.page + ea.1 % 4096, ea.1, z.bytes, 0, false, 0, decide (2 ≤ (oldCtx p).mode), e.inv⟩
        let p' := queueFar o p
        modWork (writeS p' d.val (oldCtx p').kfdlat 0) fun c => { c with
          results := waitingFor (workCtx p).farId (workCtx p').results.length c.results
          hresults := waitingFor (workCtx p).farId (workCtx p').hresults.length c.hresults }) ea.2) ∧
    Performs (.adFst d post a b z q) (predicated q fun p =>
      let ea := effective post a b p
      farAccess ea.1 z.bytes true (fun e p =>
        let v := readS p d.val
        let ent := entryOf v.2.st v.2.is.old v.2.is.m (oldCtx v.2).relScope false
        queueFar ⟨0, true, e.page + ea.1 % 4096, ea.1, z.bytes, BitVec.ofNat 64 (v.1.toNat % 256 ^ z.bytes), false, ent,
          decide (2 ≤ (oldCtx v.2).mode), e.inv⟩ v.2) ea.2)

/-- R191, R273 to R277, R289, R295: address arithmetic, address moves, touches, and far loads and stores. That a touch's
walk ends at issue is the model's choice (log entry 101). -/
def Obligations.AddressAndFarResults : Prop := AddressMoveResultsPart ∧ TouchResultsPart ∧ FarAccessResultsPart

namespace Sys2Proof.Claim

/-- Bits of an element of the formats that vx arithmetic takes (R155). -/
def bitsOfFmt : VFmt → Nat
  | .f32 | .i32 | .n32 => 32
  | .bf16 | .i16 => 16
  | .i8 | .t8 | .t6 => 8

/-- Element `e` of a register in elements of `w` bits. -/
def part (w : Nat) (v : Vec) (e : Nat) : BitVec w := v.extractLsb' (w * e) w

/-- A function of one register that works element by element. -/
def Elementwise1 (w : Nat) (op : BitVec w → BitVec w) (val : Vec → Vec) : Prop :=
  ∀ x e, w * (e + 1) ≤ 2048 → part w (val x) e = op (part w x e)

/-- A function of two registers that works element by element. -/
def Elementwise2 (w : Nat) (op : BitVec w → BitVec w → BitVec w) (val : Vec → Vec → Vec) : Prop :=
  ∀ x y e, w * (e + 1) ≤ 2048 → part w (val x y) e = op (part w x e) (part w y e)

/-- A vx slot on vA: the elements of the active lanes of vD take `op` of the elements, `lat` cycles later (R58, R159). -/
def Lanes1 (i : Instr) (lat w : Nat) (op : BitVec w → BitVec w) (d a : VReg) (q : QReg) : Prop :=
  ∃ val, Elementwise1 w op val ∧ Performs i (lanewise q fun m p =>
    let x := readV p a.val
    writeV x.2 d.val lat (laneMask m) (val x.1))

/-- A vx slot on vA and vB, read in that order. -/
def Lanes2 (i : Instr) (lat w : Nat) (op : BitVec w → BitVec w → BitVec w) (d a b : VReg) (q : QReg) : Prop :=
  ∃ val, Elementwise2 w op val ∧ Performs i (lanewise q fun m p =>
    let x := readV p a.val
    let y := readV x.2 b.val
    writeV y.2 d.val lat (laneMask m) (val x.1 y.1))

/-- A vx slot on vA, vB and the old vD, read in that order. -/
def Lanes3 (i : Instr) (lat w : Nat) (op : BitVec w → BitVec w → BitVec w → BitVec w) (d a b : VReg) (q : QReg) : Prop :=
  ∃ val : Vec → Vec → Vec → Vec,
    (∀ x y z e, w * (e + 1) ≤ 2048 → part w (val x y z) e = op (part w x e) (part w y e) (part w z e)) ∧
    Performs i (lanewise q fun m p =>
      let x := readV p a.val
      let y := readV x.2 b.val
      let z := readV y.2 d.val
      writeV z.2 d.val lat (laneMask m) (val x.1 y.1 z.1))

/-- An integer clamped to a type of `w` bits (R161). -/
def clamped (w : Nat) (signed : Bool) (v : Int) : BitVec w :=
  if signed = true then BitVec.ofInt w (max (-(2 ^ (w - 1))) (min (2 ^ (w - 1) - 1) v))
  else BitVec.ofInt w (max 0 (min (2 ^ w - 1) v))

/-- An element as an integer of its type. -/
def asInt {w : Nat} (signed : Bool) (x : BitVec w) : Int := if signed = true then x.toInt else x.toNat

end Sys2Proof.Claim

/-! ## Vector operations (chapter 06) -/

/-- R58, R155, R158, R161, R162: integer elements. i formats are signed and n32 is not; sums, differences, products and
fused sums wrap, mulh gives the upper half, adds and subs clamp, shifts take the whole element as their amount; inactive
lanes are not written. -/
def Obligations.VectorIntegerResults : Prop :=
  ∀ (d a b : VReg) (f : VFmt) (q : QReg), f.isInt = true →
    let w := bitsOfFmt f
    let sg := decide (f ≠ .n32)
    Lanes2 (.vxAdd d a b f q .rne) 1 w (fun x y => x + y) d a b q ∧
    Lanes2 (.vxSub d a b f q .rne) 1 w (fun x y => x - y) d a b q ∧
    Lanes2 (.vxMul d a b f q .rne) 3 w (fun x y => x * y) d a b q ∧
    Lanes3 (.vxFma d a b f q .rne) 4 w (fun x y z => x * y + z) d a b q ∧
    Lanes2 (.vxMulh d a b f q) 3 w (fun x y => BitVec.ofInt w (asInt sg x * asInt sg y / 2 ^ w)) d a b q ∧
    Lanes2 (.vxAdds d a b f q) 1 w (fun x y => clamped w sg (asInt sg x + asInt sg y)) d a b q ∧
    Lanes2 (.vxSubs d a b f q) 1 w (fun x y => clamped w sg (asInt sg x - asInt sg y)) d a b q ∧
    Lanes2 (.vxMin d a b f q) 1 w (fun x y => if asInt sg x < asInt sg y then x else y) d a b q ∧
    Lanes2 (.vxMax d a b f q) 1 w (fun x y => if asInt sg x < asInt sg y then y else x) d a b q ∧
    Lanes2 (.vxShl d a b f q) 1 w (fun x y => x <<< y.toNat) d a b q ∧
    Lanes2 (.vxShr d a b f q) 1 w (fun x y => x >>> y.toNat) d a b q ∧
    Lanes2 (.vxSra d a b f q) 1 w (fun x y => x.sshiftRight y.toNat) d a b q ∧
    (f ≠ .n32 → Lanes1 (.vxAbs d a f q) 1 w (fun x => if x.toInt < 0 then -x else x) d a q ∧
      Lanes1 (.vxNeg d a f q) 1 w (fun x => -x) d a q)

/-- R160, R162, R169: floating-point elements: each result is the exact one rounded once to the element's own format by the
slot's mode; min, max, abs and neg are exact; the approximation functions take no mode and give bf16 by way of FP32, rounded
once more. -/
def Obligations.VectorFloatResults : Prop :=
  ∀ (d a b : VReg) (f : VFmt) (r : Rnd) (q : QReg), f.isFp = true →
    let w := bitsOfFmt f
    let k := if f = .bf16 then bf16F else f32F
    let fn := fun (g : Nat → Nat) (x : BitVec w) =>
      BitVec.ofNat w (if f = .bf16 then bf16F.write .rne (f32F.read (g (x.toNat * 65536))) else g x.toNat)
    Lanes2 (.vxAdd d a b f q r) 4 w (fun x y => BitVec.ofNat w (fAdd k r x.toNat y.toNat)) d a b q ∧
    Lanes2 (.vxSub d a b f q r) 4 w (fun x y => BitVec.ofNat w (fSub k r x.toNat y.toNat)) d a b q ∧
    Lanes2 (.vxMul d a b f q r) 4 w (fun x y => BitVec.ofNat w (fMul k r x.toNat y.toNat)) d a b q ∧
    Lanes3 (.vxFma d a b f q r) 4 w (fun x y z => BitVec.ofNat w (fFma k r x.toNat y.toNat z.toNat)) d a b q ∧
    Lanes2 (.vxMin d a b f q) 1 w (fun x y => BitVec.ofNat w (fMin k x.toNat y.toNat)) d a b q ∧
    Lanes2 (.vxMax d a b f q) 1 w (fun x y => BitVec.ofNat w (fMax k x.toNat y.toNat)) d a b q ∧
    Lanes1 (.vxAbs d a f q) 1 w (fun x => BitVec.ofNat w (fAbs k x.toNat)) d a q ∧
    Lanes1 (.vxNeg d a f q) 1 w (fun x => BitVec.ofNat w (fNeg k x.toNat)) d a q ∧
    Lanes1 (.vxRcp d a f q) 6 w (fn rcpF32) d a q ∧
    Lanes1 (.vxRsq d a f q) 6 w (fn rsqF32) d a q ∧
    Lanes1 (.vxExp2 d a f q) 6 w (fn exp2F32) d a q ∧
    Lanes1 (.vxLog2 d a f q) 6 w (fn log2F32) d a q

/-- R163: logic and moves of whole 32-bit lanes, of which each active lane of vD receives the result, and the select, which is
always performed, reads both sources and takes Q as a selector; the mask of a predicate covers the 32 bits of each lane whose
bit is 1. -/
def Obligations.VectorLaneLogicResults : Prop :=
  ∀ (d a b : VReg) (q : QReg),
    (∀ (m : Word) (i j : Nat), i < 64 → j < 32 → (laneMask m).getLsbD (32 * i + j) = m.getLsbD i) ∧
    Lanes2 (.vxAnd d a b q) 1 32 (fun x y => x &&& y) d a b q ∧
    Lanes2 (.vxOr d a b q) 1 32 (fun x y => x ||| y) d a b q ∧
    Lanes2 (.vxXor d a b q) 1 32 (fun x y => x ^^^ y) d a b q ∧
    Lanes1 (.vxNot d a q) 1 32 (fun x => ~~~x) d a q ∧
    Lanes1 (.vxMov d a q) 1 32 (fun x => x) d a q ∧
    ∃ val : Word → Vec → Vec → Vec,
      (∀ c x y e, e < 64 → part 32 (val c x y) e = if c.getLsbD e = true then part 32 x e else part 32 y e) ∧
      Performs (.vxSel d a b q) (unpredicated fun p =>
        let x := readV p a.val
        let y := readV x.2 b.val
        let c := readQ y.2 q.val
        writeV c.2 d.val 1 (BitVec.allOnes 2048) (val c.1 x.1 y.1))

/-- R58, R164, R165: the permutation by the low six bits of an index, shifts and rotations of lanes by a signed amount, and the
broadcast. -/
def Obligations.VectorLaneMoveResults : Prop :=
  ∀ (d a b : VReg) (sb : SReg) (f : VFmt) (q : QReg),
    (∃ val : Vec → Vec → Vec,
      (∀ x y e, e < 64 → part 32 (val x y) e = part 32 x ((part 32 y e).toNat % 64)) ∧
      Performs (.vxPerm d a b q) (lanewise q fun m p =>
        let x := readV p a.val
        let y := readV x.2 b.val
        writeV y.2 d.val 2 (laneMask m) (val x.1 y.1))) ∧
    (∃ sh rot : Vec → Word → Vec,
      (∀ x t (e : Nat), e < 64 → part 32 (sh x t) e =
        if 0 ≤ (e : Int) - t.toInt ∧ (e : Int) - t.toInt < 64 then part 32 x ((e : Int) - t.toInt).toNat else 0) ∧
      (∀ x t (e : Nat), e < 64 → part 32 (rot x t) e = part 32 x (((e : Int) - t.toInt) % 64).toNat) ∧
      Performs (.vxLsh d a sb q) (lanewise q fun m p =>
        let x := readV p a.val
        let t := readS x.2 sb.val
        writeV t.2 d.val 2 (laneMask m) (sh x.1 t.1)) ∧
      Performs (.vxLrot d a sb q) (lanewise q fun m p =>
        let x := readV p a.val
        let t := readS x.2 sb.val
        writeV t.2 d.val 2 (laneMask m) (rot x.1 t.1))) ∧
    (f.arith = true → ∃ val : Word → Vec,
      (∀ x e, bitsOfFmt f * (e + 1) ≤ 2048 → part (bitsOfFmt f) (val x) e = x.setWidth (bitsOfFmt f)) ∧
      Performs (.vxBcast d sb f q) (lanewise q fun m p =>
        let x := readS p sb.val
        writeV x.2 d.val 1 (laneMask m) (val x.1)))

namespace Sys2Proof.Claim

/-- A compare of the lanes of vA and vB into a predicate; inactive lanes keep their bit (R166). -/
def LaneCompare (i : Instr) (test : Lane → Lane → Bool) (d : QReg) (a b : VReg) (q : QReg) : Prop :=
  ∃ val : Vec → Vec → Word, (∀ x y e, e < 64 → (val x y).getLsbD e = test (part 32 x e) (part 32 y e)) ∧
    Performs i (lanewise q fun m p =>
      let x := readV p a.val
      let y := readV x.2 b.val
      writeQ y.2 d.val 1 m (val x.1 y.1))

/-- Predicate logic on the active lanes (R167). -/
def predLogic (op : Word → Word → Word) (d a b q : QReg) : Perf → Perf := lanewise q fun m p =>
  let x := readQ p a.val
  let y := readQ x.2 b.val
  writeQ y.2 d.val 1 m (op x.1 y.1)

/-- The elements of the active lanes of a register, lowest first. -/
def active (w : Nat) (x : Vec) (m : Word) : List (BitVec w) :=
  ((List.range (2048 / w)).filter fun e => m.getLsbD (e * w / 32)).map fun e => part w x e

/-- The sum of 2^n FP32 values by the fixed pairing of R168: neighbours first, so that the two halves are summed before their
sums are. -/
def treeSum : Nat → List Nat → Nat
  | 0, l => l.headD 0
  | n + 1, l => fAdd f32F .rne (treeSum n (l.take (2 ^ n))) (treeSum n (l.drop (2 ^ n)))

/-- A reduction into a scalar register, eight cycles later (R168). -/
def reduction (val : Vec → Word → Word) (d : SReg) (a : VReg) (q : QReg) : Perf → Perf := lanewise q fun m p =>
  let x := readV p a.val
  writeS x.2 d.val 8 (val x.1 m)

end Sys2Proof.Claim

/-- R166, R167: compares of 32-bit elements by their type, an FP32 NaN comparing false but for cne, and predicate logic. -/
def Sys2Proof.Claim.VectorPredicateResultsPart : Prop :=
  ∀ (d q : QReg) (a b : VReg) (pa pb : QReg),
    (∀ f : VFmt, f = .i32 ∨ f = .n32 →
      LaneCompare (.vxCeq d a b f q) (fun x y => x == y) d a b q ∧
      LaneCompare (.vxCne d a b f q) (fun x y => x != y) d a b q ∧
      LaneCompare (.vxClt d a b f q) (fun x y => if f = .i32 then x.slt y else x.ult y) d a b q ∧
      LaneCompare (.vxCle d a b f q) (fun x y => if f = .i32 then x.sle y else x.ule y) d a b q) ∧
    LaneCompare (.vxCeq d a b .f32 q) (fun x y => fEq f32F x.toNat y.toNat) d a b q ∧
    LaneCompare (.vxCne d a b .f32 q) (fun x y => !fEq f32F x.toNat y.toNat) d a b q ∧
    LaneCompare (.vxClt d a b .f32 q) (fun x y => fLt f32F x.toNat y.toNat) d a b q ∧
    LaneCompare (.vxCle d a b .f32 q) (fun x y => fLt f32F x.toNat y.toNat || fEq f32F x.toNat y.toNat) d a b q ∧
    Performs (.vxQand d pa pb q) (predLogic (fun x y => x &&& y) d pa pb q) ∧
    Performs (.vxQor d pa pb q) (predLogic (fun x y => x ||| y) d pa pb q) ∧
    Performs (.vxQxor d pa pb q) (predLogic (fun x y => x ^^^ y) d pa pb q) ∧
    Performs (.vxQnot d pa q) (lanewise q fun m p => writeQ (readQ p pa.val).2 d.val 1 m (~~~(readQ p pa.val).1))

/-- R165, R168: the extract of an element into a scalar, which the predicate bit of the element's lane lets through, and the
reductions: integer ones exact over the active elements, with their values where no lane is active; floating-point radd in
the rule's fixed pairing, with excluded elements as −0. -/
def Sys2Proof.Claim.VectorReductionResultsPart : Prop :=
  ∀ (d b : SReg) (a : VReg) (f : VFmt) (q : QReg), f.arith = true →
    let w := bitsOfFmt f
    let sg := decide (f ≠ .n32)
    Performs (.vxExt d a b f q) (lanewise q fun m p =>
      let x := readV p a.val
      let y := readS x.2 b.val
      let e := y.1.toNat % (2048 / w)
      writeSIf y.2 d.val 2 (m.getLsbD (e * w / 32))
        (if f.isInt = true ∧ f ≠ .n32 then (part w x.1 e).signExtend 64 else (part w x.1 e).setWidth 64)) ∧
    (f.isInt = true →
      Performs (.vxRadd d a f q) (reduction (fun x m =>
        BitVec.ofInt 64 (((active w x m).map (asInt sg)).sum)) d a q) ∧
      Performs (.vxRmax d a f q) (reduction (fun x m =>
        BitVec.ofInt 64 (((active w x m).map (asInt sg)).foldl max (if sg = true then -(2 ^ (w - 1)) else 0))) d a q) ∧
      Performs (.vxRmin d a f q) (reduction (fun x m =>
        BitVec.ofInt 64 (((active w x m).map (asInt sg)).foldl min (if sg = true then 2 ^ (w - 1) - 1 else 2 ^ w - 1))) d a q)) ∧
    (f.isFp = true →
      let widen := fun x : BitVec w => if f = .bf16 then f32F.write .rne (bf16F.read x.toNat) else f32F.write .rne (f32F.read x.toNat)
      Performs (.vxRadd d a f q) (reduction (fun x m => BitVec.ofNat 64 (treeSum (if f = .bf16 then 7 else 6)
        ((List.range (2048 / w)).map fun e =>
          if m.getLsbD (e * w / 32) = true then widen (part w x e) else 0x80000000))) d a q) ∧
      Performs (.vxRmax d a f q) (reduction (fun x m =>
        BitVec.ofNat 64 (((active w x m).map widen).foldl (fMax f32F) 0xFF800000)) d a q) ∧
      Performs (.vxRmin d a f q) (reduction (fun x m =>
        BitVec.ofNat 64 (((active w x m).map widen).foldl (fMin f32F) 0x7F800000)) d a q))

/-- R165 to R168: predicate slots of the vector unit, and its reductions. -/
def Obligations.PredicateAndReductionResults : Prop := VectorPredicateResultsPart ∧ VectorReductionResultsPart

namespace Sys2Proof.Claim

/-- A conversion of 64 elements (R170): from element `so` of vA to element `po` of vD, bit j of the predicate governing
conversion element j; vD, which is read after vA (R157), takes them three cycles later and keeps its other elements. -/
def Converts (i : Instr) (w ws so po : Nat) (g : BitVec ws → BitVec w) (d a : VReg) (q : QReg) : Prop :=
  ∃ (mask : Word → Vec) (val : Vec → Vec),
    (∀ m e b, e < 2048 / w → b < w →
      (mask m).getLsbD (w * e + b) = (decide (po ≤ e ∧ e < po + 64) && m.getLsbD (e - po))) ∧
    (∀ x j, j < 64 → part w (val x) (po + j) = g (part ws x (so + j))) ∧
    Performs i (lanewise q fun m p =>
      let x := readV p a.val
      writeV (readV x.2 d.val).2 d.val 3 (mask m) (val x.1))

/-- Magnitude bits of a tapered format: 7 of t8, 5 of t6 (R33). -/
def magBits (f : VFmt) : Nat := if f = .t6 then 5 else 7

/-- The IEEE format of a floating-point vector format. -/
def ieee (f : VFmt) : FFmt := if f = .bf16 then bf16F else f32F

/-- The value of a code of a source format of vy.cvs or vy.cvo (R33). -/
def sourceValue (f : VFmt) (x : Nat) : FVal := if f = .t8 then taperedRead x 7 else (ieee f).read x

/-- The entries a vy.cvo appends three cycles later: the outliers of the active elements, lowest first (R36, R174). -/
def outliersOf (f sf : VFmt) (d : VReg) (so po lc : Nat) (x : Vec) (m : Word) : List Held :=
  let value := fun j => sourceValue sf (part (bitsOfFmt sf) x (so + j)).toNat
  ((List.range 64).filter fun j => m.getLsbD j && decide (toTapered (magBits f) true (value j) = .outlier)).map fun j =>
    ⟨lc + 3, .app (po + j) (BitVec.ofNat 32 (if sf = .f32 then (part (bitsOfFmt sf) x (so + j)).toNat
      else f32F.write .rne (value j))) (128 + d.val) 0 (f = .t6), false⟩

end Sys2Proof.Claim

/-- R33, R34, R170, R171, R173: the conversions vy.cvt and vy.cvs for each legal pair of formats: integers wrap or clamp,
floating-point sources round by the mode into an integer's range, tapered sources are exact, tapered results round in code
order and saturate. -/
def Sys2Proof.Claim.VectorConversionResultsPart : Prop :=
  ∀ (d a : VReg) (pt : Fin 4) (sf f : VFmt) (q : QReg) (r : Rnd), sf ≠ f →
    let w := bitsOfFmt f
    let ws := bitsOfFmt sf
    let so := 64 * (pt.val % (2048 / ws / 64))
    let po := 64 * (pt.val % (2048 / w / 64))
    let lo : Int := if f = .n32 then 0 else -(2 ^ (w - 1))
    let hi : Int := if f = .n32 then 2 ^ 32 - 1 else 2 ^ (w - 1) - 1
    let sg := decide (sf ≠ .n32)
    let cvt := .vyCvt d a pt sf f q r
    let cvs := .vyCvs d a pt sf f q
    (sf.isInt = true → f.isInt = true → Converts cvt w ws so po (fun x => BitVec.ofInt w (asInt sg x)) d a q ∧
      Converts cvs w ws so po (fun x => BitVec.ofInt w (max lo (min hi (asInt sg x)))) d a q) ∧
    (sf.isInt = true → f.isFp = true →
      Converts cvt w ws so po (fun x => BitVec.ofNat w ((ieee f).write r (FVal.ofInt (asInt sg x) 0 false))) d a q) ∧
    (sf.isFp = true → f.isInt = true →
      Converts cvt w ws so po (fun x => BitVec.ofInt w (((ieee sf).read x.toNat).toInt r lo hi)) d a q) ∧
    (sf.isFp = true → f.isFp = true →
      Converts cvt w ws so po (fun x => BitVec.ofNat w ((ieee f).write r ((ieee sf).read x.toNat))) d a q) ∧
    (sf = .t8 ∨ sf = .t6 → f.isFp = true →
      Converts cvt w ws so po (fun x => BitVec.ofNat w ((ieee f).write r (taperedRead x.toNat (magBits sf)))) d a q) ∧
    (sf = .t6 → f = .t8 → Converts cvt w ws so po (fun x =>
      BitVec.ofNat w (x.toNat % 64 / 32 * 128 + 4 * (x.toNat % 32))) d a q) ∧
    (sf.isFp = true ∨ sf = .t8 → f = .t8 ∨ f = .t6 → Converts cvs w ws so po (fun x =>
      match toTapered (magBits f) false (sourceValue sf x.toNat) with
      | .code c => BitVec.ofNat w c
      | .outlier => 0) d a q)

/-- R33, R36, R174, R175: vy.cvo writes 0 at the place of an out-of-range element, which it appends to the outlier ring three
cycles later after the checks of the ring's blocks at issue; vy.ppk shifts vD down by one bit for each code and puts plane n
of vA's codes on top; vy.pun spreads the low bits of vA over bit W − 1 − n of each code of vD, of which it keeps the rest. -/
def Sys2Proof.Claim.OutlierAndPlaneResultsPart : Prop :=
  ∀ (d a : VReg) (pt : Fin 4) (sf f : VFmt) (n3 : Bool) (n : Fin 8) (q : QReg),
    (sf ≠ f → sf.isFp = true ∨ sf = .t8 → f = .t8 ∨ f = .t6 →
      let ws := bitsOfFmt sf
      let so := 64 * (pt.val % (2048 / ws / 64))
      let po := 64 * (pt.val % 4)
      ∃ (mask : Word → Vec) (val : Vec → Vec),
        (∀ m e b, e < 256 → b < 8 →
          (mask m).getLsbD (8 * e + b) = (decide (po ≤ e ∧ e < po + 64) && m.getLsbD (e - po))) ∧
        (∀ x j, j < 64 → part 8 (val x) (po + j) =
          match toTapered (magBits f) true (sourceValue sf (part ws x (so + j)).toNat) with
          | .code c => BitVec.ofNat 8 c
          | .outlier => 0) ∧
        Performs (.vyCvo d a pt sf f q) (lanewise q fun m p =>
          let x := readV p a.val
          let p' := writeV (checkRing (readV x.2 d.val).2 64) d.val 3 (mask m) (val x.1)
          modWork p' fun c => { c with held := c.held ++ outliersOf f sf d so po (logicalCycle p') x.1 m })) ∧
    (sf = .t8 ∨ sf = .t6 ∨ sf = .bf16 →
      let w := if sf = .bf16 then 16 else if sf = .t6 then 6 else 8
      let ws := if sf = .bf16 then 16 else 8
      let c := 2048 / ws
      let plane := (if n3 = true then 8 else 0) + n.val
      plane < w →
      (∃ val : Vec → Vec → Vec,
        (∀ x old i, i < 2048 → (val x old).getLsbD i =
          if i < 2048 - c then old.getLsbD (i + c) else (part ws x (i - (2048 - c))).getLsbD (w - 1 - plane)) ∧
        Performs (.vyPpk d a n3 sf n q) (lanewise q fun m p =>
          let x := readV p a.val
          let old := readV x.2 d.val
          writeV old.2 d.val 2 (laneMask m) (val x.1 old.1))) ∧
      (∃ (mask : Word → Vec) (val : Vec → Vec),
        (∀ m e b, e < c → b < ws → (mask m).getLsbD (ws * e + b) =
          (m.getLsbD (e * ws / 32) && (decide (b = w - 1 - plane) || decide (sf = .t6 ∧ 6 ≤ b)))) ∧
        (∀ x e b, e < c → b < ws → (val x).getLsbD (ws * e + b) = (x.getLsbD e && decide (b = w - 1 - plane))) ∧
        Performs (.vyPun d a n3 sf n q) (lanewise q fun m p =>
          let x := readV p a.val
          writeV (readV x.2 d.val).2 d.val 2 (mask m) (val x.1))))

/-- R33, R34, R36, R170, R171, R173 to R175: conversions between formats, with outliers, and the planes. -/
def Obligations.ConversionResults : Prop := VectorConversionResultsPart ∧ OutlierAndPlaneResultsPart

namespace Sys2Proof.Claim

/-- Acc[t][i][n] (R203). -/
def element (c : Ctx) (t i n : Nat) : Lane := mapGet 0 c.acc (2048 * t + 128 * i + n)

/-- An M-unit slot: inside another operation's hold it is a violation, performed or not (R208). A handler's bundles, whose
logical clock stands still, are outside the holds (the model's choice, log entry 100). -/
def matrixUnit (f : Perf → Perf) (p : Perf) : Perf :=
  if p.is.handler = false ∧ p.is.old.lc < (oldCtx p).mFree then violate p else f p

/-- Hold the M unit `h` logical cycles (R208). -/
def holdUnit (h : Nat) (p : Perf) : Perf :=
  if p.is.handler = true then p else modWork p fun c => { c with mFree := p.is.old.lc + h }

/-- A local access of `n` bytes at an address of alignment `al` (R180): LOCAL_ALIGN before LOCAL_BOUNDS. -/
def localRange (ea n al : Nat) (f : Perf → Perf) (p : Perf) : Perf :=
  if ea % al ≠ 0 then raise p .localAlign (BitVec.ofNat 64 ea)
  else if p.is.old.task.spadBase ≤ ea ∧ ea + n ≤ p.is.old.task.spadBase + p.is.old.task.spadSize then f p
  else raise p .localBounds (BitVec.ofNat 64 ea)

/-- A direct operation on a tile, holding the M unit `h` cycles: it waits for the tile's array operations and claims an
absent tile (R203, R208, R210). -/
def direct (t : TileNo) (h : Nat) (q : QReg) (f : Perf → Perf) : Perf → Perf :=
  matrixUnit (predicated q fun p =>
    let p := holdUnit h p
    f (touchTile (if (vget {} (oldCtx p).tiles t.val).busy ≠ 0 then freezeOn p .matrix else p) t.val))

/-- Write elements of a tile from position `k`, row-major. -/
def fillTile (t : TileNo) (k : Nat) (vs : List Lane) (p : Perf) : Perf :=
  modWork p fun c => accFill c (2048 * t.val + k) vs

/-- The tile status of elements read, eight cycles later: INF, NAN and the outlier count (R41 to R43). -/
def statusOf (t : TileNo) (es : List Lane) (outs : Nat) (p : Perf) : Perf :=
  modWork p fun c => { c with pend := c.pend ++ [⟨t.val, p.is.old.lc + 8, elemStatus es outs false⟩] }

/-- Elements `k` to `k + n − 1` of a tile, row-major, as the bundle's reads see them. -/
def tileRun (p : Perf) (t : TileNo) (k n : Nat) : List Lane :=
  (List.range n).map fun i => element (oldCtx p) t.val 0 (k + i)

end Sys2Proof.Claim

/-- R203, R207, R215, R216: the direct tile operations: +0 everywhere; a half row of lanes drained, cleared if asked, its
status left; a half row filled; a tile read from scratchpad; a tile copied or added, rounded to nearest even; the status
read. Writing elements from a position changes those elements and no other. -/
def Sys2Proof.Claim.MatrixDirectResultsPart : Prop :=
  (∀ (c : Ctx) (k : Nat) (vs : List Lane) (t i n : Nat), n < 128 → i < 16 →
    element (accFill c k vs) t i n =
      if k ≤ 2048 * t + 128 * i + n ∧ 2048 * t + 128 * i + n < k + vs.length then vs.getD (2048 * t + 128 * i + n - k) 0
      else element c t i n) ∧
  ∀ (t u : TileNo) (cl hi bf add : Bool) (a : AReg) (b : VReg) (sb : SReg) (q : QReg),
    let row := fun (x : Word) => 128 * (x.toNat % 16) + if hi = true then 64 else 0
    Performs (.mxClr t q) (direct t 1 q (fillTile t 0 (List.replicate 2048 0))) ∧
    Performs (.mxDrn t cl a hi b q) (direct t 1 q fun p =>
      let x := readA p a.val
      let es := tileRun x.2 t (row x.1) 64
      let p' := writeV x.2 b.val 4 (BitVec.allOnes 2048) (ofLanes fun i => es.getD i 0)
      statusOf t es 0 (if cl = true then fillTile t (row x.1) (List.replicate 64 0) p' else p')) ∧
    Performs (.mxFil t a hi b q) (direct t 1 q fun p =>
      let x := readA p a.val
      let v := readV x.2 b.val
      fillTile t (row x.1) ((List.range 64).map fun i => part 32 v.1 i) v.2) ∧
    Performs (.mxLd t a bf q) (direct t 2 q fun p =>
      let x := readA p a.val
      let base := x.1.toNat
      localRange base (if bf = true then 4096 else 8192) 256 (fun p =>
          let p' := needRows (touchRange p base (if bf = true then 4096 else 8192) false) base 4096
          let bs := spadReads p'.st (clusterOf p') base 4096
          let now := fillTile t 0 ((List.range (if bf = true then 2048 else 1024)).map fun i =>
            if bf = true then BitVec.ofNat 32 (f32F.write .rne (bf16F.read (fieldLe bs (2 * i) 2)))
            else BitVec.ofNat 32 (fieldLe bs (4 * i) 4)) p'
          if bf = true then now
          else modWork now fun c => { c with reads := c.reads ++ [⟨p'.is.old.lc + 1, base + 4096, 0, t.val⟩] }) x.2) ∧
    Performs (.mxTsr t sb q) (matrixUnit (predicated q fun p =>
      let v := readKts (holdUnit 1 p) t.val
      writeS v.2 sb.val 1 v.1)) ∧
    Performs (.mxAcp t add u q) (direct t 2 q fun p =>
      let p' := touchTile (if (vget {} (oldCtx p).tiles u.val).busy ≠ 0 then freezeOn p .matrix else p) u.val
      fillTile t 0 ((List.range 2048).map fun k =>
        let y := element (oldCtx p') u.val 0 k
        if add = true then BitVec.ofNat 32 (fAdd f32F .rne (element (oldCtx p') t.val 0 k).toNat y.toNat) else y) p')

namespace Sys2Proof.Claim

/-- Bytes mx.st writes (R218). -/
def storedBytes : StFmt → Nat
  | .f32 => 8192
  | .bf16 | .bf16planar => 4096
  | .t8 | .t6 | .t8planar => 2048
  | .t6planar => 1536

/-- Magnitude bits of a store's codes, none where they are not tapered. -/
def storedTaper : StFmt → Option Nat
  | .t8 | .t8planar => some 7
  | .t6 | .t6planar => some 5
  | .f32 | .bf16 | .bf16planar => none

/-- The code of an element (R33, R218): the FP32 bits, BF16 rounded to nearest even, or a tapered code that saturates, or 0
at the place of an outlier in OUT mode. -/
def storedCode (f : StFmt) (out : Bool) (e : Lane) : Nat :=
  match storedTaper f with
  | some w => (match toTapered w out (f32F.read e.toNat) with | .code c => c | .outlier => 0)
  | none => if f = .f32 then e.toNat else bf16F.write .rne (f32F.read e.toNat)

/-- The layouts of R218: bytes of a row-major code, lowest first, or planes in which plane j holds bit w − 1 − j of code
8 b + i at bit i of its byte b (R186). -/
def StoreLayout (f : StFmt) (codes : List Nat) (bs : List Byte) : Prop :=
  bs.length = storedBytes f ∧
  match f with
  | .f32 => ∀ k j, k < 2048 → j < 4 → bs.getD (4 * k + j) 0 = BitVec.ofNat 8 (codes.getD k 0 / 256 ^ j)
  | .bf16 => ∀ k j, k < 2048 → j < 2 → bs.getD (2 * k + j) 0 = BitVec.ofNat 8 (codes.getD k 0 / 256 ^ j)
  | .t8 | .t6 => ∀ k, k < 2048 → bs.getD k 0 = BitVec.ofNat 8 (codes.getD k 0)
  | .t8planar => ∀ j b i, j < 8 → b < 256 → i < 8 →
      (bs.getD (256 * j + b) 0).getLsbD i = (codes.getD (8 * b + i) 0).testBit (7 - j)
  | .t6planar => ∀ j b i, j < 6 → b < 256 → i < 8 →
      (bs.getD (256 * j + b) 0).getLsbD i = (codes.getD (8 * b + i) 0).testBit (5 - j)
  | .bf16planar => ∀ j b i, j < 16 → b < 256 → i < 8 →
      (bs.getD (256 * j + b) 0).getLsbD i = (codes.getD (8 * b + i) 0).testBit (15 - j)

/-- The outliers of an OUT-mode store, lowest element first (R36, R219). -/
def storeOutliers (f : StFmt) (out : Bool) (due base : Nat) (es : List Lane) : List Held :=
  match storedTaper f with
  | none => []
  | some w => if out = true then
      ((List.range 2048).filter fun k => decide (toTapered w true (f32F.read (es.getD k 0).toNat) = .outlier)).map fun k =>
        ⟨due, .app k (es.getD k 0) f.code base (w = 5), true⟩
    else []

/-- Bytes of a code of a group record (R220). -/
def codeBytes : MFmt → Nat
  | .t8 | .t6 => 1
  | .bf16 => 2

/-- The magnitude of a code for mx.cmp (R221): NaN above every number, −0 equal to +0; none stands for NaN. -/
def codeMag (f : MFmt) (c : Nat) : Option FVal :=
  let v := match f with
    | .t8 => taperedRead c 7
    | .t6 => taperedRead (c % 64) 5
    | .bf16 => bf16F.read c
  if v = .nan then none else some v

/-- Is the magnitude of one code below that of another? Codes of one format order as their magnitudes. -/
def magBelow (f : MFmt) (x y : Nat) : Prop :=
  match codeMag f x, codeMag f y with
  | some _, none => True
  | none, _ => False
  | some _, some _ => (match f with
    | .t8 => x % 128 < y % 128
    | .t6 => x % 32 < y % 32
    | .bf16 => x % 32768 < y % 32768)

/-- Are rows `i < j` of four the ones mx.cmp keeps (R221): the two of greatest magnitude, ties to the lower row? -/
def Keeps (f : MFmt) (w : Nat → Nat) (i j : Nat) : Prop :=
  i < j ∧ j < 4 ∧ ∀ k, k < 4 → k ≠ i → k ≠ j →
    ¬magBelow f (w i) (w k) ∧ ¬magBelow f (w j) (w k) ∧ (k < i → magBelow f (w k) (w i)) ∧ (k < j → magBelow f (w k) (w j))

/-- The group record of four dense rows (R220, R221): the kept values, each bit for bit but for bits 7:6 of t6, and the
index nibbles, two to a byte, the even column low. -/
def GroupRecord (f : MFmt) (dense rc : List Byte) : Prop :=
  let z := codeBytes f
  let code := fun p n => fieldLe dense (z * (128 * p + n)) z
  let kept := fun c => if f = .t6 then c % 64 else c
  rc.length = 256 * z + 64 ∧
  ∀ n, n < 128 → ∃ i j, Keeps f (fun p => code p n) i j ∧
    fieldLe rc (z * n) z = kept (code i n) ∧ fieldLe rc (z * (128 + n)) z = kept (code j n) ∧
    (rc.getD (256 * z + n / 2) 0).toNat / 16 ^ (n % 2) % 16 = 4 * j + i

end Sys2Proof.Claim

/-- R207, R217 to R219: mx.st reads its tile at issue; its bytes are performed four cycles later, the second half of an FP32
store five, with the appends of its outliers, and the tile's status eight. -/
def Sys2Proof.Claim.MatrixStoreResultsPart : Prop :=
  ∀ (t : TileNo) (out : Bool) (a : AReg) (f : StFmt) (q : QReg),
    ∃ bytes : List Lane → List Byte,
      (∀ es, es.length = 2048 → StoreLayout f (es.map (storedCode f out)) (bytes es)) ∧
      Performs (.mxSt t out a f q) (direct t 1 q fun p =>
        let x := readA p a.val
        let base := x.1.toNat
        localRange base (storedBytes f) 256 (fun p =>
          let p := touchRange p base (storedBytes f) true
          let p := if out = true then checkRing p 2048 else p
          let es := tileRun p t 0 2048
          let outs := storeOutliers f out (p.is.old.lc + 4) base es
          let p := modWork p fun c => { c with held := c.held ++
            ([⟨p.is.old.lc + 4, .bytes base ((bytes es).take 4096), true⟩] : List Held) ++ outs ++
            if f = .f32 then [⟨p.is.old.lc + 5, .bytes (base + 4096) ((bytes es).drop 4096), true⟩] else [] }
          statusOf t es outs.length p) x.2)

/-- R180, R188, R207, R220, R221: mx.cmp checks both alignments, then both ranges, reads four dense rows and writes their
group record two cycles later; with INC the address register steps by four rows one cycle later. -/
def Sys2Proof.Claim.MatrixCompressResultsPart : Prop :=
  ∀ (a : AReg) (inc : Bool) (b : SReg) (f : MFmt) (q : QReg),
    ∃ record : List Byte → List Byte,
      (∀ dense, dense.length = 512 * codeBytes f → GroupRecord f dense (record dense)) ∧
      Performs (.mxCmp a inc b f q) (matrixUnit (predicated q fun p =>
        let p := holdUnit 1 p
        let x := readA p a.val
        let y := readS x.2 b.val
        let src := x.1.toNat
        let dst := y.1.toNat
        let n := 512 * codeBytes f
        let k := 256 * codeBytes f + 64
        if src % 256 ≠ 0 then raise y.2 .localAlign x.1
        else if dst % 64 ≠ 0 then raise y.2 .localAlign y.1
        else localRange src n 1 (localRange dst k 1 fun p =>
          let p := touchRange (needRows (touchRange p src n false) src n) dst k true
          let p := modWork p fun c => { c with held := c.held ++
            [⟨p.is.old.lc + 2, .bytes dst (record (spadReads p.st (clusterOf p) src n)), true⟩] }
          if inc = true then writeA p a.val 1 (x.1 + BitVec.ofNat 64 n) else p) y.2))

/-- R180, R188, R203, R207, R215 to R221: the direct tile operations, tile stores and mx.cmp. -/
def Obligations.MatrixResults : Prop := MatrixDirectResultsPart ∧ MatrixStoreResultsPart ∧ MatrixCompressResultsPart

namespace Sys2Proof.Claim

/-! ### The arithmetic of the arrays (R32, R39 to R41, R213, R220, R226) -/

/-- Bits of a code of a matrix format (R32). -/
def codeBits : MFmt → Nat
  | .t8 => 8
  | .t6 => 6
  | .bf16 => 16

/-- Is `c` code `g` of a stored tile read at the planes `xs`: plane j holds bit W − 1 − j, the bits not read are 0? -/
def IsCode (f : MFmt) (xs : List (List Byte)) (g c : Nat) : Prop :=
  ∀ b, c.testBit b = (decide (b < codeBits f ∧ codeBits f ≤ xs.length + b) &&
    ((xs.getD (codeBits f - 1 - b) []).getD (g / 8) 0).getLsbD (g % 8))

/-- The value of an activation code read at `p` planes: a tapered −0 pattern is +0 below the full width, NaN at it. -/
def activation (f : MFmt) (p c : Nat) : FVal :=
  match f with
  | .bf16 => bf16F.read c
  | .t8 => if p < 8 ∧ c = 128 then .fin false 0 0 else taperedRead c 7
  | .t6 => if p < 6 ∧ c = 32 then .fin false 0 0 else taperedRead c 5

/-- The value of a weight at byte `o` of a lake's source. -/
def weightAt (f : MFmt) (bs : List Byte) (o : Nat) : FVal :=
  match f with
  | .t8 => taperedRead (fieldLe bs o 1) 7
  | .t6 => taperedRead (fieldLe bs o 1 % 64) 5
  | .bf16 => bf16F.read (fieldLe bs o 2)

/-- Is `v` product `q` of output element (i, n) of an operation on an array slot's weights (R213)? -/
def IsProduct (o : ArrayOp) (a : ArrSlot) (i n q : Nat) (v : FVal) : Prop :=
  let z := codeBytes a.fmt
  let rc := 256 * z + 64
  let k := if o.sp = true then
      4 * (q / 2) + (a.bytes.getD (q / 2 * rc + 256 * z + n / 2) 0).toNat / 2 ^ (4 * (n % 2) + 2 * (q % 2)) % 4
    else q
  let off := if o.sp = true then q / 2 * rc + z * (128 * (q % 2) + n) else z * (128 * q + n)
  let xs := if k < 128 then o.x0 else o.x1
  ∃ c, IsCode o.fmt xs (128 * i + k % 128) c ∧
    v = ((activation o.fmt xs.length c).mul (weightAt a.fmt a.bytes off)).scale o.scale

/-- A finite value as an integer times 2^e. -/
def weigh (e : Int) : FVal → Int
  | .fin s m f => (if s = true then -1 else 1) * ((m : Int) * 2 ^ (f - e).toNat)
  | .nan => 0
  | .inf _ => 0

/-- Is `r` the sum of a group of products as FP32 (R41 step 3)? -/
def IsGroupSum (ps : List FVal) (r : Nat) : Prop :=
  if .nan ∈ ps ∨ (.inf false ∈ ps ∧ .inf true ∈ ps) then r = 0x7FC00000
  else if .inf false ∈ ps then r = 0x7F800000
  else if .inf true ∈ ps then r = 0xFF800000
  else ∃ e : Int, (∀ s m f, .fin s m f ∈ ps → e ≤ f) ∧
    r = f32F.write .rne (FVal.ofInt ((ps.map (weigh e)).sum) e (ps.all isNegZero))

/-- Is `r` the new element of an operation's tile, from the old one (R41, R213)? -/
def IsArrayElement (o : ArrayOp) (a : ArrSlot) (old : Lane) (i n : Nat) (r : Lane) : Prop :=
  ∃ (ps : Nat → FVal) (g : Nat → Nat), (∀ q, q < 128 → IsProduct o a i n q (ps q)) ∧
    (∀ j, j < 4 → IsGroupSum ((List.range 32).map fun q => ps (32 * j + q)) (g j)) ∧
    r.toNat = (List.range 4).foldl (fun x j => fAdd f32F .rne x (g j)) (if o.z = true then 0x80000000 else old.toNat)

/-! ### Lakes -/

/-- A lake fault: its value holds the slot's generation, the cause and the slot (R248). -/
def lakeFault (code : Code) (l cause : Nat) (p : Perf) : Perf :=
  raise p code (BitVec.ofNat 64 ((lakeOf p l).gen.toNat * 2 ^ 32 + cause * 256 + l))

/-- An lk slot: it holds the M unit for one cycle where it is performed (R208). -/
def lakeUnit (q : QReg) (f : Perf → Perf) : Perf → Perf := matrixUnit (predicated q f)

/-- Hold the M unit one cycle. -/
def holdOne (p : Perf) : Perf := holdUnit 1 p

/-- An lk slot on a handle: current when its reserved bits are 0, its slot is bound and its generation the slot's
(R225). -/
def onHandle (a : SReg) (q : QReg) (f : Nat → Perf → Perf) : Perf → Perf := lakeUnit q fun p =>
  let h := readS p a.val
  let p := holdOne h.2
  let l := h.1.toNat % 16
  if h.1.toNat / 16 % 2 ^ 28 = 0 ∧ (lakeOf p l).bound = true ∧ h.1.toNat / 2 ^ 32 = (lakeOf p l).gen.toNat then f l p
  else lakeFault .lakeRevoked l 0x03 p

/-- The lake's array slot is given back, once no accepted operation uses it. -/
def leaveSlot (l : Nat) (p : Perf) : Perf := { p with st := dropArr p.st p.is.work p.is.m l }

/-- Change a lake slot of the member. -/
def setLake (l : Nat) (f : LakeSt → LakeSt) (p : Perf) : Perf := modWork p fun c => { c with lakes := vmod c.lakes l f }

/-- The lake is to be filled anew (R241): its faults are forgotten and its array slot is given back, which R230 leaves to the
model (log entry 10). -/
def refill (l : Nat) (p : Perf) : Perf :=
  setLake l (fun x => { x with fillErr := none, stale := false, fill := .filling, pend := true }) (leaveSlot l p)

/-- The lake is revoked (R243): its watch entry and its array slot are given back, and its generation rises. -/
def revoke (l : Nat) (p : Perf) : Perf :=
  let x := (getCtx p.is.work p.is.m).lakes[l]?.getD {}
  let p := if x.pinned = true then { p with st := { p.st with watch := mapSet none p.st.watch x.watch none } } else p
  let gone := fun (x : LakeSt) =>
    { x with
      bound := false, pinned := false, stale := false, fillErr := none, gen := x.gen + 1, fill := .none,
      pend := false, ext := false }
  setLake l gone (leaveSlot l p)

end Sys2Proof.Claim

/-- R32, R39 to R41, R209, R213: the last wall cycle of the operation at the head of a core's engine queue ends it:
ARRAY_OP_COMPLETE is that wall cycle of the cluster, in which the engine of each core advances once; the tile then holds, element by
element, the four group sums of its exact scaled products accumulated in order onto the old element, or onto −0 with Z; the operation
leaves the queue. -/
def Sys2Proof.Claim.ArrayOperationCompletesPart : Prop :=
  ∀ (s : State) (cl : Fin 40) (co : Fin 8) (o : ArrayOp) (rest : List ArrayOp) (g : Gang) (a : ArrSlot),
    (getCore s cl.val co.val).engine = o :: rest → o.wait = false → o.left ≤ 1 →
    findGang s o.gang = some g → o.member < g.members.length → o.tile < 16 →
    (vget {} (getCtx g o.member).tiles o.tile).present = true →
    o.x0.length ≤ codeBits o.fmt → o.x1.length ≤ codeBits o.fmt →
    vget none (getCore s cl.val co.val).arr o.aslot = some a →
    exec (.arrayOpComplete cl co .ok) s = .next (wallCycle { s with iss := none } cl.val) ∧
    ∃ g', (getCore (tickEngine cl.val s co.val) cl.val co.val).engine = rest ∧
      findGang (tickEngine cl.val s co.val) o.gang = some g' ∧
      ∀ i n, i < 16 → n < 128 →
        IsArrayElement o a (element (getCtx g o.member) o.tile i n) i n (element (getCtx g' o.member) o.tile i n)

/-- R208, R211, R212, R230, R231: mx.mma and mx.mms hold the M unit for four cycles a plane, and four more a reissue; a
repeat of mx.mms is a violation. An operation that passes every check, its lake filled, its blocks present, a place free,
joins its core's engine with the planes read, its scale, and its lake's weights. -/
def Sys2Proof.Claim.ArrayOperationIssuePart : Prop :=
  (∀ (t : TileNo) (z sp : Bool) (a : AReg) (l : LakeNo) (f : MFmt) (pl : Fin 8),
    Performs (if sp = true then .mxMms t z a l f pl else .mxMma t z a l f pl) (matrixUnit (unpredicated fun p =>
      let n := p.is.rep
      let x := readA p a.val
      let e := x.2.is.scale.getD (0, 0)
      let hold := 4 * planesRead pl
      if sp = true ∧ n ≠ 0 then violate x.2
      else
        let p := mmaStart x.2 t.val z sp f pl l.val x.1.toNat 0 e.1.val e.2.val
        let p := holdUnit ((n + 1) * hold) p
        if n = 0 then p
        else
          let again : Repeat :=
            { remaining := n, k := 1, tile := t.val, lake := l.val, z := z, sp := sp, fmt := f, pl := pl, eA := e.1,
              eB := e.2, areg := a, base := x.1, dop := hold, due := p.is.old.lc + hold }
          modWork p fun c => { c with rep := some again }))) ∧
  ∀ (p : Perf) (t : Nat) (z sp : Bool) (f : MFmt) (pl : Fin 8) (l base k eA eB i : Nat),
    let addr := fun h j => base + h * (256 * codeBits f) + 256 * j
    let planes := (List.range (planesRead pl)).map (addr 0)
    let second := if sp = true then (List.range (planesRead pl)).map (addr 1) else []
    let touched := touchPlanes (touchTile p t) (planes ++ second)
    let scaled := (readE (readE touched eA).2 eB).2
    let ready := rowPlanes scaled planes
    let core := getCore scaled.st (clusterOf scaled) (oldCtx scaled).core
    base % 256 = 0 → (∀ b ∈ planes ++ second, inAlloc p.is.old b 256 = true) → lakeReady p l sp = true →
    core.engine.length < 8 → arraySlot core p.is.old.id p.is.m l = some i →
    mmaStart p t z sp f pl l base k eA eB = acceptOp ready
      { gang := p.is.old.id, member := p.is.m, tile := t, lake := l, z := z, sp := sp, fmt := f, pl := pl,
        x0 := planes.map fun b => spadReads ready.st (clusterOf ready) b 256, x1 := [],
        scale := (readE ready eA).1.toInt + (readE ready eB).1.toInt, reissue := k, aslot := i, wait := sp,
        left := 4 * planesRead pl }
      (base + 256 * codeBits f)

/-- R225, R226, R235, R241 to R245, R248: the lk operations. That lk.load gives the array slot back at issue is the model's
choice (log entry 10). -/
def Sys2Proof.Claim.LakeSlotResultsPart : Prop :=
  ∀ (d a b : SReg) (f : MFmt) (sp : Bool) (q : QReg),
    Performs (.lkAlloc d a b f sp q) (lakeUnit q fun p =>
      let src := readS p a.val
      let n := readS src.2 b.val
      let p := n.2
      let l := n.1.toNat % 16
      let len := if sp = true then 64 * (256 * codeBytes f + 64) else 16384 * codeBytes f
      if n.1.toNat / 16 ≠ 0 then lakeFault .lakeOperand l 0x11 p
      else if (lakeOf p l).bound = true then lakeFault .lakeOperand l 0x10 p
      else if src.1.toNat % 256 ≠ 0 ∨ 2 ^ 56 < src.1.toNat + len then lakeFault .lakeOperand l 0x12 p
      else
        let gen := (lakeOf p l).gen + 1
        let fresh := fun (x : LakeSt) =>
          { x with
            gen := gen, bound := true, src := src.1.toNat, fmt := f, sparse := sp, pinned := false, stale := false,
            fillErr := none, fill := .none, pend := false, ext := false }
        writeS (holdOne (setLake l fresh p))
          d.val 1 (gen ++ (0 : BitVec 28) ++ BitVec.ofNat 4 l : BitVec 64)) ∧
    Performs (.lkLoad a q) (onHandle a q refill) ∧
    Performs (.lkPin a q) (onHandle a q pinLake) ∧
    Performs (.lkUnpin a q) (onHandle a q unpinLake) ∧
    Performs (.lkSclr a q) (onHandle a q fun l => setLake l fun x => { x with stale := false }) ∧
    Performs (.lkRevk a q) (onHandle a q revoke) ∧
    Performs (.lkQry d a q) (lakeUnit q fun p =>
      let h := readS p a.val
      let p := holdOne h.2
      let x := lakeOf p (h.1.toNat % 16)
      let bit := fun (c : Bool) => (if c = true then 1 else 0 : BitVec 1)
      writeS p d.val 1 (if x.bound = true then
        (x.gen ++ (0 : BitVec 22) ++ bit (decide (x.inuse ≠ 0)) ++ bit x.fillErr.isSome ++ bit x.sparse ++
          BitVec.ofNat 2 x.fmt.code ++ bit x.stale ++ bit x.pinned ++
          (match x.fill with | .none => (0 : BitVec 2) | .filling => 1 | .filled => 2) ++ (1 : BitVec 1) : BitVec 64)
        else (x.gen ++ (0 : BitVec 32) : BitVec 64))) ∧
    Performs (.lkQuota a b q) (lakeUnit q fun p =>
      if privileged p = false then raise p .privilege 0
      else
        let t := readS p a.val
        let n := readS t.2 b.val
        if t.1.toNat / 2 ^ 12 ≠ 0 then lakeFault .lakeOperand 0 0x11 n.2
        else
          let p := holdOne n.2
          { p with st := { p.st with quota := mapSet 16 p.st.quota t.1.toNat (min n.1.toNat 16) } })

/-- R227, R228, R232, R235, R242: what a pin, an unpin and the events of a fill do. A pin counts against the tenant's limit
on its core, then takes the lowest free watch entry over the translated source; a fill claims an array slot once no
operation uses the lake, and ends with the source as it stands, or with its fault noted. That the walk of the source ends at the
pin's issue is the model's choice (log entry 101). -/
def Sys2Proof.Claim.LakePinAndFillPart : Prop :=
  (∀ (l : Nat) (p : Perf), (lakeOf p l).pinned = true → pinLake l p = { p with st := releaseResumed p.st } ∧
    unpinLake l p = setLake l (fun x => { x with pinned := false })
      { p with st := { p.st with watch := mapSet none p.st.watch (lakeOf p l).watch none } }) ∧
  (∀ (l : Nat) (p : Perf), l < 16 → (lakeOf p l).pinned = false → unpinLake l p = p) ∧
  (∀ (l : Nat) (p : Perf), l < 16 → (lakeOf p l).pinned = false → releaseResumed p.st = p.st →
    let core := coreKey p.is.old.cluster (oldCtx p).core
    let len := lakeLen (lakeOf p l).fmt (lakeOf p l).sparse
    (mapGet 16 p.st.quota p.is.old.tenant < pinCount p.st p.is.old.tenant core + 1 →
      pinLake l p = lakeFault .lakeQuota l 0x20 p) ∧
    (pinCount p.st p.is.old.tenant core + 1 ≤ mapGet 16 p.st.quota p.is.old.tenant →
      (freeWatch p.st = none → pinLake l p = lakeFault .lakeQuota l 0x21 p) ∧
      ∀ i, freeWatch p.st = some i →
        (∀ e, xlatRange p.st p.is.old.launch.xdesc (lakeOf p l).src len false = .error e →
          pinLake l p = lakeFault .lakeSource l 0x30 p) ∧
        (∀ rs, xlatRange p.st p.is.old.launch.xdesc (lakeOf p l).src len false = .ok rs →
          let entry : Watch :=
            ⟨rs, ((lakeOf p l).src, len), p.is.old.tenant, core, p.is.old.id, p.is.m, l, none, false⟩
          pinLake l p = setLake l (fun x => { x with pinned := true, watch := i, wdev := p.st.devId })
            { p with st := { p.st with watch := mapSet none p.st.watch i (some entry) } }))) ∧
  ∀ (s : State) (w : Word) (m : Fin 8) (l : Fin 16) (g : Gang), findGang s w.toNat = some g → g.killed = none →
    let x := vget {} (getCtx g m.val).lakes l.val
    let co := (getCtx g m.val).core
    let mark := fun (t : State) (f : LakeSt → LakeSt) =>
      modCtxOf t g.id m.val fun c => { c with lakes := vmod c.lakes l.val f }
    (∀ i, x.bound = true → x.pend = true → x.fill = .filling → x.inuse = 0 → fillSlot s g co = some i →
      exec (.lakeFillStart w m l) s = .next (mark
        (let t := evictArr s g.cluster co i
         let slot : ArrSlot := ⟨g.id, m.val, l.val, x.gen, x.src, x.fmt, x.sparse, [], 0, false, false⟩
         setCore t g.cluster co { getCore t g.cluster co with arr := vset (getCore t g.cluster co).arr i (some slot) })
        fun y => { y with pend := false })) ∧
    (∀ bs, x.bound = true → x.pend = false → x.fill = .filling →
      farRead s g.launch.xdesc x.src (lakeLen x.fmt x.sparse) = .ok bs → s.bad = [] →
      let t := fillRaces s g m.val x
      exec (.lakeFillComplete w m l .ok) s = .next (mark
        (setCore t g.cluster co { getCore t g.cluster co with arr := (getCore t g.cluster co).arr.map (fillArr g.id m.val l.val bs) })
        fun y => { y with fill := .filled }))

/-- R225 to R228, R232, R235, R241 to R245, R248: the lk slots: allocation, loading, pinning and its fill, revoking,
quotas and queries. That lk.load gives the array slot back at issue (log entry 10) and that the walk of a pinned
source ends at issue (log entry 101) are the model's choices. -/
def Obligations.LakeResults : Prop := LakeSlotResultsPart ∧ LakePinAndFillPart

/-- R40, R247: sc.use names the scales of its bundle's operation, wherever it stands in the bundle; sc.ld and sc.ldm load
scale registers, which take their values three cycles later. -/
def Sys2Proof.Claim.ScaleResultsPart : Prop :=
  ∀ (d e1 e2 : EReg) (a : AReg) (b : SReg) (q : QReg),
    Performs (.scUse e1 e2 q) (predicated q fun p =>
      let x := readE p e1.val
      let y := readE x.2 e2.val
      let p : Perf := { y.2 with is := { y.2.is with scale := some (e1, e2) } }
      if p.is.mma = true then
        let k := getCore p.st (clusterOf p) (oldCtx p).core
        let k := { k with engine := scaleLast p.is.old.id p.is.m (x.1.toInt + y.1.toInt) k.engine }
        modWork { p with st := setCore p.st (clusterOf p) (oldCtx p).core k } fun c =>
          { c with rep := if c.rep = (oldCtx p).rep then c.rep else c.rep.map fun r => { r with eA := e1, eB := e2 } }
      else p) ∧
    Performs (.scLd d a b q) (predicated q fun p =>
      let x := readA p a.val
      let y := readS x.2 b.val
      let ea := (x.1.toNat + y.1.toNat) % 2 ^ 64
      localAccess ea 1 (fun p =>
        let p' := accessLocal p ea 1 false true 0
        writeE p' d.val 3 (memRead (getCluster p'.st p'.is.old.cluster).spad ea)) y.2) ∧
    Performs (.scLdm a b q) (predicated q fun p =>
      let x := readA p a.val
      let y := readS x.2 b.val
      let ea := (x.1.toNat + y.1.toNat) % 2 ^ 64
      localAccess ea 8 (fun p =>
        let p' := accessLocal p ea 8 false true 0
        ([1, 2, 3, 4, 5, 6, 7] : List Nat).foldl (fun r j =>
          writeE r j 3 (memRead (getCluster p'.st p'.is.old.cluster).spad (ea + j))) p') y.2)

/-- R32, R39 to R41, R208, R209, R211 to R213, R230, R231, R247: issuing an array operation, its completion, and the scale
registers it uses. -/
def Obligations.ArrayOperationResults : Prop := ArrayOperationCompletesPart ∧ ArrayOperationIssuePart ∧ ScaleResultsPart

namespace Sys2Proof.Claim

/-- Bits `hi` down to `lo` of a word, as a number. -/
def field (x : Word) (hi lo : Nat) : Nat := x.toNat / 2 ^ lo % 2 ^ (hi + 1 - lo)

/-- The channel of the member as the bundle sees it. -/
def channel (p : Perf) (ch : Chan) : ChanSt := vget {} (oldCtx p).chans ch.val

/-- A programming slot waits, frozen, while its channel is not IDLE (R259). -/
def onIdle (ch : Chan) (q : QReg) (f : Perf → Perf) : Perf → Perf := predicated q fun p =>
  if (channel p ch).state = .idle then f p else freezeOn p .watermark

/-- COPY_PROGRAM, whose trap value is the channel (R339). -/
def badProgram (ch : Nat) (p : Perf) : Perf := raise p .copyProgram (BitVec.ofNat 64 ch)

/-- Change a channel of the member. -/
def setChannel (ch : Chan) (f : ChanSt → ChanSt) (p : Perf) : Perf :=
  modWork p fun c => { c with chans := vmod c.chans ch.val f }

/-- The lowest and the highest destination byte of a transfer (R257). -/
def lowest (c : ChanSt) : Int := c.levels.toList.foldl (fun x l => x + min 0 (((l.count : Int) - 1) * l.dstr)) (c.dbase.toNat : Int)
/-- The end of the destination bytes. -/
def highest (c : ChanSt) : Int :=
  c.levels.toList.foldl (fun x l => x + max 0 (((l.count : Int) - 1) * l.dstr)) (c.dbase.toNat : Int) + c.size

/-- Are the bytes of a range all inside the gang's allocation? -/
def within (p : Perf) (lo hi : Int) : Prop :=
  (p.is.old.task.spadBase : Int) ≤ lo ∧ hi ≤ (p.is.old.task.spadBase : Int) + p.is.old.task.spadSize


end Sys2Proof.Claim

/-- R252, R259, R260: the programming slots. A level word names its level, count, coordinate and step, and the two scalar
registers its strides; a coordinate word names its coordinate and extent, with its origin and the channel's fill; the bases
name their space. A word out of range raises COPY_PROGRAM. -/
def Sys2Proof.Claim.CopyProgramResultsPart : Prop :=
  ∀ (d a b : SReg) (ch : Chan) (far : Bool) (q : QReg),
    Performs (.cpLvl d a b ch q) (onIdle ch q fun p =>
      let x := readS p a.val
      let y := readS x.2 b.val
      let w := readS y.2 d.val
      let n := field w.1 20 0
      if field w.1 39 39 = 0 ∧ field w.1 38 36 ≠ 6 ∧ field w.1 35 35 = 0 ∧ field w.1 34 32 < 6 ∧ field w.1 31 21 = 0 ∧
          1 ≤ n ∧ n ≤ 2 ^ 20 then
        let l : ChLevel := ⟨n, field w.1 38 36, (w.1.extractLsb' 40 24).toInt, x.1.toInt, y.1.toInt⟩
        setChannel ch (fun c => { c with levels := vset c.levels (field w.1 34 32) l }) w.2
      else badProgram ch.val w.2) ∧
    Performs (.cpBnd d a b ch q) (onIdle ch q fun p =>
      let x := readS p a.val
      let y := readS x.2 b.val
      let w := readS y.2 d.val
      if field w.1 63 53 = 0 ∧ field w.1 52 32 ≤ 2 ^ 20 ∧ field w.1 31 3 = 0 ∧ field w.1 2 0 < 6 ∧
          -2 ^ 31 ≤ x.1.toInt ∧ x.1.toInt ≤ 2 ^ 31 - 1 then
        setChannel ch (fun c => { c with
          coords := vset c.coords (field w.1 2 0) ⟨x.1.toInt, field w.1 52 32⟩
          fill := y.1 }) w.2
      else badProgram ch.val w.2) ∧
    Performs (.cpSrc a ch far q) (onIdle ch q fun p =>
      let x := readS p a.val
      setChannel ch (fun c => { c with sbase := x.1, sfar := far }) x.2) ∧
    Performs (.cpDst a ch far q) (onIdle ch q fun p =>
      let x := readS p a.val
      setChannel ch (fun c => { c with dbase := x.1, dfar := far }) x.2)

/-- R257, R261, R266: cp.go checks its go word, the alignment of its strides, its destination, its completion word and, in
decrypt mode, the requirements of R266, in that order; a transfer that passes is RUNNING from its lowest chunk start and
stands last in the order of its core's channel. -/
def Sys2Proof.Claim.CopyStartResultsPart : Prop :=
  ∀ (a b : SReg) (ch : Chan) (dec : Bool) (q : QReg),
    Performs (.cpGo a b ch dec q) (onIdle ch q fun p =>
      let w := readS p a.val
      let cw := readS w.2 b.val
      let p := cw.2
      let c : ChanSt := { channel p ch with
        size := field w.1 12 0, irq := w.1.getLsbD 16, cwfar := w.1.getLsbD 17, cw := cw.1.toNat, dec := dec }
      let inside := fun (lo hi : Int) =>
        decide ((p.is.old.task.spadBase : Int) ≤ lo) && decide (hi ≤ (p.is.old.task.spadBase : Int) + p.is.old.task.spadSize)
      if ¬(field w.1 63 18 = 0 ∧ field w.1 15 13 = 0 ∧ 8 ≤ c.size ∧ c.size ≤ 4096 ∧ c.size % 8 = 0) then badProgram ch.val p
      else if ¬(c.sbase.toNat % 8 = 0 ∧ c.dbase.toNat % 8 = 0 ∧
          (c.levels.toList.all fun l => decide (l.count ≤ 1 ∨ (l.sstr % 8 = 0 ∧ l.dstr % 8 = 0))) = true) then badProgram ch.val p
      else if c.dfar = false ∧ inside (lowest c) (highest c) = false then raise p .localBounds (BitVec.ofInt 64 (lowest c))
      else if c.dfar = true ∧ (lowest c < 0 ∨ 2 ^ 56 < highest c) then badProgram ch.val p
      else if c.cw % 8 ≠ 0 then badProgram ch.val p
      else if c.cw ≠ 0 ∧ c.cwfar = false ∧ inside c.cw (c.cw + 8) = false then raise p .localBounds cw.1
      else if dec = true ∧ ¬(p.is.old.conf = true ∧ c.sfar = true ∧ c.dfar = true ∧ c.size = 4096 ∧
          c.dbase.toNat % 4096 = 0 ∧ (c.levels.toList.all fun l => decide (l.dstr % 4096 = 0)) = true ∧
          (c.coords.toList.all fun x => decide (x.ext = 0)) = true) then
        badProgram ch.val p
      else
        let c := { c with
          state := .running, index := Vector.replicate 6 0, offset := 0, wmk := (lowest c).toNat, begun := false
          ival := (oldCtx p).interval }
        let p := setChannel ch (fun _ => c) p
        let k := getCore p.st (clusterOf p) (oldCtx p).core
        let k := { k with chq := vmod k.chq ch.val fun l => l ++ [(p.is.old.id, p.is.m)] }
        { p with st := setCore p.st (clusterOf p) (oldCtx p).core k })

/-- R194, R195, R263, R264, R433, R434: the status of a channel, a cancel, a replay, which needs service privilege, the
broadcast bus, whose second cp.bput of a gang in one cycle is a violation, and the start and the status of a re-sharding
plan. -/
def Sys2Proof.Claim.CopyControlResultsPart : Prop :=
  ∀ (d a : SReg) (ch : Chan) (q : QReg),
    Performs (.cpWmk d ch q) (predicated q fun p =>
      let c := channel p ch
      writeS p d.val 1 (BitVec.ofNat 64 ((match c.state with | .idle => 0 | .running => 1 | .suspended => 2) * 2 ^ 62 +
        c.wmk % 2 ^ 56))) ∧
    Performs (.cpCncl ch q) (predicated q fun p =>
      if (channel p ch).state = .idle then p
      else
        let co := (oldCtx p).core
        let k := getCore p.st (clusterOf p) co
        let k := { k with chq := vmod k.chq ch.val fun l => l.filter fun e => e != (p.is.old.id, p.is.m) }
        setChannel ch (fun c => { c with state := .idle, wmk := 0, begun := false })
          { p with st := setCore p.st (clusterOf p) co k }) ∧
    Performs (.cpRpl a q) (predicated q fun p =>
      if privileged p = false then raise p .privilege 0
      else
        let x := readS p a.val
        let p := x.2
        let n := field x.1 1 0
        let co := field x.1 6 4
        if field x.1 63 7 ≠ 0 then badProgram n p
        else
          match gangAt p.st (clusterOf p) co (field x.1 3 2) with
          | none => p
          | some (g, m) =>
            if g.id = p.is.old.id then
              (if (vget {} (getCtx p.is.work m).chans n).state = .suspended then
                let k := getCore p.st (clusterOf p) co
                let work := modCtx p.is.work m fun c => { c with
                  chans := vmod c.chans n fun x => { x with state := .running, begun := false } }
                { st := setCore p.st (clusterOf p) co { k with chq := vmod k.chq n fun l => l ++ [(g.id, m)] }
                  is := { p.is with work := work } }
              else p)
            else { p with st := replayAt p.st (clusterOf p) co (field x.1 3 2) n }) ∧
    Performs (.cpBput a q) (predicated q fun p =>
      let x := readS p a.val
      localAccess x.1.toNat 256 (fun p =>
        let p' := accessLocal p x.1.toNat 256 false false 1
        let p' := { p' with is := { p'.is with rows := p'.is.rows ++ [(64, p'.is.old.id)] } }
        if p'.is.bput.isSome = true then violate p'
        else { p' with is := { p'.is with
          bput := some (spadReads p'.st (clusterOf p') x.1.toNat 256) } }) x.2) ∧
    Performs (.cpBlat a q) (predicated q fun p =>
      let x := readS p a.val
      localAccess x.1.toNat 256 (fun p =>
        let p' := accessLocal p x.1.toNat 256 true false 1
        addOp p' (.latch x.1.toNat p'.is.m p'.is.slot (entryOf p'.st p'.is.old p'.is.m 7 false))) x.2) ∧
    Performs (.rsGo a q) (predicated q fun p =>
      let x := readS p a.val
      let p := x.2
      let g := p.is.old
      if x.1.toNat % 256 ≠ 0 then raise p .farAlign x.1
      else if ownPlan p.st g.id p.is.m = true ∨
          ((rsStatOf p.st g.id p.is.m).any fun r => decide (r.state = 1 ∨ r.state = 2)) = true then
        let r := (rsStatOf p.st g.id p.is.m).getD ⟨g.id, p.is.m, p.is.old.lc, 0, 0, 0, true⟩
        { p with st := setRsStat p.st { r with state := 6, cause := 0x32, steps := 0, refused := true } }
      else
        let start : PlanStart := ⟨g.id, p.is.m, x.1.toNat, g.launch.xdesc, g.tenant, (oldCtx p).interval,
          entryOf p.st g p.is.m 7 false, cfgFar (oldCtx p)⟩
        let st := setRsStat p.st ⟨g.id, p.is.m, p.is.old.lc, 1, 0, 0, false⟩
        modWork { p with st := { st with starts := st.starts ++ [start] } } fun c => { c with rsArea := x.1.toNat }) ∧
    Performs (.rsStat d q) (predicated q fun p =>
      writeS p d.val 1 (match rsStatOf p.st p.is.old.id p.is.m with
        | none => 0
        | some r => BitVec.ofNat 64 (r.state % 8 * 2 ^ 61 + r.cause % 256 * 2 ^ 48 + r.steps % 2 ^ 48)))

/-- R194, R195, R252, R257, R259 to R261, R263, R264, R266, R433, R434: the cp slots: programs, starts, watermarks,
cancelling and replay. -/
def Obligations.CopySlotResults : Prop := CopyProgramResultsPart ∧ CopyStartResultsPart ∧ CopyControlResultsPart

namespace Sys2Proof.Claim

/-- The member's FIFO pair of a port (R394). -/
def portFifo (p : Perf) (port : Port) : Fifo := vget {} (oldCtx p).fifos port.val

/-- Change the member's FIFO pair of a port. -/
def setFifo (port : Port) (f : Fifo → Fifo) (p : Perf) : Perf :=
  modWork p fun c => { c with fifos := vmod c.fifos port.val f }

/-- A read of an inbox word whose parity fails raises REGISTER_PARITY (R136). -/
def fifoParity (port : Port) (p : Perf) : Perf :=
  match p.is.par with
  | some b => if b.file = none ∧ b.num = port.val then raise p .registerParity b.tval else p
  | none => p

/-- FABRIC_PROTOCOL, whose trap value is the port (R415). -/
def badProtocol (port : Port) (p : Perf) : Perf := raise p .fabricProtocol (BitVec.ofNat 64 port.val)

/-- A slot that may not stand in an open message (R397). -/
def noOpenMessage (port : Port) (q : QReg) (f : Perf → Perf) : Perf → Perf := predicated q fun p =>
  if (portFifo p port).openLen = 0 then f p else badProtocol port p

/-- Every rule of R395 for an access of `w` words at a remote address. -/
def RemoteOk (x : Word) (w : Nat) : Prop :=
  field x 63 63 = 0 ∧ x.toNat % 8 = 0 ∧ x.toNat % 4096 + 8 * w ≤ 4096 ∧
  (field x 47 47 = 1 → field x 46 46 = 0 ∧ field x 45 40 < 40 ∧ field x 39 23 = 0)

/-- A remote operation of `w` words on a port (R394, R395): REMOTE_ADDRESS, then a freeze while either FIFO lacks the room;
then the packet is made, numbered for its target, its words held and its reply words reserved. -/
def Remote (port : Port) (x : Word) (w ob ib : Nat) (f : Perf → Perf) (p r : Perf) : Prop :=
  (¬RemoteOk x w → r = raise p .remoteAddress x) ∧
  (RemoteOk x w →
    (64 < (portFifo p port).ob.length + (portFifo p port).obBusy + ob ∨
      64 < (portFifo p port).ib.length + (portFifo p port).resv + ib → r = freezeOn p .fifo) ∧
    (¬(64 < (portFifo p port).ob.length + (portFifo p port).obBusy + ob ∨
      64 < (portFifo p port).ib.length + (portFifo p port).resv + ib) → r = f p))

/-- Words of a vector register: word j is lanes 2 j and 2 j + 1 (R400). -/
def wordsOf (v : Vec) (n : Nat) : List Word := (List.range n).map fun j => (part 32 v (2 * j + 1) ++ part 32 v (2 * j) : BitVec 64)

end Sys2Proof.Claim

/-- R394, R395, R397, R400 to R402, R404: the remote store, load, atomic and drain marker: what each checks, holds and
reserves, and the packet it makes. -/
def Sys2Proof.Claim.RemoteSlotResultsPart : Prop :=
  ∀ (port : Port) (a : AReg) (b : Fin 32) (sr : SReg) (z : Fin 7) (y : Fin 6) (op : FxOp) (q : QReg),
    (∃ f : Perf → Perf, (∀ p, let x := readA p a.val
        let n := if z.val = 6 then 1 else 2 ^ z.val
        Remote port x.1 n (1 + n) 0 (fun p =>
          let ws := if z.val = 6 then ([(readS p b.val).1], (readS p b.val).2)
            else (wordsOf (readV p b.val).1 n, (readV p b.val).2)
          releaseWrite (sendRemote ws.2 port (field x.1 62 48) .store x.1 ws.1 n 0 (1 + n))) x.2 (f p)) ∧
      Performs (.fxSt port a b z q) (noOpenMessage port q f)) ∧
    (∃ f : Perf → Perf, (∀ p, let x := readA p a.val
        let n := 2 ^ y.val
        Remote port x.1 n 1 n (fun p => sendRemote p port (field x.1 62 48) .load x.1 [] 0 n 1) x.2 (f p)) ∧
      Performs (.fxLd port a y q) (noOpenMessage port q f)) ∧
    (∃ f : Perf → Perf, (∀ p, let x := readA p a.val
        Remote port x.1 1 (if op = .cas then 3 else 2) 1 (fun p =>
          let v := readS p sr.val
          let w := readS v.2 (sr.val + 1)
          let ws := if op = .cas then [v.1, w.1] else [v.1]
          releaseWrite (sendRemote (if op = .cas then w.2 else v.2) port (field x.1 62 48) (.atomic op) x.1 ws ws.length 1
            (1 + ws.length))) x.2 (f p)) ∧
      Performs (.fxAt port a sr op q) (noOpenMessage port q f)) ∧
    Performs (.fxMark port sr q) (noOpenMessage port q fun p =>
      if 64 ≤ (portFifo p port).ib.length + (portFifo p port).resv then freezeOn p .fifo
      else
        let t := readS p sr.val
        sendRemote t.2 port (if port.val = 31 then t.2.st.devId else (mapGet {} t.2.st.links port.val).peer) .mark t.1 [] 0 1 0)

namespace Sys2Proof.Claim

/-- R403, R395: what fx.rep does with the device list at `ea` whose first word is `h`, its bytes read: reserved bits, then an
entry with its reserved bit set, then a destination that breaks a rule of R395 raise REMOTE_ADDRESS, with what is at fault as
their value (the model's choice, log entry 23); then it waits for the words of the port, and one store goes to each destination
in list order. -/
def RepSent (port : Port) (v : VReg) (w ea : Nat) (h : Word) (p r : Perf) : Prop :=
  let n := field h 53 48 + 1
  let dev := fun i => spadNumber p (ea + 8 + 2 * i) 2
  let dest := fun i => BitVec.ofNat 64 (dev i * 2 ^ 48 + field h 47 0)
  let room := (portFifo p port).ob.length + (portFifo p port).obBusy + (1 + w)
  (field h 63 54 ≠ 0 → r = raise p .remoteAddress h) ∧
  (field h 63 54 = 0 →
    (∀ i, i < n → 2 ^ 15 ≤ dev i → (∀ j, j < i → dev j < 2 ^ 15) → r = raise p .remoteAddress (BitVec.ofNat 64 (dev i))) ∧
    ((∀ i, i < n → dev i < 2 ^ 15) →
      (∀ i, i < n → ¬RemoteOk (dest i) w → (∀ j, j < i → RemoteOk (dest j) w) → r = raise p .remoteAddress (dest i)) ∧
      ((∀ i, i < n → RemoteOk (dest i) w) →
        (64 < room → r = freezeOn p .fifo) ∧
        (room ≤ 64 → r = releaseWrite (sendEach port (wordsOf (readV p v.val).1 w)
          ((List.range n).map fun i => (dest i).toNat) (readV p v.val).2)))))

end Sys2Proof.Claim

/-- R394, R396 to R399, R403, R405, R406: messages: the header, checked and then held, its data words, and the packet the
last of them completes; the pop of a data word, of a failure word, which is counted, and of an abort word, which traps; the
replicated store; and the status of a link, which port 31 gives as UP with this device at its far end and, for its ALLOW, a free
value (the model's choice, log entry 51). -/
def Sys2Proof.Claim.MessageSlotResultsPart : Prop :=
  ∀ (port : Port) (a : AReg) (v : VReg) (sr : SReg) (y : Fin 6) (q : QReg),
    Performs (.fxMsg port sr q) (noOpenMessage port q fun p =>
      let h := readS p sr.val
      let g := field h.1 30 28
      let n := field h.1 5 0
      if ¬(field h.1 63 63 = 0 ∧ field h.1 47 42 < 40 ∧ field h.1 36 31 < 48 ∧
          (g = 7 ∨ (g < 4 ∧ g < h.2.is.old.task.groups.length)) ∧ field h.1 7 6 = 0 ∧ n ≤ 32) then
        raise h.2 .remoteAddress h.1
      else if 64 ≤ (portFifo h.2 port).ob.length + (portFifo h.2 port).obBusy then freezeOn h.2 .fifo
      else if n = 0 then sendMessage h.2 port h.1 []
      else setFifo port (fun f => { f with ob := [h.1], openLen := n }) h.2) ∧
    Performs (.fxPush port sr q) (predicated q fun p =>
      let f := portFifo p port
      if f.openLen = 0 then badProtocol port p
      else if 64 ≤ f.ob.length + f.obBusy then freezeOn p .fifo
      else
        let w := readS p sr.val
        if f.openLen = 1 then sendMessage w.2 port (f.ob.headD 0) (f.ob.drop 1 ++ [w.1])
        else setFifo port (fun f => { f with ob := f.ob ++ [w.1], openLen := f.openLen - 1 }) w.2) ∧
    Performs (.fxPop port sr q) (noOpenMessage port q fun p =>
      match (portFifo p port).ib with
      | [] => freezeOn p .fifo
      | .abort g :: _ => raise p .collectiveAborted (BitVec.ofNat 64 g)
      | .fail :: r => writeS (modWork (setFifo port (fun f => { f with ib := r }) p) fun c =>
          if field c.kfst 63 48 = 65535 then c else { c with kfst := c.kfst + BitVec.ofNat 64 (2 ^ 48) }) sr.val 1 0
      | .data w :: r => writeS (setFifo port (fun f => { f with ib := r }) (fifoParity port p)) sr.val 1 w) ∧
    (∃ send : Nat → Word → Perf → Perf,
      (∀ (ea : Nat) (h : Word) (p : Perf), RepSent port v (2 ^ y.val) ea h p (send ea h p)) ∧
      Performs (.fxRep port a v y q) (noOpenMessage port q fun p =>
        let x := readA p a.val
        let ea := x.1.toNat
        localRange ea 8 8 (fun p =>
          let h : Word := BitVec.ofNat 64 (spadNumber p ea 8)
          let n := field h 53 48 + 1
          let first := checkWatermark (touchSpad p ea 8) ea 8
          if p.is.freezes.length < first.is.freezes.length then first
          else localRange ea (8 + 2 * n) 8 (fun p => send ea h (accessLocal p ea (8 + 2 * n) false false 0)) p) x.2)) ∧
    Performs (.fxLst port sr q) (predicated q fun p =>
      if port.val = 31 then
        let v := freeWord p
        writeS v.2 sr.val 1 (BitVec.ofNat 64 (v.2.st.devId % 32768 * 2 ^ 48 + 31 * 2 ^ 42 + 2 * 2 ^ 32 + v.1.toNat % 65536))
      else
        let l := mapGet {} p.st.links port.val
        let code := match l.st with | .down => 0 | .training => 1 | .up => 2 | .dark => 3 | .fenced => 4
        let far := if l.st = .down then 0 else l.peer % 32768 * 2 ^ 48 + l.peerPort % 64 * 2 ^ 42
        writeS p sr.val 1 (BitVec.ofNat 64 (far + code * 2 ^ 32 + l.epoch % 65536 * 2 ^ 16 + l.allowReq % 65536))) ∧
    Performs (.fxDrn sr q) (predicated q (drain sr 4))

/-- R394 to R406: remote accesses, markers and messages, and the status of a link. The values of fx.rep's traps (log entry
23) and the free ALLOW of port 31 (log entry 51) are the model's choices. -/
def Obligations.FabricSlotResults : Prop := RemoteSlotResultsPart ∧ MessageSlotResultsPart

namespace Sys2Proof.Claim

/-- The control registers only service privilege may name (R351). -/
def ServiceRegister (n : Nat) : Prop :=
  n ∈ [0x001, 0x002, 0x003, 0x009, 0x011, 0x030, 0x031, 0x032, 0x033, 0x034, 0x041] ∨ 0x800 ≤ n

/-- The control registers user privilege reads and may not write (R351). -/
def ReadOnlyForUser (n : Nat) : Prop := n ∈ [0x000, 0x007, 0x010, 0x015] ∨ (0x020 ≤ n ∧ n ≤ 0x02F)

end Sys2Proof.Claim

/-- R289, R295, R296, R300: a fence with acquire acquires the releases its context has read, one with release makes the
later writes releases at its scope, or at the wider scope of an earlier fence (the model's choice, log entry 128); a cross-path
fence, in a machine that performs every access in one order, only advances (the model's choice, log entry 6); sy.phase names the
phase to come, sy.lcr reads the logical cycle. -/
def Sys2Proof.Claim.FenceResultsPart : Prop :=
  ∀ (ord : FOrd) (sc : Scope) (paths : BitVec 6) (d : SReg) (q : QReg),
    Performs (.syFence ord sc q) (predicated q fun p =>
      let p := if ord = .rel then p else (oldCtx p).relReads.foldl (acquireOne sc.code) p
      if ord = .acq then p
      else modWork p fun c => { c with relScope := if c.relScope = 7 then sc.code else max sc.code c.relScope }) ∧
    Performs (.syXf paths q) (predicated q id) ∧
    Performs (.syPhase d q) (predicated q fun p =>
      let x := readS p d.val
      { x.2 with is := { x.2.is with phases := x.2.is.phases ++ [(x.2.is.m, x.1.toNat % 16)] } }) ∧
    Performs (.syLcr d q) (predicated q fun p => writeS p d.val 1 (BitVec.ofNat 64 p.is.old.lc))

/-- R297, R299, R408: a drain freezes until every path it names is complete, then writes its status, whose RSSTOP a refused rs.go
sets also once its plan goes on (the model's choice, log entry 42); a wait checks its address, freezes while the word, as a
signed number, is above 0, and then writes the word it read. A far wait freezes also while a far access of its own context to
that sector is queued and not performed, which R277 and R285 order before its read. -/
def Sys2Proof.Claim.DrainAndWaitResultsPart : Prop :=
  ∀ (d : SReg) (paths : BitVec 6) (sc : Scope) (q : QReg),
    (∀ p,
      (pathDone p 5 = (oldCtx p).farq.all fun o => !o.store && o.done) ∧
      (pathDone p 4 = (oldCtx p).chans.toList.all fun c => decide (c.state ≠ .running)) ∧
      (pathDone p 3 = (oldCtx p).lakes.toList.all fun l => decide (l.fill ≠ .filling))) ∧
    (∃ f : Perf → Perf, Performs (.syDrn d paths sc q) (predicated q f) ∧ ∀ p,
      ((∃ b, b < 6 ∧ paths.getLsbD b = true ∧ pathDone p b = false) → f p = freezeOn p .drain) ∧
      ((∀ b, b < 6 → paths.getLsbD b = true → pathDone p b = true) →
        let rs := match rsStatOf p.st p.is.old.id p.is.m with
          | none => false
          | some r => r.refused || decide (r.state = 3 ∨ r.state = 5)
        let susp := (oldCtx p).chans.toList.any fun ch => decide (ch.state = .suspended)
        let v := (if paths.getLsbD 1 = true ∧ rs = true then 8 else 0) +
          (if paths.getLsbD 4 = true ∧ susp = true then 4 else 0) + if paths.getLsbD 2 = true then fabOf p else 0
        f p = writeS (if paths.getLsbD 2 = true then reportFab p else p) d.val 1 (BitVec.ofNat 64 v))) ∧
    (∃ f : Perf → Perf, Performs (.syWait d sc q) (predicated q f) ∧ ∀ p,
      let x := readS p d.val
      let xdesc := x.2.is.old.launch.xdesc
      let va := x.1.toNat % 2 ^ 63
      (x.1.getLsbD 63 = false → f p = localAccess va 8 (fun p =>
        let p := checkWatermark (touchSpad p va 8) va 8
        let v : Word := BitVec.ofNat 64 (spadNumber p va 8)
        if v.toInt ≤ 0 then writeS (acquireLocal (needRows p va 8) va 8 sc.code) d.val 1 v else freezeOn p .drain) x.2) ∧
      (x.1.getLsbD 63 = true → va % 8 ≠ 0 → f p = raise x.2 .farAlign (BitVec.ofNat 64 va)) ∧
      (x.1.getLsbD 63 = true → va % 8 = 0 →
        (∀ c, translate x.2.st xdesc va = .error c → f p = raise x.2 .touchFault (touchVal va c)) ∧
        ∀ t, translate x.2.st xdesc va = .ok t →
          let v : Word := BitVec.ofNat 64 (physNat x.2.st t.pa 8)
          (t.r = false → f p = raise x.2 .touchFault (touchVal va causePerm)) ∧
          let own := (workCtx x.2).farq.any fun o => !o.done && decide (o.pa / 64 = t.pa / 64)
          (t.r = true → own = true ∨ 0 < v.toInt → f p = freezeOn x.2 .drain) ∧
          (t.r = true → own = false → v.toInt ≤ 0 → f p = writeS (acquireFar x.2 t.pa va sc.code) d.val 1 v)))

/-- R289, R295 to R297, R299, R300, R408: fences, drains and waits. That sy.xf only advances (log entry 6), the scope
after two fences (log entry 128) and what RSSTOP shows after a refused rs.go (log entry 42) are the model's choices. -/
def Obligations.FenceAndWaitResults : Prop := FenceResultsPart ∧ DrainAndWaitResultsPart

/-- R350 to R352: a control register is read one cycle later, or written at once; an access its column does not allow at
user privilege raises PRIVILEGE with the register's number. -/
def Sys2Proof.Claim.ControlRegisterAccessPart : Prop :=
  ∀ (d : SReg) (n : Fin 4096),
    (∃ f : Perf → Perf, Performs (.trCsrr d n) (unpredicated f) ∧ ∀ p,
      (privileged p = false → ServiceRegister n.val → f p = raise p .privilege (BitVec.ofNat 64 n.val)) ∧
      (privileged p = true ∨ ¬ServiceRegister n.val → f p = writeS (readCsr p n.val).2 d.val 1 (readCsr p n.val).1)) ∧
    (∃ f : Perf → Perf, Performs (.trCsrw d n) (unpredicated f) ∧ ∀ p,
      (privileged p = false → ServiceRegister n.val ∨ ReadOnlyForUser n.val →
        f p = raise p .privilege (BitVec.ofNat 64 n.val)) ∧
      (privileged p = true ∨ ¬(ServiceRegister n.val ∨ ReadOnlyForUser n.val) →
        f p = writeCsr (readS p d.val).2 n.val (readS p d.val).1))

namespace Sys2Proof.Claim

/-- An operation of the whole device made by a slot: it sees the gang as the bundle has left it so far, and the bundle goes on
with what becomes of it. -/
def onDevice (p : Perf) (t : State) : Perf :=
  match findGang t p.is.work.id with
  | none => { p with st := t }
  | some g => { st := t, is := { p.is with work := g } }

/-- A write of a register through the window of R351: of s0, q0 and e0 it has no effect; of s31 in MODE 0 it pushes the
store-data queue, and in another mode it is discarded (the model's choice, log entry 8); any other takes its bits at once. -/
def windowWrite (p : Perf) (n : Nat) (v : Word) : Perf :=
  if n = 0x800 ∨ n = 0x830 ∨ n = 0x838 then p
  else if n = 0x81F then
    if (oldCtx p).mode = 0 then pushQueue p fun c => { c with sdq := c.sdq ++ [⟨p.is.old.lc + 1, v.setWidth 2048⟩] } else p
  else
    modWork (touchBlock p 0) fun c =>
      if n < 0x820 then { c with s := vset c.s (n - 0x800) v }
      else if n < 0x830 then { c with a := vset c.a (n - 0x820) v }
      else if n < 0x838 then { c with q := vset c.q (n - 0x830) v }
      else if n < 0x840 then { c with e := vset c.e (n - 0x838) (v.setWidth 8) }
      else { c with h := vset c.h (n - 0x840) v }

/-- A page size of kxinv (R279); none for the values that make the write have no effect. -/
def invalBytes (size : Nat) : Option Nat :=
  if size = 0 then some 4096 else if size = 1 then some 65536 else if size = 2 then some (2 ^ 21)
  else if size = 3 then some (2 ^ 30) else if size = 4 then some (2 ^ 33) else if size = 15 then some (2 ^ 64) else none

end Sys2Proof.Claim

/-- R246, R279, R325, R351, R414: the control registers whose writes act. klsvc acts on a bound lake slot of the context as the lk
slots do; kxinv opens an invalidation of the writer's tenant over its range, aligned to the size; kisvc answers a record and
kflctl acts on a link as the events of their names do. -/
def Sys2Proof.Claim.ActingRegisterWritesPart : Prop :=
  ∀ (p : Perf) (v : Word),
    (let l := field v 3 0
     let act := field v 7 4
     let x := vget {} (workCtx p).lakes l
     (x.bound = false ∨ act = 0 ∨ 3 < act → writeCsr p 0x030 v = p) ∧
     (x.bound = true →
       (act = 1 → writeCsr p 0x030 v = refill l p) ∧
       (act = 2 → writeCsr p 0x030 v = setLake l (fun x => { x with stale := false }) p) ∧
       (act = 3 → writeCsr p 0x030 v = revoke l p))) ∧
    (invalBytes (field v 11 8) = none → writeCsr p 0x032 v = p) ∧
    (∀ n, invalBytes (field v 11 8) = some n →
      let lo := if n = 2 ^ 64 then 0 else field v 55 12 * 4096 / n * n
      ∃ t, writeCsr p 0x032 v = { p with st := t } ∧ t.invalNo = p.st.invalNo + 1 ∧
        t.invals = p.st.invals ++ [⟨p.st.invalNo + 1, p.is.old.tenant, p.is.old.id, p.is.m, lo, lo + n⟩] ∧ t.mem = p.st.mem) ∧
    (∀ t,
      (field v 3 0 = 1 → exec (.kisvcRetry (v.extractLsb' 32 32)) (putGang p.st p.is.work) = .next t →
        writeCsr p 0x034 v = onDevice p t) ∧
      (field v 3 0 = 2 → exec (.kisvcAbandon (v.extractLsb' 32 32)) (putGang p.st p.is.work) = .next t →
        writeCsr p 0x034 v = onDevice p t)) ∧
    (field v 3 0 ≠ 1 → field v 3 0 ≠ 2 → writeCsr p 0x034 v = onDevice p (putGang p.st p.is.work)) ∧
    (∀ (port : Port) (t : State), field v 5 0 = port.val →
      (field v 11 8 = 1 → exec (.kflctlFence port) p.st = .next t → writeCsr p 0x041 v = { p with st := t }) ∧
      (field v 11 8 = 2 → exec (.kflctlUnfence port) p.st = .next t → writeCsr p 0x041 v = { p with st := t }) ∧
      (field v 11 8 = 3 → exec (.kflctlRetrain port) p.st = .next t → writeCsr p 0x041 v = { p with st := t })) ∧
    (field v 11 8 = 0 ∨ 3 < field v 11 8 ∨ field v 5 0 = 31 ∨ 47 < field v 5 0 → writeCsr p 0x041 v = p)

/-- R35, R42, R104, R123, R276, R298, R304, R311, R350 to R352, R414: what each control register reads as, and what a write
leaves in it: read-only fields unchanged, reserved bits 0, counts clamped. That a write of kcause has no effect is the model's
choice (log entry 73). -/
def Sys2Proof.Claim.ControlRegisterValuesPart : Prop :=
  ∀ (p : Perf) (v : Word),
    let c := oldCtx p
    let g := p.is.old
    (([(0x000, BitVec.ofNat 64 c.mode), (0x001, c.kcause), (0x002, c.ktval), (0x003, c.kepc), (0x004, c.kuvec), (0x005, c.kuie),
        (0x006, c.kuip), (0x007, c.kucause), (0x008, c.kuepc),
        (0x010, BitVec.ofNat 64 (g.prio % 4 * 2 ^ 26 + g.cluster % 64 * 2 ^ 16 + c.core % 8 * 2 ^ 10 + g.slot % 4 * 2 ^ 8 +
          g.members.length % 16 * 2 ^ 4 + p.is.m % 8)),
        (0x011, BitVec.ofNat 64 g.kbudget), (0x012, BitVec.ofNat 64 c.kfdlat), (0x013, c.kfsr), (0x014, c.kcfg), (0x015, c.kfst),
        (0x018, BitVec.ofNat 64 (c.olfull.toNat * 2 ^ 63 + c.olbase % 2 ^ 20 * 8)), (0x019, BitVec.ofNat 64 c.olcap),
        (0x01A, BitVec.ofNat 64 (c.oltake.toNat * 2 ^ 32 + c.olput.toNat)), (0x030, 0),
        (0x031, BitVec.ofNat 64 g.launch.xdesc), (0x034, 0), (0x040, c.kfmie), (0x041, 0), (0x800, 0),
        (0x830, BitVec.allOnes 64), (0x838, 0)] : List (Nat × Word)).all fun e => decide ((readCsr p e.1).1 = e.2)) = true ∧
    (readCsr p 0x009).1 = ((getCore p.st g.cluster c.core).ksvec.toList.getD g.slot none).getD p.st.svcVec ∧
    (readCsr p 0x032).1 = (if (p.st.invals.any fun i => decide (i.gang = g.id ∧ i.member = p.is.m)) = true
      then BitVec.ofNat 64 (2 ^ 63) else 0) ∧
    (∀ b, b < 64 → (readCsr p 0x033).1.getLsbD b =
      if b = 0 then c.presS else if b < 9 then vget true c.presV (b - 1)
      else if b < 25 then (vget {} c.tiles (b - 9)).pres else false) ∧
    (∀ t, t < 16 →
      let x := vget {} c.tiles t
      readCsr p (0x020 + t) = if x.present = false ∧ x.touched = false then (0, p) else (x.kts, touchTile p t)) ∧
    (∀ n, 0x042 ≤ n → n < 0x060 → readCsr p n = (0, p) ∧ writeCsr p n v = p) ∧
    ((c.mode = 0 → (workCtx p).ldq = [] → readCsr p 0x81F = (0, violate p)) ∧
      (∀ w r, c.mode = 0 → (workCtx p).ldq = w :: r →
        readCsr p 0x81F = (w, modWork p fun c => { c with ldq := r })) ∧
      (c.mode ≠ 0 → (readCsr p 0x81F).2 = { p with st := { p.st with free := p.st.free + 1 } })) ∧
    (∀ n, 0x800 ≤ n → n < 0x848 → writeCsr p n v = windowWrite p n v) ∧
    writeCsr p 0x009 v = { p with st := setCore p.st g.cluster c.core { getCore p.st g.cluster c.core with
      ksvec := vset (getCore p.st g.cluster c.core).ksvec g.slot (some (v &&& BitVec.ofNat 64 (2 ^ 63 + 0x3FFC))) } } ∧
    (∀ i, 0 < i → i < 31 → (readCsr p (0x800 + i)).1 = vget 0 c.s i) ∧
    (∀ i, i < 16 → (readCsr p (0x820 + i)).1 = vget 0 c.a i) ∧
    (∀ i, 0 < i → i < 8 → (readCsr p (0x830 + i)).1 = vget 0 c.q i ∧
      (readCsr p (0x838 + i)).1 = (vget 0 c.e i).setWidth 64) ∧
    (∀ i, i < 8 → (readCsr p (0x840 + i)).1 = vget 0 c.h i) ∧
    (∀ n, n ∈ [0x000, 0x001, 0x002, 0x007, 0x010, 0x015, 0x031, 0x033, 0x800, 0x830, 0x838] ∨ (0x020 ≤ n ∧ n ≤ 0x02F) →
      writeCsr p n v = p) ∧
    writeCsr p 0x003 v = modWork p (fun c => { c with kepc := v &&& 0x3FFFC }) ∧
    writeCsr p 0x004 v = modWork p (fun c => { c with kuvec := v &&& 0x3FFFC }) ∧
    writeCsr p 0x005 v = modWork p (fun c => { c with kuie := v &&& 0xFF }) ∧
    writeCsr p 0x006 v = modWork p (fun c => { c with
      kuip := c.kuip &&& ~~~v
      pktRings := if v.getLsbD 4 = true then [] else c.pktRings }) ∧
    writeCsr p 0x008 v = modWork p (fun c => { c with kuepc := v &&& 0x3FFFC }) ∧
    writeCsr p 0x011 v = { p with st := { p.st with kbudget := max 1 (min 4096 (v.toNat % 2 ^ 13)) } } ∧
    writeCsr p 0x012 v = modWork p (fun c => { c with kfdlat := max 6 (min 4096 (v.toNat % 2 ^ 13)) }) ∧
    writeCsr p 0x013 v = modWork p (fun c => { c with kfsr := v &&& 0x7FFFC1 }) ∧
    writeCsr p 0x014 v = modWork p (fun c => { c with
      kcfg := BitVec.ofNat 64 (c.kcfg.toNat % 2 + 2 * min 2 (field v 2 1) + 8 * field v 3 3) }) ∧
    writeCsr p 0x018 v = modWork p (fun c => { c with olfull := v.getLsbD 63, olbase := field v 22 3 }) ∧
    writeCsr p 0x019 v = modWork p (fun c => { c with olcap := min 65536 (field v 16 0) }) ∧
    writeCsr p 0x01A v = modWork p (fun c => { c with oltake := v.extractLsb' 32 32, olput := v.extractLsb' 0 32 }) ∧
    writeCsr p 0x040 v = modWork p (fun c => { c with kfmie := v &&& 0xFFFFFFFFFFFF })

/-- R35, R42, R104, R123, R246, R276, R279, R298, R304, R311, R325, R350 to R352, R414: which control register a privilege
may access, and what a read and a write of each does. That a write of kcause has no effect (log entry 73) and what the
port of the window is outside MODE 0 (log entry 8) are the model's choices. -/
def Obligations.ControlRegisterResults : Prop := ControlRegisterAccessPart ∧ ControlRegisterValuesPart ∧ ActingRegisterWritesPart

/-- R102, R143, R340, R341, R347, R348, R353, R354: the other tr operations: a call for after the bundle; the returns, with
the mode each needs; the request for a pre-emption; the halt, a violation in a handler; and the kill, whose argument is the
low half word of its register. -/
def Obligations.SystemSlotResults : Prop :=
  ∀ (k : BitVec 16) (a : SReg) (q : QReg),
    Performs (.trTrap k) (unpredicated fun p =>
      { p with is := { p.is with calls := p.is.calls ++ [(p.is.m, k.setWidth 64)] } }) ∧
    Performs (.trRft q) (predicated q fun p =>
      if (oldCtx p).mode < 2 then raise p .privilege 0 else { p with is := { p.is with rft := true } }) ∧
    Performs (.trRfu q) (predicated q fun p =>
      if (oldCtx p).mode = 1 then { p with is := { p.is with rfu := true } } else violate p) ∧
    Performs (.trYld q) (predicated q fun p =>
      if (oldCtx p).mode = 0 then { p with is := { p.is with work := { p.is.work with yld := true } } } else p) ∧
    Performs (.trHalt q) (predicated q fun p =>
      if (oldCtx p).mode = 0 then { p with is := { p.is with halt := some p.is.slot } } else violate p) ∧
    Performs (.trKill a q) (predicated q fun p =>
      let x := readS p a.val
      let arg := x.1.toNat % 65536
      let req : KillReq := ⟨0x000A, 1, arg, BitVec.ofNat 64 arg, x.2.is.m⟩
      let kill := match x.2.is.work.kill with
        | some r => some r
        | none => some req
      { x.2 with is := { x.2.is with work := { x.2.is.work with kill := kill } } })

namespace Sys2Proof.Claim

/-- Sienna may execute packet of queue `q` now: it runs, and `x` is that queue, ACTIVE, waiting for nothing, with a packet
left (R364). -/
def Executes (s : State) (q : Fin 4096) (x : Queue) : Prop := readyQueue s q.val = some x

/-- How a queue moves on past its packet (R371): at depth 0 with no LOOP, HEAD advances by one and by the packets passed
over, never past TAIL, the rest of a skip staying pending. -/
def QueueMovesOn : Prop :=
  ∀ (x : Queue) (n : Nat), x.stack = [] → x.loop = none → x.head < x.tail →
    advance x n = { x with
      head := min x.tail (x.head + 1 + n)
      skip := if x.tail < x.head + 1 + n then x.skip + (x.head + 1 + n - x.tail) else x.skip }

/-- R363, R368: a fenced queue keeps its HEAD and shows its cause, and the launch it waits for, if one is still to be
dispatched; one that is to be destroyed and holds no such launch goes. -/
def FencedQueue : Prop :=
  ∀ (s : State) (q cause : Nat) (x : Queue), getQueue s q = some x →
    let waits := s.ready.any fun r => r.queue = q && !r.again && !r.launch.test
    (x.destroy = true → waits = false → fenceQueue s q cause = removeQueue s q) ∧
    (x.destroy = false ∨ waits = true → fenceQueue s q cause =
      putQueue s q { x with state := .fenced, cause := cause, wait := none, launch := waits, plan := none })

/-- NOP, CALL, RET, PRED, LOOP and FENCE (R370 to R372). That a body of LOOP may end exactly at TAIL is the model's choice (log
entry 90). -/
def PacketFlow : Prop :=
  ∀ (s : State) (q : Fin 4096) (x : Queue), Executes s q x →
    exec (.pkNop q) s = .next (putQueue s q.val (advance x 0)) ∧
    exec (.pkFence q) s = .next (putQueue s q.val (advance { x with buf := none } 0)) ∧
    (∀ (base : Word) (len : BitVec 32),
      (x.stack.length = 2 → exec (.pkCall q base len) s = .next (fenceQueue s q.val 6)) ∧
      (x.stack.length ≠ 2 → inLoop x = true → exec (.pkCall q base len) s = .next (fenceQueue s q.val 7)) ∧
      (x.stack.length ≠ 2 → inLoop x = false → base.toNat % 64 ≠ 0 ∨ len = 0 ∨ 2 ^ 20 < len.toNat →
        exec (.pkCall q base len) s = .next (fenceQueue s q.val 3)) ∧
      (x.stack.length ≠ 2 → inLoop x = false → base.toNat % 64 = 0 → len ≠ 0 → len.toNat ≤ 2 ^ 20 →
        let y := setQueuePos x (queuePos x + 1)
        exec (.pkCall q base len) s = .next (putQueue s q.val { y with stack := ⟨base.toNat, len.toNat, 0⟩ :: y.stack }))) ∧
    (x.stack = [] → exec (.pkRet q) s = .next (fenceQueue s q.val 3)) ∧
    (x.stack ≠ [] → inLoop x = true → exec (.pkRet q) s = .next (fenceQueue s q.val 7)) ∧
    (x.stack ≠ [] → inLoop x = false →
      exec (.pkRet q) s = .next (putQueue s q.val (returnStreams { x with stack := x.stack.drop 1 }))) ∧
    (∀ (word value mask : Word) (cond : Fin 6) (skip : BitVec 16),
      (word.toNat % 8 ≠ 0 ∨ skip = 0 → exec (.pkPred q word value mask cond skip) s = .next (fenceQueue s q.val 3)) ∧
      (word.toNat % 8 = 0 → skip ≠ 0 →
        (∀ c, farRead s x.desc word.toNat 8 = .error c →
          exec (.pkPred q word value mask cond skip) s = .next (fenceQueue s q.val 5)) ∧
        ∀ bs, farRead s x.desc word.toNat 8 = .ok bs →
          let v : Word := BitVec.ofNat 64 (leNat bs) &&& mask
          let holds := match cond.val with
            | 0 => decide (v = value)
            | 1 => decide (v ≠ value)
            | 2 => v.ult value
            | 3 => !v.ult value
            | 4 => v.slt value
            | _ => !v.slt value
          exec (.pkPred q word value mask cond skip) s =
            .next (putQueue s q.val (advance x (if holds = true then 0 else skip.toNat))))) ∧
    ∀ (count body : BitVec 16),
      (count = 0 ∨ body = 0 ∨ 16 < body.toNat → exec (.pkLoop q count body) s = .next (fenceQueue s q.val 3)) ∧
      (count ≠ 0 → body ≠ 0 → body.toNat ≤ 16 → inLoop x = true ∨ streamEnd x < queuePos x + 1 + body.toNat →
        exec (.pkLoop q count body) s = .next (fenceQueue s q.val 7)) ∧
      (count ≠ 0 → body ≠ 0 → body.toNat ≤ 16 → inLoop x = false → queuePos x + 1 + body.toNat ≤ streamEnd x →
        exec (.pkLoop q count body) s = .next (putQueue s q.val { advance x 0 with
          loop := some ⟨queuePos x + 1, body.toNat, count.toNat, x.stack.length⟩ }))

/-- A packet's write of `bs` at a far address: the queue goes on, or is fenced with cause TRANSLATION. The bytes' shadow entries
become invalid (R301); an addition, which is atomic, keeps the releases that its sectors hold (R287, R291). -/
def WritesFar (i : Instr) (s t : State) (q : Fin 4096) (desc va : Nat) (bs : List Byte) (atomic : Bool) : Prop :=
  (∀ c, xlatRange t desc va bs.length true = .error c → exec i s = .next (fenceQueue t q.val 5)) ∧
  (∀ rs, xlatRange t desc va bs.length true = .ok rs → exec i s = .next (advanceQueue
    (rs.foldl (fun u r => clearFarShadow u r.1 r.2 atomic) (physWriteParts t rs bs)) q.val 0))

/-- WRITE, SIGNAL, STAMP and WAIT (R373, R374). That WRITE with add and SIGNAL need the word readable as well is the model's choice
(log entry 33). -/
def PacketMemory : Prop :=
  ∀ (s : State) (q : Fin 4096) (x : Queue), Executes s q x →
    (∀ (addr value : Word) (rel : Bool),
      (∀ add, addr.toNat % 8 ≠ 0 → exec (.pkWrite q addr value add rel) s = .next (fenceQueue s q.val 3)) ∧
      (addr.toNat % 8 = 0 →
        WritesFar (.pkWrite q addr value false rel) s s q x.desc addr.toNat (numberBytes value.toNat 8) false ∧
        (∀ c, farRead s x.desc addr.toNat 8 = .error c →
          exec (.pkWrite q addr value true rel) s = .next (fenceQueue s q.val 5)) ∧
        ∀ bs, farRead s x.desc addr.toNat 8 = .ok bs →
          WritesFar (.pkWrite q addr value true rel) s s q x.desc addr.toNat (numberBytes (leNat bs + value.toNat) 8) true)) ∧
    (∀ (word dec : Word),
      (word.toNat % 8 ≠ 0 → exec (.pkSignal q word dec) s = .next (fenceQueue s q.val 3)) ∧
      (word.toNat % 8 = 0 → (∀ c, farRead s x.desc word.toNat 8 = .error c →
          exec (.pkSignal q word dec) s = .next (fenceQueue s q.val 5)) ∧
        ∀ bs, farRead s x.desc word.toNat 8 = .ok bs →
          WritesFar (.pkSignal q word dec) s s q x.desc word.toNat
            (numberBytes (leNat bs + (2 ^ 64 - dec.toNat)) 8) true)) ∧
    (∀ addr : Word,
      (addr.toNat % 16 ≠ 0 → exec (.pkStamp q addr) s = .next (fenceQueue s q.val 3)) ∧
      (addr.toNat % 16 = 0 →
        WritesFar (.pkStamp q addr) s (stamp s).2 q x.desc addr.toNat
          (numberBytes (stamp s).1.1 6 ++ [0, 0] ++ numberBytes (stamp s).1.2 4 ++ [0, 0, 0, 0]) false)) ∧
    ∀ (word thresh : Word) (notify : Fin 3) (async : Bool) (task mem : Word) (tag : BitVec 32),
      let i := Instr.pkWait q word thresh notify async task mem tag
      let w : WaitSt := ⟨q.val, word.toNat, thresh.toInt, notify.val, async, task.toNat, mem.toNat, tag.toNat⟩
      (word.toNat % 8 ≠ 0 → exec i s = .next (fenceQueue s q.val 3)) ∧
      (word.toNat % 8 = 0 →
        (∀ c, farRead s x.desc word.toNat 8 = .error c → exec i s = .next (fenceQueue s q.val 5)) ∧
        ∀ bs, farRead s x.desc word.toNat 8 = .ok bs →
          let v : Word := BitVec.ofNat 64 (leNat bs)
          (v.toInt ≤ thresh.toInt → exec i s = .next (advanceQueue (notifyWait s w (leNat bs)) q.val 0)) ∧
          (thresh.toInt < v.toInt → async = true → s.watches.length < 1024 →
            exec i s = .next (advanceQueue { s with watches := s.watches ++ [w] } q.val 0)) ∧
          (thresh.toInt < v.toInt → async = false ∨ 1024 ≤ s.watches.length →
            exec i s = .next (putQueue s q.val { x with wait := some w, state := .waiting })))

/-- The task of a launch joins the ready tasks, last, and its queue waits for the dispatch (R376). -/
def becomesReady (s : State) (q : Nat) (x : Queue) (l : Launch) : State :=
  { putQueue s q { x with launch := true } with ready := s.ready ++ [⟨q, l, false⟩] }

/-- LAUNCH, RESUME, KILL and PREEMPT (R376 to R379): a launch or resume whose pool, descriptor and image pass the checks
joins the ready tasks; a KILL needs a SUPER queue or the queue that dispatched the task, ended or not (the model's choice, log
entry 95). -/
def PacketTasks : Prop :=
  ∀ (s : State) (q : Fin 4096) (x : Queue), Executes s q x →
    (∀ (img : BitVec 32) (prio : Fin 4) (svc : Bool) (cl cm : BitVec 8) (iseg : Fin 16) (xd cw cr ph sp : Word),
      let i := Instr.pkLaunch q img prio svc cl cm iseg xd cw cr ph sp
      let l := fun pool => ({ queue := q.val, prio := prio.val, svc := svc, cluster := cl.toNat, cmask := cm.toNat, iseg := iseg.val,
                              xdesc := if xd = 0 then x.desc else xd.toNat, qdesc := x.desc, cw := cw.toNat, crec := cr.toNat,
                              phaseArea := ph.toNat, savep := pool, savepAddr := sp.toNat, image := img.toNat } : Launch)
      (∀ c, readPool s x.desc sp.toNat = .error c → exec i s = .next (fenceQueue s q.val c)) ∧
      (∀ pool c, readPool s x.desc sp.toNat = .ok pool → checkLaunch s x (l pool) = .error c →
        exec i s = .next (fenceQueue s q.val c)) ∧
      (∀ pool k, readPool s x.desc sp.toNat = .ok pool → checkLaunch s x (l pool) = .ok k →
        exec i s = .next (becomesReady s q.val x k))) ∧
    (∀ (ib : Word) (prio : Fin 4) (cl cm : BitVec 8) (iseg : Fin 16) (cw cr ph sp : Word),
      let i := Instr.pkResume q ib prio cl cm iseg cw cr ph sp
      let l := fun pool => ({ queue := q.val, prio := prio.val, svc := bitAt (hdrNat s ib.toNat 32 1) 3, cluster := cl.toNat,
                              cmask := cm.toNat, iseg := iseg.val, xdesc := hdrNat s ib.toNat 16 8, qdesc := x.desc,
                              cw := cw.toNat, crec := cr.toNat, phaseArea := ph.toNat, savep := pool,
                              savepAddr := sp.toNat, image := ib.toNat, resume := true } : Launch)
      (∀ c, readPool s x.desc sp.toNat = .error c → exec i s = .next (fenceQueue s q.val c)) ∧
      (∀ pool c, readPool s x.desc sp.toNat = .ok pool → checkResume s (l pool) = .error c →
        exec i s = .next (fenceQueue (spoilImage s ib.toNat) q.val c)) ∧
      (∀ pool k, readPool s x.desc sp.toNat = .ok pool → checkResume s (l pool) = .ok k →
        exec i s = .next (becomesReady s q.val x k))) ∧
    (∀ w : Word,
      (x.super = false → mapGet 0 s.dispatched w.toNat ≠ q.val + 1 →
        exec (.pkKill q w) s = .next (fenceQueue s q.val 4)) ∧
      (x.super = true ∨ mapGet 0 s.dispatched w.toNat = q.val + 1 →
        exec (.pkKill q w) s = .next (advanceQueue (killByPacket s w.toNat) q.val 0))) ∧
    ∀ w sp : Word,
      (∀ c, readPool s x.desc sp.toNat = .error c → exec (.pkPreempt q w sp) s = .next (fenceQueue s q.val c)) ∧
      (∀ pool, readPool s x.desc sp.toNat = .ok pool →
        exec (.pkPreempt q w sp) s = .next (advanceQueue (preemptByPacket s w.toNat pool) q.val 0))

/-- LAKE, RESHARD, CRPL, RING and STEER (R238, R245, R342, R380, R435). A LAKE REVOKE of a task that is not resident acts on its
saved images, and of none has no effect (the model's choice, log entry 34). -/
def PacketSupervisor : Prop :=
  ∀ (s : State) (q : Fin 4096) (x : Queue), Executes s q x →
    (∀ (w : Word) (m : BitVec 8) (l : Fin 16) (g : Gang), findGang s w.toNat = some g → m.toNat < g.members.length →
      g.killed = none → (vget {} (getCtx g m.toNat).lakes l.val).bound = true →
      let r := revokeLake s g m.toNat l.val true
      exec (.pkLakeRevoke q w m l) s = .next (advanceQueue (putGang r.1 r.2) q.val 0)) ∧
    (∀ (w : Word) (m : BitVec 8) (l : Fin 16), findGang s w.toNat = none →
      exec (.pkLakeRevoke q w m l) s =
        .next (advanceQueue ((savedBases s w.toNat).foldl (revokeSaved m.toNat l.val) s) q.val 0)) ∧
    (∀ (t : BitVec 12) (n : BitVec 8), exec (.pkLakeQuota q t n) s =
      .next (advanceQueue { s with quota := mapSet 16 s.quota t.toNat (min n.toNat 16) } q.val 0)) ∧
    (∀ w : Word,
      (w.toNat % 256 ≠ 0 → exec (.pkReshard q w) s = .next (fenceQueue s q.val 3)) ∧
      (w.toNat % 256 = 0 → exec (.pkReshard q w) s = .next (putQueue s q.val { x with plan := some w.toNat }))) ∧
    (∀ (cl : Fin 40) (n : BitVec 7), exec (.pkCrpl q cl n) s =
      .next (advanceQueue (replayAt s cl.val (n.toNat / 16) (n.toNat / 4 % 4) (n.toNat % 4)) q.val 0)) ∧
    (∀ (base : Word) (n : BitVec 32),
      (base.toNat % 64 ≠ 0 ∨ (∀ k, k < 32 → n.toNat ≠ 2 ^ k) → exec (.pkRing q base n) s = .next (fenceQueue s q.val 3)) ∧
      (base.toNat % 64 = 0 → (∃ k, k < 32 ∧ n.toNat = 2 ^ k) →
        exec (.pkRing q base n) s = .next (advanceQueue (installRing s x.desc base.toNat n.toNat) q.val 0))) ∧
    (∀ (rule : BitVec 8) (ports : Fin 4) (udp : BitVec 16) (w : Word) (base : BitVec 32) (sl nsl m cl : BitVec 8),
      let r : Steer := { rule := rule.toNat, ports := ports.val, udp := udp.toNat, task := w.toNat, base := base.toNat,
                         slotLog := sl.toNat, nslotLog := nsl.toNat, member := if m.toNat = 255 then none else some m.toNat,
                         cluster := cl.toNat }
      let i := Instr.pkSteerInstall q rule ports udp w base sl nsl m cl
      (ringOk s r = false → exec i s = .next (fenceQueue s q.val 3)) ∧
      (ringOk s r = true → exec i s =
        .next (advanceQueue { s with steers := (s.steers.filter fun t => t.rule ≠ r.rule) ++ [r] } q.val 0))) ∧
    ∀ rule : BitVec 8, exec (.pkSteerRemove q rule) s =
      .next (advanceQueue { s with steers := s.steers.filter fun t => t.rule ≠ rule.toNat } q.val 0)

end Sys2Proof.Claim

/-! ## Queues and packets (chapter 15) -/

/-- R364, R368, R370 to R374: what the packets that a program writes for itself do to their queue and to memory. -/
def Sys2Proof.Claim.QueuePacketResultsPart : Prop := QueueMovesOn ∧ FencedQueue ∧ PacketFlow ∧ PacketMemory

/-- R376 to R380, R435: what the packets about tasks and the supervisor's packets do. -/
def Sys2Proof.Claim.TaskPacketResultsPart : Prop := PacketTasks ∧ PacketSupervisor

/-- R364, R368, R370 to R374, R376 to R380, R435: what each packet does to its queue, to memory and to tasks. A LOOP body
that ends at TAIL (log entry 90), additions that need R as well (33), a LAKE REVOKE that names nothing resident (34)
and the KILL of an ended task (95) are the model's choices. -/
def Obligations.QueueAndTaskPacketResults : Prop := QueuePacketResultsPart ∧ TaskPacketResultsPart

namespace Sys2Proof.Claim

/-- A Deceo call that reaches its client: the device is in service, and `c` is the client of the call (R355, R437). -/
def Serves (s : State) (client : BitVec 32) (c : Client) : Prop :=
  s.powered = true ∧ s.stage = .service ∧ findClient s client.toNat = some c

/-- The reply to a call: journalled and sent, after what the call did. -/
def replied (t : State) (op status : Nat) (client : BitVec 32) (seq : Word) (payload : List Byte) :
    Host.Outcome State Fault Refusal := .next (finishCall t op status client.toNat seq.toNat payload)

/-- Does an access through a descriptor reach protected memory, to which no network access comes (R458)? -/
def reachesProtected (s : State) (desc va n : Nat) (write : Bool) : Prop :=
  ∃ rs, xlatRange s desc va n write = .ok rs ∧ ∃ r ∈ rs, ∃ u ∈ s.ochre.prot, r.1 < u.1 + u.2 ∧ u.1 < r.1 + r.2

/-- HELLO, GET and PUT (R356, R358, R458). -/
def MemoryCalls : Prop :=
  ∀ (s : State) (client : BitVec 32) (c : Client) (seq addr : Word), Serves s client c →
    exec (.dcHello client seq) s = replied s 1 0 client seq
      (numberBytes s.boot.toNat 4 ++ numberBytes s.devId 2 ++ numberBytes s.ptpLock.toNat 1) ∧
    (∀ len : BitVec 32,
      (8192 < len.toNat → exec (.dcGet client seq addr len) s = replied s 2 3 client seq []) ∧
      (len.toNat ≤ 8192 →
        (reachesProtected s c.desc addr.toNat len.toNat false →
          exec (.dcGet client seq addr len) s = replied s 2 8 client seq []) ∧
        (∀ e, farRead s c.desc addr.toNat len.toNat = .error e →
          exec (.dcGet client seq addr len) s = replied s 2 8 client seq []) ∧
        ∀ bs, ¬reachesProtected s c.desc addr.toNat len.toNat false → farRead s c.desc addr.toNat len.toNat = .ok bs →
          exec (.dcGet client seq addr len) s = replied s 2 0 client seq bs)) ∧
    ∀ bs : List Byte,
      (8184 < bs.length → exec (.dcPut client seq addr bs) s = replied s 3 3 client seq []) ∧
      (bs.length ≤ 8184 →
        (reachesProtected s c.desc addr.toNat bs.length true →
          exec (.dcPut client seq addr bs) s = replied s 3 8 client seq []) ∧
        (∀ e, farWriteExt s c.desc addr.toNat bs = .error e →
          exec (.dcPut client seq addr bs) s = replied s 3 8 client seq []) ∧
        ∀ t, ¬reachesProtected s c.desc addr.toNat bs.length true → farWriteExt s c.desc addr.toNat bs = .ok t →
          exec (.dcPut client seq addr bs) s = replied t 3 0 client seq [])

/-- KICK, QCREATE, QDESTROY, QRESET and QSTATUS (R361 to R363, R386). -/
def QueueCalls : Prop :=
  ∀ (s : State) (client : BitVec 32) (c : Client) (seq : Word) (qn : BitVec 16), Serves s client c →
    (∀ tail : Word,
      (ownQueue s c qn.toNat = none → exec (.dcKick client seq qn tail) s = replied s 4 5 client seq []) ∧
      ∀ x, ownQueue s c qn.toNat = some x →
        (x.state = .fenced → exec (.dcKick client seq qn tail) s = replied s 4 7 client seq []) ∧
        (x.state ≠ .fenced → tail.toNat ≤ x.tail →
          exec (.dcKick client seq qn tail) s = replied s 4 0 client seq (numberBytes x.tail 8)) ∧
        (x.state ≠ .fenced → x.tail < tail.toNat → x.npkt < tail.toNat - x.head →
          exec (.dcKick client seq qn tail) s = replied (fenceQueue s qn.toNat 1) 4 6 client seq []) ∧
        (x.state ≠ .fenced → x.tail < tail.toNat → tail.toNat - x.head ≤ x.npkt →
          let k := min x.skip (tail.toNat - x.head)
          exec (.dcKick client seq qn tail) s = replied
            (putQueue s qn.toNat { x with tail := tail.toNat, head := x.head + k, skip := x.skip - k })
            4 0 client seq (numberBytes tail.toNat 8))) ∧
    (∀ (prio sup : BitVec 8) (n : BitVec 32) (ring : Word),
      qn.toNat < 4096 → prio.toNat < 4 → sup.toNat < 2 → (∃ k, 4 ≤ k ∧ k ≤ 20 ∧ n.toNat = 2 ^ k) → ring.toNat % 4096 = 0 →
      getQueue s qn.toNat = none → (sup.toNat = 1 → c.super = true) →
      (∀ e, xlatRange s c.desc ring.toNat (64 * n.toNat) false = .error e →
        exec (.dcQcreate client seq qn prio sup n ring) s = replied s 5 8 client seq []) ∧
      ∀ r, xlatRange s c.desc ring.toNat (64 * n.toNat) false = .ok r →
        exec (.dcQcreate client seq qn prio sup n ring) s = replied
          (putQueue s qn.toNat { ring := ring.toNat, npkt := n.toNat, prio := prio.toNat, super := decide (sup.toNat = 1),
                                 desc := c.desc, client := c.id, tenant := c.tenant }) 5 0 client seq []) ∧
    (ownQueue s c qn.toNat = none →
      exec (.dcQdestroy client seq qn) s = replied s 6 5 client seq [] ∧
      exec (.dcQreset client seq qn) s = replied s 7 5 client seq [] ∧
      exec (.dcQstatus client seq qn) s = replied s 8 5 client seq []) ∧
    ∀ x, ownQueue s c qn.toNat = some x →
      exec (.dcQdestroy client seq qn) s = replied
        (if x.launch = true ∨ (s.ready.any fun r => r.queue = qn.toNat && !r.again && !r.launch.test) = true
        then putQueue s qn.toNat { x with destroy := true }
        else removeQueue s qn.toNat) 6 0 client seq [] ∧
      exec (.dcQreset client seq qn) s = replied (resetQueue s qn.toNat x) 7 0 client seq [] ∧
      exec (.dcQstatus client seq qn) s = replied s 8 0 client seq (queueRecord qn.toNat x)

/-- WINDOW, LOAD, UNLOAD and QUIESCE (R360, R384, R385). Where a host window starts, behind the last one, that it is writable, and
that its key is its number are the model's choices (log entry 55). -/
def DeviceCalls : Prop :=
  ∀ (s : State) (client : BitVec 32) (c : Client) (seq addr len : Word), Serves s client c →
    (∀ dir : BitVec 8, dir.toNat < 2 → exec (.dcWindow client seq addr len dir) s = replied
      { s with
        windows := s.windows ++ [⟨s.nextRkey, c.id, addr.toNat, len.toNat, decide (dir.toNat = 1), c.desc, none⟩]
        nextRkey := s.nextRkey + 1 } 9 0 client seq (numberBytes s.nextRkey 4)) ∧
    (nextHost s + len.toNat ≤ 2 ^ 48 → exec (.dcWindow client seq addr len 2) s = replied
      { s with
        windows := s.windows ++ [⟨s.nextRkey, c.id, addr.toNat, len.toNat, true, c.desc, some (nextHost s)⟩]
        nextRkey := s.nextRkey + 1 } 9 0 client seq (numberBytes (nextHost s) 8)) ∧
    (∀ dir : BitVec 8, 2 < dir.toNat → exec (.dcWindow client seq addr len dir) s = replied s 9 3 client seq []) ∧
    (∀ e, loadImage s c.id c.desc addr.toNat len.toNat = .error e →
      exec (.dcLoad client seq addr len) s = replied s 10 e client seq []) ∧
    (∀ r, loadImage s c.id c.desc addr.toNat len.toNat = .ok r →
      exec (.dcLoad client seq addr len) s = replied r.2 10 0 client seq (numberBytes r.1 4)) ∧
    (∀ (img : BitVec 32),
      (∀ e, unloadImage s img.toNat = .error e → exec (.dcUnload client seq img) s = replied s 11 e client seq []) ∧
      ∀ t, unloadImage s img.toNat = .ok t → exec (.dcUnload client seq img) s = replied t 11 0 client seq []) ∧
    (c.super = false → ∀ us, exec (.dcQuiesce client seq addr us) s = replied s 12 4 client seq []) ∧
    (c.super = true → (∀ z, s.quiesce = some z → z.done = true) → ∀ us, exec (.dcQuiesce client seq addr us) s =
      .next (quiesceGo { s with quiesce := some ⟨c.id, seq.toNat, addr.toNat, c.desc, false⟩ }))

/-- RoCEv2 accesses, which need a window that covers them and reach no protected memory, and packets at the host ports (R196 to
R199, R359, R458). -/
def HostAccess : Prop :=
  ∀ s : State, s.powered = true → s.stage = .service →
    (∀ (rkey : BitVec 32) (addr : Word) (bs : List Byte) (w : Window),
      windowFor s rkey.toNat addr.toNat bs.length true = some w →
      (reachesProtected s w.desc addr.toNat bs.length true →
        exec (.rdmaWrite rkey addr bs) s = .next (sendOut s (.rdma false []))) ∧
      (∀ e, farWriteExt s w.desc addr.toNat bs = .error e → exec (.rdmaWrite rkey addr bs) s = .next (sendOut s (.rdma false []))) ∧
      ∀ t, ¬reachesProtected s w.desc addr.toNat bs.length true → farWriteExt s w.desc addr.toNat bs = .ok t →
        exec (.rdmaWrite rkey addr bs) s = .next (sendOut t (.rdma true []))) ∧
    (∀ (rkey : BitVec 32) (addr : Word) (bs : List Byte), windowFor s rkey.toNat addr.toNat bs.length true = none →
      exec (.rdmaWrite rkey addr bs) s = .next (sendOut s (.rdma false []))) ∧
    (∀ (rkey : BitVec 32) (addr : Word) (len : BitVec 32) (w : Window),
      windowFor s rkey.toNat addr.toNat len.toNat false = some w →
      (reachesProtected s w.desc addr.toNat len.toNat false →
        exec (.rdmaRead rkey addr len) s = .next (sendOut s (.rdma false []))) ∧
      (∀ e, farRead s w.desc addr.toNat len.toNat = .error e →
        exec (.rdmaRead rkey addr len) s = .next (sendOut s (.rdma false []))) ∧
      ∀ bs, ¬reachesProtected s w.desc addr.toNat len.toNat false → farRead s w.desc addr.toNat len.toNat = .ok bs →
        exec (.rdmaRead rkey addr len) s = .next (sendOut s (.rdma true bs))) ∧
    (∀ (hp : Fin 2) (udp : BitVec 16) (bs : List Byte),
      (ruleFor s hp.val udp.toNat = none → exec (.hostPacketArrival hp udp bs) s = .next s) ∧
      (∀ r, ruleFor s hp.val udp.toNat = some r →
        let t := (stamp s).2
        let a : Arrival := ⟨hp.val, r.rule, bs.length, bs, (stamp s).1⟩
        ((∃ b ∈ s.arrivals, b.rule = r.rule) → exec (.hostPacketArrival hp udp bs) s = .next (holdPacket t r a)) ∧
        ((∀ b ∈ s.arrivals, b.rule ≠ r.rule) → exec (.hostPacketArrival hp udp bs) s =
          .next (if (tryPacket 3 t r a).2 = true then holdPacket (tryPacket 3 t r a).1 r a else (tryPacket 3 t r a).1)))) ∧
    ∀ bs,
      let body := bs.drop 32
      let kick := decide (fieldLe bs 4 2 = 4 ∧ body.length = 16 ∧ fieldLe body 2 6 ≠ 0)
      (deceoHeaderOk bs = false ∨ kick = true → exec (.deceoMessageReceived bs) s = .next s) ∧
      (deceoHeaderOk bs = true → kick = false → exec (.deceoMessageReceived bs) s = .next (handleCall s (fieldLe bs 4 2)
        (fieldLe bs 8 4) (fieldLe bs 12 4) (fieldLe bs 16 8)
        (if body.length = fieldLe bs 24 4 ∧ body.length ≤ 8192 then some body else none)))

/-- Sienna's turn, the rereads of its waits and the end of a QUIESCE's time (R364, R374, R384). -/
def SiennaEvents : Prop :=
  ∀ s : State,
    (∀ (i : Fin 8) (q : Nat) (qs : List Nat), turnOrder s i.val = q :: qs → exec (.siennaExecutiveCycle i) s =
      .next (quiesceGo ((q :: qs).foldl (fun s q => queueTurn q 4 s)
        { s with firstTurn := mapSet 511 s.firstTurn i.val (q % 512) }))) ∧
    (∀ (async : Bool) (i : Fin 4096) (w : WaitSt) (x : Queue), waitAt s async i.val = some w → getQueue s w.queue = some x →
      (∀ e, farRead s x.desc w.word 8 = .error e →
        exec (.waitSatisfied async i) s = .next (admitWaits s) ∧
        exec (.waitPoll async i) s = .next (admitWaits (fenceQueue (endWait s async i.val) w.queue 5))) ∧
      ∀ bs, farRead s x.desc w.word 8 = .ok bs →
        let v : Word := BitVec.ofNat 64 (leNat bs)
        (w.thresh < v.toInt →
          exec (.waitSatisfied async i) s = .next (admitWaits s) ∧ exec (.waitPoll async i) s = .next (admitWaits s)) ∧
        (v.toInt ≤ w.thresh →
          let t := endWait (notifyWait s w (leNat bs)) async i.val
          let u := if async = true then t else unblockQueue t w.queue
          exec (.waitSatisfied async i) s = .next (admitWaits u) ∧ exec (.waitPoll async i) s = .next (admitWaits u))) ∧
    (∀ z, s.quiesce = some z → z.done = false → exec .quiesceTimeout s =
      .next (quiesceGo ((s.gangs.filter fun g => quiesceTask g && g.launch.savep.isNone).foldl quiesceKill s)))

end Sys2Proof.Claim

/-! ## Deceo calls, Sienna and the host ports (chapter 15) -/

/-- R355, R356, R358, R360 to R363, R384 to R386: the calls: what each checks, in order, what it changes, and the status and
payload of its reply. -/
def Obligations.DeceoCallResults : Prop := MemoryCalls ∧ QueueCalls ∧ DeviceCalls

/-- R196 to R199, R359, R364, R374, R384: the host's accesses to device memory, packets at the host ports, and Sienna's own
events. -/
def Obligations.HostAndSiennaEvents : Prop := HostAccess ∧ SiennaEvents

namespace Sys2Proof.Claim

/-- Gang `g` of the state, still alive. -/
def Alive (s : State) (w : Word) (g : Gang) : Prop := findGang s w.toNat = some g ∧ g.killed = none

/-- The data at the head of a store-data queue is present at logical cycle `t` (R140, R141). -/
def DataReady (q : List SdqEntry) (t : Nat) : Prop := ∃ d r, q = d :: r ∧ d.present ≤ t

/-- Parts of an issue. Results land when due, statuses with them, outside a handler; data that have arrived leave the LAQ.
A store that finds its data, a repeat whose next operation is due and a held write that is due are performed by the wall cycle
in which their gang issues (R43, R74, R131, R139 to R141, R318, R337). -/
def DueEvents : Prop :=
  ∀ (s : State) (w : Word) (m : Fin 8) (g : Gang), findGang s w.toNat = some g → m.val < g.members.length →
    let c := getCtx g m.val
    (handlerOf g = none →
      exec (.registerResultLands w m) s = .next (modCtxOf s g.id m.val fun c => landPend (landDue c g.lc) g.lc)) ∧
    (handlerOf g ≠ none → exec (.registerResultLands w m) s = .next s) ∧
    exec (.queueLoadDataArrival w m) s = .next (modCtxOf s g.id m.val fun c =>
      let here := c.laq.filter fun e => decide (e.arrive ≤ g.lc)
      { c with
        laq := c.laq.filter fun e => decide (g.lc < e.arrive)
        ldq := c.ldq ++ (here.filter fun e => !e.vec && !e.atomic).map fun e => e.data.setWidth 64
        vldq := c.vldq ++ (here.filter fun e => e.vec && !e.atomic).map fun e => e.data }) ∧
    (mayIssue s g = true →
      let cycle := Host.Outcome.next (wallCycle { s with iss := none } g.cluster)
      (((∃ e ∈ c.saq, e.vec = false) ∧ DataReady c.sdq g.lc) ∨ ((∃ e ∈ c.saq, e.vec = true) ∧ DataReady c.vsdq g.lc) →
        exec (.queueStorePairing w m) s = cycle) ∧
      (∀ r, c.rep = some r → r.remaining ≠ 0 → r.due ≤ g.lc → exec (.repeatReissue w m) s = cycle) ∧
      ((∃ h ∈ c.held, h.due ≤ g.lc) → exec (.heldWritePerformed w m) s = cycle))

/-- R141: the oldest address of a kind takes the oldest data of its kind, where they are present: the pair stores the data's low
bytes at the address; an address whose data are not there stays, and so do all the later ones of its kind. -/
def StoresPair : Prop :=
  ∀ (x : Pairing) (e : SaqEntry), e.vec = false →
    (∀ d r, (workCtx x.p).sdq = d :: r → d.present ≤ x.p.is.old.lc → x.stopS = false →
      (pairOne x e).keep = x.keep ∧ (pairOne x e).stopS = false ∧
        ∃ ent, (pairOne x e).new = x.new ++ [.store e.ea (numberBytes d.data.toNat e.bytes) ent]) ∧
    (x.stopS = true ∨ (∀ d ∈ (workCtx x.p).sdq.head?, x.p.is.old.lc < d.present) →
      pairOne x e = { x with
        keep := x.keep ++ [e]
        stopS := true })

/-- What a reissue does (R131, R212): its address register steps by one stored tile, its tile by one modulo 16, and the
operation is checked and accepted as at its first issue. -/
def ReissueSteps : Prop :=
  ∀ (p : Perf) (r : Repeat), (oldCtx p).rep = some r → r.remaining ≠ 0 → r.due ≤ p.is.old.lc →
    let base := r.base + BitVec.ofNat 64 (r.k * (256 * codeBits r.fmt))
    let q := touchBlock p 0
    let p' := modBoth { q with is := { q.is with away := false } } fun c => { c with a := vset c.a r.areg.val base }
    let p' := mmaStart p' ((r.tile + r.k) % 16) r.z r.sp r.fmt r.pl r.lake base.toNat r.k r.eA.val r.eB.val
    performReissue p = modWork { p' with is := { p'.is with mma := false } } fun c =>
      { c with rep := some { r with remaining := r.remaining - 1, k := r.k + 1, due := r.due + r.dop } }

/-- Waits and drains are tried in a wall cycle of their cluster; interrupts, budgets, promotion (R123, R127, R297, R299,
R345, R351). -/
def IssueEvents : Prop :=
  ∀ (s : State) (w : Word) (g : Gang), findGang s w.toNat = some g →
    (nextHasSlot s g isDrain = true → mayIssue s g = true →
      exec (.drainComplete w) s = .next (wallCycle { s with iss := none } g.cluster)) ∧
    (g.killed = none → nextHasSlot s g isWait = true →
      exec (.waitReread w) s = .next (wallCycle { s with iss := none } g.cluster)) ∧
    exec (.starvationPromotion w) s = .next (putGang s (if 1024 ≤ g.starve then { g with promoted := true } else g)) ∧
    (∀ (m : Fin 8) (b : Nat), pendingInt g = some (m.val, b) → g.killed = none → handlerOf g = none →
      g.kill = none → g.calls = [] → g.preempt = none → (g.yld = false ∨ yieldWanted s g = false ∨ g.launch.savep = none) →
      (g.conf = false ∨ s.confFence.contains g.tenant = false) →
      holdsWrites g = false ∨ nextHolds s g = true ∨ mayIssue s g = false →
      exec (.userInterruptTaken w m) s = .next (putGang (stopReads s g).1 (takeUserInterrupt (stopReads s g).2 m.val b))) ∧
    (∀ (m : Fin 8) (v : Word), exec (.kuipWrite w m v) s = .next (modCtxOf s w.toNat m.val fun c => { c with
      kuip := c.kuip &&& ~~~v
      pktRings := if v.getLsbD 4 = true then [] else c.pktRings })) ∧
    (∀ v : Word, exec (.kbudgetWrite v) s = .next { s with kbudget := max 1 (min 4096 (v.toNat % 2 ^ 13)) }) ∧
    (∀ r x xs, s.ring = some r → s.waiting = x :: xs → ringRoom s r = true →
      exec .supervisorRecordDelivery s = .next (ringPut { s with waiting := xs } r x)) ∧
    (∀ (m : Fin 8) (v : Word), m.val < g.members.length → g.killed = none → (getCtx g m.val).halted = false →
      ∃ p, p = writeKxinv (startMember ⟨{ s with iss := none }, { old := g, work := g, m := m.val }⟩ m.val 0 0 false true) v ∧
        exec (.kxinvWrite w m v) s = .next (putMerged p.st g p.is.work))

/-- Actions of the supervisor on a lake slot of a running member (R242, R243, R246). -/
def LakeServiceEvents : Prop :=
  ∀ (s : State) (w : Word) (m : Fin 8) (l : Fin 16) (g : Gang), Alive s w g → m.val < g.members.length →
    (getCtx g m.val).halted = false → (vget {} (getCtx g m.val).lakes l.val).bound = true →
    let x := vget {} (getCtx g m.val).lakes l.val
    let leaves := fun (i : Instr) (y : LakeSt) =>
      ∃ t h, exec i s = .next t ∧ findGang t w.toNat = some h ∧ vget {} (getCtx h m.val).lakes l.val = y
    leaves (.klsvcRefill w m l) { x with fillErr := none, stale := false, fill := .filling, pend := true } ∧
    leaves (.klsvcAccept w m l) { x with stale := false } ∧
    leaves (.klsvcRevoke w m l) { x with
      bound := false, pinned := false, stale := false, fillErr := none, gen := x.gen + 1, fill := .none, pend := false,
      ext := false }

/-- Page walks, far accesses, invalidations and touches (R273 to R281). -/
def FarEvents : Prop :=
  ∀ (s : State) (w : Word) (m : Fin 8) (g : Gang), findGang s w.toNat = some g →
    (∀ e : Fin 8, g.killed = none → g.walks.contains (m.val, e.val) = true →
      let t := putGang s { g with walks := g.walks.filter fun x => x != (m.val, e.val) }
      (∀ out, out ≠ .device → exec (.pageWalkComplete w m e out) s = .next (walkTouch g.id t (m.val, e.val))) ∧
      ∀ x, vget none (getCtx g m.val).touches e.val = some x → exec (.pageWalkComplete w m e .device) s =
        .next (raiseTicket t .resumeTranslation 4 0 e.val m.val (g.fromImage.getD 0) x.region g.id 0)) ∧
    (∀ (i : Fin 16) (o : FarOp), (getCtx g m.val).farq[i.val]? = some o → farInOrder (getCtx g m.val).farq i.val o = true →
      (o.store = true →
        exec (.farStorePerformed w m i .ok) s = .next (modCtxOf
          (farWriteBy s (getCtx g m.val) o.pa (numberBytes o.data.toNat o.bytes)
            (shadowEntry (shWho o.ent) (shEpoch o.ent) (getCtx g m.val).interval (shScope o.ent) (shSync o.ent))) g.id m.val fun c =>
            { c with
              farq := c.farq.eraseIdx i.val
              interval := if shScope o.ent = 7 then c.interval else (c.interval + 1) % 256 }) ∧
        exec (.farStorePerformed w m i .device) s = .next (farError
          (modCtxOf s g.id m.val fun c => { c with farq := c.farq.eraseIdx i.val }) g m.val o)) ∧
      (o.store = false → o.done = false →
        exec (.farLoadDataArrival w m i .ok) s = .next (modCtxOf s g.id m.val fun c =>
          let waits := (c.results ++ c.hresults).any fun r => r.far = some o.id
          let note := fun (r : Result) => if r.far = some o.id then { r with rels := farRels s c o.pa o.va o.bytes true 0 } else r
          { c with
            farq := if waits = true
              then c.farq.map fun x => if x.id = o.id then { x with
                done := true
                data := BitVec.ofNat 64 (physNat s o.pa o.bytes) } else x
              else c.farq.filter fun x => x.id ≠ o.id
            results := c.results.map note
            hresults := c.hresults.map note }) ∧
        exec (.farLoadDataArrival w m i .device) s = .next (farError s g m.val o))) ∧
    (∀ (e : Fin 8) (t : Touch), vget none (getCtx g m.val).touches e.val = some t → exec (.touchExpiry w m e) s =
      .next (modCtxOf s g.id m.val fun c => if t.exp < g.lc then { c with touches := vset c.touches e.val none } else c)) ∧
    exec (.invalidationComplete w m) s = .next { s with
      invals := s.invals.filter fun i => !(decide (i.gang = w.toNat ∧ i.member = m.val) && (invalHolders s i).isEmpty &&
        !(s.gangs.any fun h => decide (h.tenant = i.tenant) && h.members.any fun c => c.farq.any fun o =>
          !o.done && decide (o.inv < i.no) && (decide (o.va < i.lo + (i.hi - i.lo)) && decide (i.lo < o.va + o.bytes)))) } ∧
    exec (.invalidationTimeout w m) s = .next
      ((s.invals.filter fun i => decide (i.gang = w.toNat ∧ i.member = m.val)).foldl (fun s i =>
        (invalHolders s i).foldl (fun s h => requestPreempt s h.id 4 none false) s) s)

/-- Copy channels: a transfer begins once it is first in its channel's order, and moves one chunk at a time, its watermark
behind it (R251, R257, R262); an engine's access guards a bank row (R182). -/
def CopyEvents : Prop :=
  ∀ (s : State) (cl : Fin 40) (co : Fin 8) (ch : Fin 4),
    (∀ g m c, headTransfer s cl.val co.val ch.val = some (g, m, c) →
      exec (.copyTransferStart cl co ch) s = .next (putChan s g m ch.val { c with begun := true }) ∧
      (c.begun = true → (∀ b ∈ chunkAbsent g c, False) → ∀ t bs, chunkBytes s g m c .ok = .ok (t, bs) →
        ∀ u, chunkWrite t g m c bs = .ok u →
          (pastChunk c = none → exec (.copyChunk cl co ch .ok) s = .next (copyDone u g m ch.val c)) ∧
          ∀ c', pastChunk c = some c' →
            exec (.copyChunk cl co ch .ok) s = .next (putChan u g m ch.val { c' with wmk := (lowMark c').toNat }))) ∧
    ∀ (bank : Fin 64) (row : BitVec 11), (∀ x ∈ (getCluster s cl.val).guard, x.1 ≠ bank.val) →
      exec (.engineAccessGuard cl bank row) s = .next (setCluster s cl.val { getCluster s cl.val with
        guard := (getCluster s cl.val).guard ++ [(bank.val, row.toNat)] })

/-- Dispatch, completion, pre-emption, and the movement of blocks and segments (R307 to R330, R376, R377, R383). -/
def LifeEvents : Prop :=
  (∀ (s : State) (far : List FarMember) (r : Ready) (p : Place), s.powered = true → s.quiesce = none → s.stage ≠ .root →
    (readyOrder s).find? (fun r => (launchTask s r.launch).isNone ||
      (!r.again && !r.launch.test && failedCluster s r.launch.cluster)) = none →
    (readyOrder s).findSome? (fun r => (placeNow (preemptFor s (readyOrder s)) r.launch).map fun p => (r, p)) = some (r, p) →
    exec (.taskDispatch far) s = .next (dispatchAt (preemptFor s (readyOrder s)) r p far)) ∧
  (∀ (s : State) (w : Word) (g : Gang), findGang s w.toNat = some g →
    (gangEnded g = true → nothingDue s g = true → exec (.taskCompletion w) s = .next (completeGang s g)) ∧
    (∀ r, g.preempt = some r → preemptReady g = true →
      (∀ port, fabricState g = some port →
        exec (.preemption w) s = .next (killTask s g.id .fabricStateLost 0 0 (BitVec.ofNat 64 port) 0)) ∧
      ∀ sp, fabricState g = none → r.pool = some sp → poolBusy s g sp = false → g.pulls.any (remotePull s g) = false →
        fifoOut s g = false →
        (∀ m o, farLost s g = some (m, o) → exec (.preemption w) s = .next (farError
          (modCtxOf s g.id m fun c => { c with farq := c.farq.filter fun x => x != o }) g m o)) ∧
        (farLost s g = none →
          let s1 := g.pulls.foldl (settlePull g.id) s
          ∀ g1, findGang s1 g.id = some g1 →
            let sg := settleGangFor s1 g1
            let s2 := putMerged sg.1 g1 sg.2
            ∀ g2, findGang s2 g.id = some g2 →
              let x := saveGang s2 g2 sp r.why
              exec (.preemption w) s = .next (if x.2 = true then afterSave x.1 g2 sp r.detach else x.1))) ∧
    (∀ (k : BlockKind) (m : Fin 8) (i : Fin 2048) (out : PullOut), g.killed = none →
      let b := (k.code, m.val, i.val)
      let ends := fun t => exec (.blockPullComplete w k m i out) s = .next (releaseArrivals t)
      g.pulls.contains b = true →
        (pullPresent g b = true → ends (pullDone s g.id b)) ∧
        (pullPresent g b = false → (pullBlocker s g b).isSome = true ∨ noFrame s g b = true → ends s) ∧
        (pullPresent g b = false → pullBlocker s g b = none → noFrame s g b = false →
          (g.fromImage = none → ends (finishPull s g b none)) ∧
          ∀ ib, g.fromImage = some ib →
            ends (if hasCopy g b = true then pullFrom s g ib b out else finishPull s g b none))) ∧
    ∀ (m : Fin 8) (n : Fin 16), g.killed = none → (getCtx g m.val).segReq.contains n.val = true →
      let fresh := fun (i : Nat) (c : Ctx) => { c with
        segs := (n.val, i, true) :: c.segs.filter fun e => e.2.1 ≠ i
        segReq := c.segReq.filter fun x => x ≠ n.val }
      (∀ i, segOf (getCtx g m.val) n.val = some i →
        exec (.segmentArrival w m n) s = .next (modCtxOf s g.id m.val (fresh i))) ∧
      ∀ i, segOf (getCtx g m.val) n.val = none → segVictim s g m.val = some i → exec (.segmentArrival w m n) s =
        .next (modCtxOf (copySegment s g (getCtx g m.val).core n.val i) g.id m.val (fresh i))) ∧
  (∀ (s : State) (ib : Word) (k : BlockKind) (m : Fin 8) (i : Fin 2048),
    (∀ g r, claimerOf s (k.code, ib.toNat, m.val, i.val) = some (g, r) →
      exec (.blockWriteOut ib k m i) s = .next (passFrame (writeOut s ib.toNat k.code m.val i.val true g.id) g r)) ∧
    (claimerOf s (k.code, ib.toNat, m.val, i.val) = none → flushNext s ib.toNat = some (k.code, m.val, i.val) →
      let freed := if k.code = 5 then allocHolder s ib.toNat i.val else none
      (freed = none → exec (.blockWriteOut ib k m i) s = .next (writeOut s ib.toNat k.code m.val i.val false 0)) ∧
      ∀ g, freed = some g →
        exec (.blockWriteOut ib k m i) s = .next (writeOut s ib.toNat k.code m.val i.val true g.id))) ∧
  ∀ (s : State) (n : BitVec 32) (t : Ticket), (s.tickets.find? fun x => x.ticket = n.toNat) = some t →
    exec (.kisvcRetry n) s = .next (retryTicket s t) ∧ exec (.kisvcAbandon n) s = .next (abandonTicket s t)

end Sys2Proof.Claim

/-! ## What happens to gangs between their bundles (chapters 04, 08 to 14) -/

/-- R43, R74, R123, R131, R139 to R141, R246, R297, R299, R318, R345: the parts of an issue taken ahead of it, the reissue of a
repeat, waits, drains, interrupts, and the supervisor's writes of a member's registers. -/
def Obligations.IssueEventResults : Prop := DueEvents ∧ StoresPair ∧ ReissueSteps ∧ IssueEvents ∧ LakeServiceEvents

/-- R182, R251, R262, R273 to R281: far accesses as they are performed, invalidations, touches, copy channels and guards. -/
def Obligations.EngineEventResults : Prop := FarEvents ∧ CopyEvents

/-- R307 to R330, R376, R377, R383: how a task is dispatched, completes, is pre-empted, and its blocks and segments move. -/
def Obligations.TaskLifeResults : Prop := LifeEvents

namespace Sys2Proof.Claim

/-- Link events act on a running fabric's link ports, every port but 31 (R387, R389). -/
def LinkRuns (s : State) (port : Port) : Prop := s.powered = true ∧ s.stage ≠ .root ∧ port.val < 48 ∧ port.val ≠ 31

/-- The states of a link (R388, R389, R391, R392): signal lock starts training; training ends UP, in a new epoch, with fresh
allowances unless the far end is the one it had, and the packets that still stand in the link's buffer then owe the new far
end nothing; a lost signal leaves it DARK, which keeps the far end; DARK for too long, or
retraining that fails, leaves it DOWN; errors fence it. -/
def LinkEvents : Prop :=
  ∀ (s : State) (port : Port), LinkRuns s port →
    let l := linkOf s port.val
    (l.st = .down ∨ l.st = .dark → exec (.signalLock port) s = .next (setLink s port.val { l with st := .training })) ∧
    (∀ (peer : BitVec 15) (pp : Port), l.st = .training →
      let same := decide (l.heldPeer = some (peer.toNat, pp.val))
      let buffered := s.pendIn.map fun e =>
        if same = false ∧ Transit.inPort e.pkt = port.val then { e with stale := true } else e
      exec (.trainingComplete port peer pp) s = .next (placePackets (payReturns (setLink { s with pendIn := buffered } port.val
        { st := .up, peer := peer.toNat, peerPort := pp.val, epoch := (l.epoch + 1) % 65536,
          allowReq := if same = true then l.allowReq + l.oweReq else 512,
          allowRsp := if same = true then l.allowRsp + l.oweRsp else 512,
          retReq := if same = true then l.retReq else 0,
          retRsp := if same = true then l.retRsp else 0,
          retrans := l.retrans,
          msgs := same && l.msgs }) port.val))) ∧
    (l.st = .up →
      exec (.signalLoss port) s = .next (setLink s port.val { l with st := .dark, heldPeer := some (l.peer, l.peerPort) }) ∧
      exec (.flitCrcFailure port) s = .next (setLink s port.val { l with retrans := l.retrans + 1 }) ∧
      ∀ n : BitVec 16,
        exec (.creditReturn port false n) s = .next (placePackets (setLink s port.val { l with allowReq := l.allowReq + n.toNat })) ∧
        exec (.creditReturn port true n) s = .next (placePackets (setLink s port.val { l with allowRsp := l.allowRsp + n.toNat }))) ∧
    (l.st = .training → exec (.retrainingFailed port) s =
      .next (setLink s port.val { epoch := l.epoch, retrans := l.retrans })) ∧
    (l.st = .dark → ∃ t, exec (.darkTimeout port) s = .next t ∧ (linkOf t port.val).st = .down) ∧
    (∀ ecc : Bool, l.st ≠ .fenced → ecc = true ∨ 16 < l.retrans →
      exec (.linkErrorFence port ecc) s = .next (fenceLink s port.val (if ecc = true then 4 else 1)))

/-- kflctl's actions on a link (R389, R414). -/
def LinkControl : Prop :=
  ∀ (s : State) (port : Port), port.val < 48 → port.val ≠ 31 →
    let l := linkOf s port.val
    (l.st ≠ .fenced →
      exec (.kflctlFence port) s = .next (fenceLink s port.val 2) ∧
      exec (.kflctlUnfence port) s = .next s ∧
      exec (.kflctlRetrain port) s = .next (setLink s port.val { l with
        st := .training
        heldPeer := if l.st = .up then some (l.peer, l.peerPort) else l.heldPeer })) ∧
    (l.st = .fenced →
      exec (.kflctlFence port) s = .next s ∧
      exec (.kflctlUnfence port) s = .next (setLink s port.val { l with st := .training }) ∧
      exec (.kflctlRetrain port) s = .next s)

/-- Requests from other devices, replies, and what becomes of operations that no reply resolves (R393, R396, R404, R407 to
R411). A request that must wait stays in the link's buffer; its flits go back when it is handled, unless the link has another
far end by then. Which packet a later one of its order waits for at the target is log entry 110 (the model's choice). -/
def RemoteEvents : Prop :=
  ∀ s : State, s.powered = true → s.stage ≠ .root →
    (∀ (r : ReqPacket) (out : MemOut), r.kind ≠ .abort → r.dev.toNat ≠ s.devId →
      let x := handleRequest (bringMessage s r) r.dev.toNat (transitOp r s.devId) (waitsBehind s r) out
      (x.2 = true → exec (.remoteRequestArrival r out) s = .next (returnFlits
        { x.1 with pendIn := x.1.pendIn.filter fun y => !decide (y.pkt = .req r ∧ y.dst = s.devId) } r.port.val false
          (flitsOf r.words.length)
          ((s.pendIn.find? fun y => decide (y.pkt = .req r ∧ y.dst = s.devId)).any fun y => y.stale))) ∧
      (x.2 = false → exec (.remoteRequestArrival r out) s = .next (holdPacketIn x.1 (.req r) s.devId))) ∧
    (∀ (r : ReqPacket) (out : MemOut) (o : RemOp), r.kind ≠ .abort → r.dev.toNat = s.devId →
      loopback s r.sn.toNat = some o → exec (.remoteRequestArrival r out) s = .next (handleRequest s s.devId o false out).1) ∧
    (∀ (port : Port) (dev : BitVec 15) (n : BitVec 48) (ok : Bool) (ws : List Word), dev.toNat ≠ s.devId →
      exec (.remoteReplyArrival port dev n (ok, ws)) s =
        .next (returnFlits (resolveOp s dev.toNat n.toNat ok ws) port.val true (flitsOf ws.length))) ∧
    (∀ r : ReqPacket, r.kind = .abort → r.dev.toNat ≠ s.devId → exec (.abortArrival r) s = .next (returnFlits
      (takeAbort s r.dev.toNat (transitOp r s.devId)) r.port.val false (flitsOf r.words.length))) ∧
    (∀ w rest, releasable { s with msgBuf := s.msgBuf.filter (messageAlive s) } [] (s.msgBuf.filter (messageAlive s)) =
        some (w, rest) →
      exec .messageBufferRelease s = .next ((List.range 48).foldl payReturns (enterMessage { s with msgBuf := rest } w))) ∧
    (∀ (dev : BitVec 15) (n : BitVec 48), exec (.sequenceMemoryExpiry dev n) s = .next { s with
      seqMem := s.seqMem.filter fun e => !(decide (e.dev = dev.toNat ∧ e.seq = n.toNat)) }) ∧
    (∀ (dev : BitVec 15) (n : BitVec 48) (o : RemOp), openOp s dev.toNat n.toNat = some o →
      (o.kind = .mark → exec (.markerTimeout dev n) s =
        .next (enterReplies o.gang o.member o.port s.remote.length (replaceOp s o { o with ans := some [.fail] }))) ∧
      (∀ p, o.kind ≠ .mark → o.sent = true → o.dev ≠ s.devId →
        ((routePorts s o.dev).find? fun p =>
          decide (some (p, (linkOf s p).peer) ≠ o.via) && decide (o.flits ≤ (linkOf s p).allowReq)) = some p →
        exec (.resendTimer dev n) s = .next (putOnLink s p o)) ∧
      (∀ i, o.plan = some i → exec (.peerTimeout dev n) s = .next (answerPlan (dropOp s o) i .peerLost)) ∧
      (∀ g, o.plan = none → o.kind ≠ .mark → o.kind ≠ .abort → findGang s o.gang = some g →
        let t := leaveFifo s o
        let o' := { o with
          lost := true
          obw := 0
          ans := if o.nrep = 0 then none else some (List.replicate o.nrep .fail) }
        exec (.peerTimeout dev n) s = .next
          (clearRemote (enterReplies o.gang o.member o.port t.remote.length (replaceOp t o o')) o.gang))) ∧
    ∀ (x : Transit) (dst : BitVec 15), dst.toNat ≠ s.devId →
      exec (.packetForwarding x dst) s = .next (placePackets (holdPacketIn s x dst.toNat))

/-- A packet that stands in a link's buffer on its way to another device goes out on a minimal path that has its flits of the
allowance of its class, and its flits return to the far end of the link it came in on; without such a path it stays (R390,
R393). -/
def PacketsAreForwarded : Prop :=
  ∀ (s : State) (l : List InPacket) (dst : Nat) (stale : Bool), dst ≠ s.devId →
    (∀ r : ReqPacket,
      let o := transitOp r dst
      let fits := fun p => decide (o.flits ≤ (linkOf s p).allowReq)
      ((routePorts s dst).find? fits = none → forward (s, l) ⟨.req r, dst, stale⟩ = (s, l ++ [⟨.req r, dst, stale⟩])) ∧
      ∀ p, (routePorts s dst).find? fits = some p → forward (s, l) ⟨.req r, dst, stale⟩ =
        (returnFlits (sendOut (setLink s p { linkOf s p with allowReq := (linkOf s p).allowReq - o.flits })
          (.link p { o with via := some (p, (linkOf s p).peer) })) r.port.val false o.flits stale, l)) ∧
    ∀ r : RspPacket,
      let n := flitsOf r.words.length
      let fits := fun p => decide (n ≤ (linkOf s p).allowRsp)
      ((routePorts s dst).find? fits = none → forward (s, l) ⟨.rsp r, dst, stale⟩ = (s, l ++ [⟨.rsp r, dst, stale⟩])) ∧
      ∀ p, (routePorts s dst).find? fits = some p → forward (s, l) ⟨.rsp r, dst, stale⟩ =
        (returnFlits (sendOut (setLink s p { linkOf s p with allowRsp := (linkOf s p).allowRsp - n })
          (.reply p ⟨dst, r.sn.toNat, r.ok, r.words, some r.dev.toNat⟩)) r.port.val true n stale, l)

/-- The flits of a packet that leaves a link's buffer are owed to the far end it came from, or to none once the link has
another (R391). -/
def FlitsReturnToTheirSender : Prop :=
  ∀ (s : State) (port n : Nat) (rsp : Bool), returnFlits s port rsp n true = s

/-- Re-sharding plans: a start is claimed in wall time, a running plan takes a step, a killed one stops (R423 to R435). The
far address of a plan that is killed, the destination of the step at hand, is log entry 93; whose trace entry a plan's writes
take is log entry 130 (both the model's choice). -/
def PlanEvents : Prop :=
  ∀ s : State,
    (∀ (w : Word) (m : Fin 8) (x : PlanStart), (s.starts.find? fun x => x.gang = w.toNat && x.member = m.val) = some x →
      let t := { s with starts := s.starts.filter fun y => y != x }
      exec (.planClaim (.ctx w m)) s =
        .next (startPlan t (newPlan t x.area x.desc (some (x.gang, x.member)) none x.interval x.tenant x.ent
          x.far))) ∧
    (∀ (q : Fin 4096) (x : Queue) (area : Nat), getQueue s q.val = some x → x.plan = some area →
      exec (.planClaim (.queue q)) s = .next (startPlan s (newPlan s area x.desc none (some q.val) 0 x.tenant 0 false))) ∧
    ∀ (i : Fin 256) (out : StepOut) (p : Plan), s.plans[i.val]? = some p →
      (p.kill = true → p.asked = false →
        (∀ pc, p.pieces[p.cpiece]? = some pc →
          exec (.planStep i out) s = .next (stopPlan s p 2 planKilled 0 (stepDst pc p) 0).1) ∧
        (p.pieces[p.cpiece]? = none → exec (.planStep i out) s = .next (stopPlan s p 2 planKilled 0 0 0).1)) ∧
      (p.kill = false ∨ p.asked = true → exec (.planStep i out) s = .next (runStep s p out))

end Sys2Proof.Claim

/-! ## The fabric and re-sharding (chapters 16 and 17) -/

/-- R387 to R393, R396, R404, R407 to R411, R414: the states of the links and what happens to remote operations. Points the
spec leaves open here are the model's choice: log entries 64, 65 and 110. -/
def Sys2Proof.Claim.FabricEventResultsPart : Prop :=
  LinkEvents ∧ LinkControl ∧ RemoteEvents ∧ PacketsAreForwarded ∧ FlitsReturnToTheirSender

/-- R423 to R435: the claim and the steps of re-sharding plans; log entries 64, 65, 93 and 130 are the model's choice. -/
def Sys2Proof.Claim.PlanEventResultsPart : Prop := PlanEvents

/-- R387 to R393, R396, R404, R407 to R411, R414, R423 to R435: links, remote requests and replies, and plans. What an
allowance is after a fence (log entry 64), how packets in transit are numbered (65) and the FADDR of a killed plan
(93) are the model's choices. -/
def Obligations.FabricResults : Prop := FabricEventResultsPart ∧ PlanEventResultsPart

namespace Sys2Proof.Claim

/-! ### Resets and test runs (chapter 17) -/

/-- R438, R444: what every reset leaves, whatever its cause, and which memory it keeps; main says whether the main rails are
up. The device waits in its root stage unless the self test comes up and the selected image verifies: that of the active slot,
else of the other. Which image verifies as it came from the factory is log entry 131, and what a reset does while the main
rails are down entry 132 (both the model's choice). -/
def ResetOutcome : Prop :=
  ∀ (s : State) (c : ResetCause) (main : Bool) (b : Bist),
    let t := resetDevice s c main b
    t.boot = s.boot + 1 ∧ t.journal = [] ∧ t.links = [] ∧ t.gangs = [] ∧ (b.spares = [] → t.ochre.repair = s.ochre.repair) ∧
    (b.regs = [] → t.ochre.rfRepair = s.ochre.rfRepair) ∧
    (main = false ∨ b.up = false → t.stage = .root ∧ t.ready = [] ∧ t.queues = [] ∧ ∀ cl, (getCluster t cl).spad = [] ∧
      (getCluster t cl).shadow = [] ∧ ((getCluster t cl).state = .offline ∨ (getCluster t cl).state = .failed)) ∧
    (slotVerifies t.ochre.sienna (activeSlot t.ochre.sienna) = true ∨
      slotVerifies t.ochre.sienna (inactive t.ochre.sienna) = false) ∧
    (main = true → b.up = true → slotVerifies t.ochre.sienna (activeSlot t.ochre.sienna) = true → t.stage = .test) ∧
    (slotVerifies t.ochre.sienna (activeSlot t.ochre.sienna) = false → t.stage = .root) ∧
    t.ochre.retired = s.ochre.retired ∧ t.powered = main ∧ t.devId = s.ochre.nextDev ∧
    (c = .device ∨ c = .watchdog → t.mem = s.mem) ∧ (c = .power ∨ c = .thermal → t.mem = []) ∧
    (c ≠ .device → t.queues = [] ∧ t.watches = [])

/-- R364, R437, R444, R460: which event resets the device, and for which cause; the reset
input works with the main rails down too (log entry 132). What a loss of main power keeps (the error log, the sessions, the
boot count and the repair tables) until power is on again is log entry 62 (the model's choice). -/
def ResetEvents : Prop :=
  ∀ (s : State) (b : Bist),
    exec (.powerOnReset b) s = .next (resetDevice s .power true b) ∧
    exec (.resetInput b) s = .next (resetDevice s .device s.powered b) ∧
    (s.powered = true → s.stage ≠ .root → exec (.watchdogReset b) s = .next (resetDevice s .watchdog true b)) ∧
    ∃ t, exec .mainPowerLoss s = .next t ∧ t.powered = false ∧ t.mem = [] ∧ t.gangs = [] ∧ t.queues = [] ∧
      t.boot = s.boot ∧ t.ochre.log = s.ochre.log ∧ t.ochre.repair = s.ochre.repair ∧ t.ochre.rfRepair = s.ochre.rfRepair ∧ t.ochre.sessions = s.ochre.sessions

/-- R439, R442, R443, R449: a test run that ended is judged; one that ended KILLED, or ran past its time, fails its cluster,
and a fenced cluster without gangs is tested again. -/
def TestEvents : Prop :=
  ∀ (s : State) (cl : Fin 40),
    ((getCluster s cl.val).state = .testing →
      ((getCluster s cl.val).run = some 0 →
        (marchValid s cl.val = false → exec (.testRunJudged cl) s = .next (enterService (failCluster s cl.val))) ∧
        (marchValid s cl.val = true → marchRecords s cl.val = [] → exec (.testRunJudged cl) s = .next (enterService
          (setCluster s cl.val { getCluster s cl.val with state := .online, run := none }))) ∧
        (marchValid s cl.val = true → marchRecords s cl.val ≠ [] →
          (3 ≤ (getCluster s cl.val).runs → exec (.testRunJudged cl) s = .next (enterService (failCluster s cl.val))) ∧
          ((getCluster s cl.val).runs < 3 → exec (.testRunJudged cl) s = .next (enterService
            (match repairAll (marchRecords s cl.val) (repairTable s cl.val) with
              | none => failCluster s cl.val
              | some t => startRun (setRepair s cl.val t) cl.val ((getCluster s cl.val).runs + 1)))))) ∧
      (∀ n, (getCluster s cl.val).run = some (n + 1) →
        exec (.testRunJudged cl) s = .next (enterService (failCluster s cl.val))) ∧
      ((getCluster s cl.val).run = none → ∃ t, exec (.testRunTimeout cl) s = .next t ∧
        (getCluster t cl.val).state = .failed ∧ ∀ r ∈ t.ready, r.launch.test = true → r.launch.cluster ≠ cl.val)) ∧
    (s.stage = .service → (getCluster s cl.val).fenced = true → (getCluster s cl.val).state = .online →
      (∀ g ∈ s.gangs, g.cluster ≠ cl.val) → ∃ t, exec (.clusterRetest cl) s = .next t ∧
        (getCluster t cl.val).state = .testing ∧ (getCluster t cl.val).fenced = false ∧ (getCluster t cl.val).runs = 1 ∧
        t.ready = s.ready ++ [⟨0, { cluster := cl.val, image := marchId, test := true }, false⟩])

/-! ### Management messages (chapter 18) -/

/-- An established session whose peer has declared itself a management peer. -/
def Managing (s : State) (sid : BitVec 32) : Prop :=
  ∃ x, findSession s sid.toNat = some x ∧ x.established = true ∧ x.mgmt = true

/-- The reply to a message, sent on the side band. -/
def answer (s : State) (kind : Nat) (ok : Bool) (fields : List (List Byte)) : State :=
  { s with outbox := s.outbox ++ [.sideband (Config.sideMessage kind ok fields)] }

/-- R441, R450 to R453: the reports. -/
def ReportMessages : Prop :=
  ∀ (s : State) (sid : BitVec 32),
    (∃ t, exec .mgIdentify s = .next (answer t 1 true [[0x53, 0x50, 0x56, 0x2D, 0x4F, 0x33, 0x32, 0x30],
        leBytes 8 s.ochre.serial.toNat, leBytes 2 s.devId, leBytes 4 s.boot.toNat,
        [match s.stage with | .root => 1 | .test => 2 | .service => 3],
        leBytes 1 s.ochre.sienna.activeB.toNat, leBytes 1 s.ochre.own.activeB.toNat]) ∧
      t = { s with ochre := { s.ochre with own := { s.ochre.own with trial := false } } }) ∧
    (Managing s sid →
      exec (.mgSensors sid) s = .next (answer s 2 true (s.ochre.readings.map (leBytes 2))) ∧
      (∀ first, exec (.mgLogRead sid first) s =
        .next (answer s 3 true (s.ochre.log.filter fun r => decide (first.toNat ≤ fieldLe r 0 8)))) ∧
      exec (.mgClusterState sid) s = .next (answer s 4 true ((List.range 40).map fun cl =>
        [match (getCluster s cl).state with | .offline => 0 | .testing => 1 | .online => 2 | .failed => 3])) ∧
      exec (.mgRepairRead sid) s = .next (answer s 5 true ((repairWords s).map fun t => t.flatMap (leBytes 2)))) ∧
    (findSession s sid.toNat = none → exec (.mgSensors sid) s = .next (answer s 2 false []) ∧
      (∀ first, exec (.mgLogRead sid first) s = .next (answer s 3 false [])) ∧
      exec (.mgClusterState sid) s = .next (answer s 4 false []) ∧ exec (.mgRepairRead sid) s = .next (answer s 5 false []))

/-- R454: the firmware slots. A write goes to the inactive slot, and one cut short leaves it invalid; the stored minimum
security version never falls; an image on trial that does not come up gives way to the other slot, which is
verified before it runs (log entry 131). -/
def FirmwareMessages : Prop :=
  ∀ (s : State) (sid : BitVec 32) (och : Bool),
    (Managing s sid →
      (∀ bs cut, ∃ t, exec (.mgFwWrite sid och bs cut) s = .next (if cut = true then t else answer t 6 true []) ∧
        inactive (fwOf t och) = ⟨bs, !cut, false⟩ ∧ activeSlot (fwOf t och) = activeSlot (fwOf s och) ∧
        fwOf t (!och) = fwOf s (!och) ∧ (fwOf t och).minSvn = (fwOf s och).minSvn) ∧
      (fwCheck (fwOf s och) och (inactive (fwOf s och)) = true → ∃ t, exec (.mgFwActivate sid och) s =
        .next (answer t 7 true []) ∧ fwOf t och = { fwOf s och with pending := true } ∧ fwOf t (!och) = fwOf s (!och)) ∧
      (fwCheck (fwOf s och) och (inactive (fwOf s och)) = false →
        exec (.mgFwActivate sid och) s = .next (answer s 7 false [])) ∧
      ∃ t, exec (.mgFwCommit sid och) s = .next (answer t 8 true []) ∧
        (fwOf t och).minSvn = max (fwOf s och).minSvn (fieldLe (activeSlot (fwOf s och)).bytes 8 4) ∧
        (fwOf t och).activeB = (fwOf s och).activeB ∧ fwOf t (!och) = fwOf s (!och)) ∧
    (s.ochre.own.trial = true → ∃ t, exec (.fwRevert true) s = .next t ∧
      t.ochre.own.activeB = !s.ochre.own.activeB ∧ t.ochre.own.trial = false ∧ t.ochre.sienna = s.ochre.sienna) ∧
    (s.ochre.sienna.trial = true → s.powered = true → s.stage = .root → ∃ t, exec (.fwRevert false) s = .next t ∧
      t.ochre.sienna.activeB = !s.ochre.sienna.activeB ∧
      (slotVerifies t.ochre.sienna (activeSlot t.ochre.sienna) = true → t.stage ≠ .root) ∧
      (slotVerifies t.ochre.sienna (activeSlot t.ochre.sienna) = false → t.stage = .root))

/-- R451, R452, R456, R458: what a management peer sets. A power cap lies in 1,200 to 2,400 W; PROTECT and UNPROTECT take
whole GiB, zero them first, and UNPROTECT is refused while a confidential descriptor maps the range. -/
def ControlMessages : Prop :=
  ∀ (s : State) (sid : BitVec 32), Managing s sid →
    (∀ b, exec (.mgReset sid b) s = .next (resetDevice (answer s 9 true []) .device s.powered b)) ∧
    (∀ w : BitVec 16, exec (.mgPowerCap sid w) s = .next (if 1200 ≤ w.toNat ∧ w.toNat ≤ 2400
      then answer { s with ochre := { s.ochre with cap := w.toNat } } 10 true [] else answer s 10 false [])) ∧
    (∀ es, ∃ t ok, exec (.mgProvision sid es) s = .next (answer t 11 ok []) ∧
      (es = [] → t = s ∧ ok = true) ∧
      (∀ (id : BitVec 32) tn d sup, es = [.client id tn d sup] → (ok = true ↔ tn.toNat ≠ 0) ∧ (ok = true →
        t.ochre.clients = (s.ochre.clients.filter fun x => x.id ≠ id.toNat) ++ [⟨id.toNat, tn.toNat, d.toNat, sup⟩])) ∧
      (∀ tn d, es = [.tenant tn d] → ok = true ∧
        t.ochre.fabric = (s.ochre.fabric.filter fun x => x.1 ≠ tn.toNat) ++ [(tn.toNat, d.toNat)]) ∧
      ∀ id, es = [.device id] → (ok = true ↔ bitsOf id.toNat 14 5 ≤ 512) ∧ (ok = true → t.ochre.nextDev = id.toNat)) ∧
    (∀ base len : Word, s.powered = true → s.stage ≠ .root → base.toNat % 2 ^ 30 = 0 → len.toNat % 2 ^ 30 = 0 →
      0 < len.toNat → base.toNat + len.toNat ≤ 2 ^ 39 →
      (∃ t, exec (.mgProtect sid base len) s = .next (answer t 12 true []) ∧
        (∀ pa, base.toNat ≤ pa → pa < base.toNat + len.toNat → memRead t.mem pa = 0) ∧
        (∀ pa, pa < base.toNat ∨ base.toNat + len.toNat ≤ pa → memRead t.mem pa = memRead s.mem pa) ∧
        (∀ i < len.toNat / 2 ^ 30, (base.toNat + 2 ^ 30 * i, 2 ^ 30) ∈ t.ochre.prot) ∧
        ∀ u ∈ s.ochre.prot, u ∈ t.ochre.prot) ∧
      ((∀ d ∈ heldDescs s, descConf s d = true → descMaps s d base.toNat len.toNat = false) →
        ∃ t, exec (.mgUnprotect sid base len) s = .next (answer t 13 true []) ∧
          (∀ pa, base.toNat ≤ pa → pa < base.toNat + len.toNat → memRead t.mem pa = 0) ∧
          ∀ i < len.toNat / 2 ^ 30, (base.toNat + 2 ^ 30 * i, 2 ^ 30) ∉ t.ochre.prot) ∧
      ∀ d ∈ heldDescs s, descConf s d = true → descMaps s d base.toNat len.toNat = true →
        exec (.mgUnprotect sid base len) s = .next (answer s 13 false []))

/-- R455, R457, R459: attestation and sessions. At most 16 sessions are open; a tenant's first key in a session lifts its
fence; the last session that names a tenant fences it when it ends. What the attestation values are is log entry 70, and that
GET_MEASUREMENTS with index 0 gives the count of the measurements entry 72 (both the model's choice). -/
def SessionMessages : Prop :=
  ∀ (s : State) (sid : BitVec 32),
    exec .spGetCertificate s = .next (answer s 20 true [Config.certChain]) ∧
    (∀ bs, exec (.spChallenge bs) s = .next (answer s 21 true [Config.identitySign bs])) ∧
    exec (.spGetMeasurements 0) s = .next (answer s 22 true [[4]]) ∧
    exec (.spGetMeasurements 1) s = .next (answer s 22 true [sha512 (activeSlot s.ochre.own).bytes]) ∧
    exec (.spGetMeasurements 2) s = .next (answer s 22 true [sha512 (activeSlot s.ochre.sienna).bytes]) ∧
    (∀ (bs : List Byte) (p : BitVec 8), s.ochre.sessions.length < 16 → findSession s sid.toNat = none →
      1 ≤ p.toNat → p.toNat ≤ 60 → ∃ t sh, exec (.spKeyExchange sid bs p) s =
        .next (answer t 23 true [sh, Config.identitySign bs]) ∧
        t.ochre.sessions = s.ochre.sessions ++ [⟨sid.toNat, false, false, none, p.toNat, [], 0, []⟩]) ∧
    (∀ bs p, 16 ≤ s.ochre.sessions.length → exec (.spKeyExchange sid bs p) s = .next (answer s 23 false [])) ∧
    ∀ x, findSession s sid.toNat = some x →
      (x.established = false → ∀ cert bs, Config.finishVerify x.id cert bs = true →
        ∃ t, exec (.spFinish sid cert bs) s = .next (answer t 24 true []) ∧
          findSession t sid.toNat = some { x with established := true, cert := cert }) ∧
      (x.established = true →
        (∃ t, exec (.spKeyUpdate sid) s = .next (answer t 25 true []) ∧
          findSession t sid.toNat = some { x with gen := x.gen + 1 }) ∧
        exec (.spHeartbeat sid) s = .next (answer s 26 true []) ∧
        (∀ (tn : BitVec 12) (key : BitVec 32) (bs : List Byte), x.mgmt = false → tn.toNat ≠ 0 →
          (x.tenant = none ∨ x.tenant = some tn.toNat) → bs.length = 32 → x.keys.length < 64 →
          ∃ t, exec (.mgSetKey sid tn key bs) s = .next (answer t 14 true []) ∧ tn.toNat ∉ t.confFence ∧
            findSession t sid.toNat = some { x with
              tenant := some tn.toNat
              keys := (x.keys.filter fun k => k.1 ≠ key.toNat) ++ [(key.toNat, bs)] }) ∧
        ∃ t, exec (.spEndSession sid) s = .next (answer t 27 true []) ∧ exec (.sessionExpiry sid) s = .next t ∧
          findSession t sid.toNat = none ∧
          ∀ tn, x.tenant = some tn → (∀ y ∈ s.ochre.sessions, y.id ≠ sid.toNat → y.established = true → y.tenant ≠ some tn) →
            tn ∈ t.confFence)

/-- R383, R452, R454: samples of the sensors, the lock of the clock, and a reset of Ochre. A reading at its throttle level
takes 100 MHz off the clock, never below 1,000 MHz; one 10 °C above it resets the device. -/
def EnvironmentEvents : Prop :=
  ∀ (s : State),
    (∀ (rs : List (BitVec 16)) (b : Bist), ∃ t, exec (.sensorSample rs b) s = .next t ∧
      (s.powered = false → t.ochre.readings = rs.map (·.toNat)) ∧
      (s.powered = true →
        ((∃ (i : Nat) (h : i < rs.length), (i < 40 ∧ 105 ≤ rs[i].toNat) ∨ (40 ≤ i ∧ i < 48 ∧ 100 ≤ rs[i].toNat) ∨
            (48 ≤ i ∧ i < 52 ∧ 85 ≤ rs[i].toNat)) →
          t = resetDevice { s with ochre := { s.ochre with readings := rs.map (·.toNat) } } .thermal true b) ∧
        (rs.length = 77 → (∀ (i : Nat) (h : i < rs.length), (i < 40 → rs[i].toNat < 105) ∧
            (40 ≤ i → i < 48 → rs[i].toNat < 100) ∧ (48 ≤ i → i < 52 → rs[i].toNat < 85)) →
          ((∃ (i : Nat) (h : i < rs.length), i < 40 ∧ 95 ≤ rs[i].toNat) →
            t.ochre.clockMHz = max 1000 (s.ochre.clockMHz - 100)) ∧
          (∀ h : 76 < rs.length, s.ochre.cap < rs[76].toNat → t.ochre.clockMHz = max 1000 (s.ochre.clockMHz - 100)) ∧
          ((∀ (i : Nat) (h : i < rs.length), i < 52 → rs[i].toNat ≤ 70) → (∀ h : 76 < rs.length, 100 * rs[76].toNat ≤ 95 * s.ochre.cap) →
            99 ≤ s.ochre.cool → t.ochre.clockMHz = min 2500 (s.ochre.clockMHz + 100))))) ∧
    (s.powered = true → s.stage ≠ .root → ∀ (sec : BitVec 48) (ns : BitVec 32), ns.toNat < 1000000000 →
      exec (.ptpLock sec ns) s = .next { s with clockSec := sec.toNat, clockNs := ns.toNat, ptpLock := true }) ∧
    ∃ t, exec .ochreReset s = .next t ∧ t.ochre.sessions = [] ∧
      (s.ochre.own.pending = true → t.ochre.own.activeB = !s.ochre.own.activeB ∧ t.ochre.own.pending = false) ∧
      (s.ochre.own.pending = false → t.ochre.own = s.ochre.own)

end Sys2Proof.Claim

/-! ## The device as a whole (chapters 17 and 18) -/

/-- R364, R437 to R444, R449, R460: resets, what they lose and keep, and the test runs of clusters; log entries 62, 131 and 132
are the model's choice. -/
def Obligations.ResetAndTestEvents : Prop := ResetOutcome ∧ ResetEvents ∧ TestEvents

/-- R441, R450 to R454, R456, R458: management messages. -/
def Obligations.ManagementResults : Prop := ReportMessages ∧ FirmwareMessages ∧ ControlMessages

/-- R383, R452, R454, R455, R457, R459: attestation, sessions, samples of the sensors and Ochre's own reset; log entries 70 and
72 are the model's choice. -/
def Obligations.SessionAndSensorResults : Prop := SessionMessages ∧ EnvironmentEvents

namespace Sys2Proof.Claim

/-- Memory holds `bs` at physical address `pa`, and every other byte as before. -/
def Wrote (s t : State) (pa : Nat) (bs : List Byte) : Prop :=
  ∀ a, memRead t.mem a = if pa ≤ a ∧ a < pa + bs.length then bs.getD (a - pa) 0 else memRead s.mem a

/-! ### Tasks (chapters 04, 13 and 15) -/

/-- R377: a ready launch that is dispatched leaves the ready list. The next dispatch number and the boot count make its
identity. Every member begins at its entry point, at logical cycle 0, in the task's mode, its queues empty, its registers 0,
and with the ring of its task; a block of its slot that another image still owns is absent. -/
def FreshDispatch : Prop :=
  ∀ (s : State) (r : Ready) (p : Place) (far : List FarMember) (i : Image),
    r.launch.resume = false → findImage s r.launch.image = some i →
    (r.launch.test = false → descOk s r.launch.xdesc = true ∧ descTenant s r.launch.xdesc ≠ 0) →
    let t := dispatchAt s r p far
    t.ready = s.ready.erase r ∧ t.dispatchNo = s.dispatchNo + 1 ∧
    ∃ g ∈ t.gangs, g.id = s.boot.toNat * 2 ^ 32 + (s.dispatchNo + 1) % 2 ^ 32 ∧ g.cluster = p.cluster ∧ g.slot = p.slot ∧
      g.prio = r.launch.prio ∧ g.svc = r.launch.svc ∧ g.task = i.task ∧ g.lc = 0 ∧ g.killed = none ∧ g.fromImage = none ∧
      g.budget = min i.task.budget s.kbudget ∧ g.members.length = p.cores.length ∧
      ∀ m core, p.cores[m]? = some core → ∃ pS pV segs, getCtx g m =
        { core := core
          pc := i.task.entries.getD m 0
          olbase := i.task.olBase / 8
          olcap := i.task.olCap
          presS := pS
          presV := pV
          segs := segs }

/-- R178, R310, R377: where no image owns a block of the allocation any more, the scratchpad of a fresh task holds the image's
SPAD bytes, all of it is present, and so is every register block whose slot no image owns. -/
def FreshStorage : Prop :=
  ∀ (s : State) (r : Ready) (p : Place) (far : List FarMember) (i : Image),
    r.launch.resume = false → findImage s r.launch.image = some i → r.launch.test = false →
    descOk s r.launch.xdesc = true → descTenant s r.launch.xdesc ≠ 0 →
    i.task.spadSize % 4096 = 0 → i.spad.length = i.task.spadSize →
    (∀ b < i.task.spadSize / 4096, spadOwner s p.cluster (i.task.spadBase / 4096 + b) = none) →
    (∀ core ∈ p.cores, ∀ b < 9, slotOwner s p.cluster core p.slot b = none) →
    let t := dispatchAt s r p far
    (∀ k < i.task.spadSize, memRead (getCluster t p.cluster).spad (i.task.spadBase + k) = i.spad.getD k 0) ∧
    (∀ a, a < i.task.spadBase ∨ i.task.spadBase + i.task.spadSize ≤ a →
      memRead (getCluster t p.cluster).spad a = memRead (getCluster s p.cluster).spad a) ∧
    t.mem = s.mem ∧
    ∃ g ∈ t.gangs, g.id = s.boot.toNat * 2 ^ 32 + (s.dispatchNo + 1) % 2 ^ 32 ∧ g.tenant = descTenant s r.launch.xdesc ∧
      g.absent = [] ∧ ∀ m < p.cores.length, (getCtx g m).presS = true ∧ ∀ j < 8, vget false (getCtx g m).presV j = true

/-- R326, R379: a launch that resumes an image. One that can no longer supply every saved copy is set INCOMPLETE, and the
launch leaves the ready list without a gang; else the members come back as their records hold them, the clock goes on from
LCOUNT, every block of the task's scratchpad is absent, and the image is RESUMED. -/
def ResumeDispatch : Prop :=
  ∀ (s : State) (r : Ready) (p : Place) (far : List FarMember),
    r.launch.resume = true → r.launch.test = false → descOk s r.launch.xdesc = true → descTenant s r.launch.xdesc ≠ 0 →
    let t := dispatchAt s r p far
    let ib := r.launch.image
    t.ready = s.ready.erase r ∧
    (canResume s ib = false → t.gangs.map (fun g => g.id) = s.gangs.map fun g => g.id) ∧
    ∀ ms, canResume s ib = true → savedMembers s ib far ((List.range p.cores.length).zip p.cores) = some ms →
      hdrNat t ib 7 1 = 3 ∧ t.dispatchNo = s.dispatchNo + 1 ∧
      ∃ g ∈ t.gangs, g.id = s.boot.toNat * 2 ^ 32 + (s.dispatchNo + 1) % 2 ^ 32 ∧ g.lc = hdrNat s ib 40 8 ∧
        g.fromImage = some ib ∧ g.cluster = p.cluster ∧ g.slot = p.slot ∧ g.killed = none ∧
        g.absent = List.range (g.task.spadSize / 4096) ∧ g.members.length = ms.length ∧
        ∀ m c, ms[m]? = some c → ∃ lakes, getCtx g m = { c with lakes := lakes }

/-- R310, R314: a member read back from an image has none of its register blocks and tiles present. -/
def ResumedMembersAreAbsent : Prop :=
  ∀ (s : State) (ib m core : Nat) (far : FarMember) (c : Ctx), savedMember s ib m core far = some c →
    c.core = core ∧ c.presS = false ∧ (∀ j < 8, vget false c.presV j = false) ∧
    ∀ tile < 16, (vget {} c.tiles tile).pres = false

/-- R378: a task that completes is gone with all its contexts; it leaves the completion record at CREC and counts its
completion word down by one. -/
def CompletionEffects : Prop :=
  (∀ (s : State) (g : Gang), findGang (completeGang s g) g.id = none) ∧
  (∀ (s : State) (l : Launch) (gid : Nat) (time : Nat × Nat) (status : Nat) (detail : Word) (pa : Nat),
    l.crec ≠ 0 → l.cw = 0 → wordRange s l.qdesc l.crec 64 = .ok [(pa, 64)] →
    let t := completeLaunch s l gid time status detail
    Wrote s t pa (leBytes 4 status ++ zeros 4 ++ leBytes 8 detail.toNat ++ leBytes 8 gid ++ leBytes 6 time.1 ++ zeros 2 ++
      leBytes 4 time.2 ++ zeros 4 ++ leBytes 6 t.clockSec ++ zeros 2 ++ leBytes 4 t.clockNs ++ zeros 12)) ∧
  (∀ (s : State) (l : Launch) (gid : Nat) (time : Nat × Nat) (status : Nat) (detail : Word) (pa : Nat),
    l.crec = 0 → l.cw ≠ 0 → wordRange s l.qdesc l.cw 8 = .ok [(pa, 8)] →
    Wrote s (completeLaunch s l gid time status detail) pa (leBytes 8 (leNat (memReads s.mem pa 8) + (2 ^ 64 - 1)))) ∧
  ∀ (s : State) (l : Launch) (gid : Nat) (time : Nat × Nat) (status : Nat) (detail : Word),
    l.crec = 0 → l.cw = 0 → (completeLaunch s l gid time status detail).mem = s.mem

/-- R312: the fields of the header that a pre-emption writes. -/
def SavedHeader : Prop :=
  ∀ (s : State) (g : Gang) (sp : SavePool) (used : Nat), g.members.length ≤ 8 →
    let field := fieldLe (headerBytes s g sp used)
    (headerBytes s g sp used).length = 2048 ∧
    field 0 4 = 0x31474D49 ∧ field 4 2 = 1 ∧ field 6 1 = g.members.length ∧ field 7 1 = 0 ∧ field 8 8 = g.id % 2 ^ 64 ∧
    field 16 8 = g.launch.xdesc % 2 ^ 64 ∧ field 24 8 = sp.sdesc % 2 ^ 64 ∧ field 33 1 = g.slot % 2 ^ 8 ∧
    field 34 1 = g.cluster % 2 ^ 8 ∧ field 36 2 = s.devId % 2 ^ 16 ∧ field 40 8 = g.lc % 2 ^ 64 ∧
    field 48 8 = sp.sabase % 2 ^ 64 ∧ field 56 8 = sp.sasize % 2 ^ 64 ∧ field 64 8 = used % 2 ^ 64 ∧
    field 72 4 = s.boot.toNat % 2 ^ 32 ∧
    (∀ m < g.members.length, field (80 + 4 * m) 4 = cmapOf (getCtx g m) % 2 ^ 32) ∧
    ∀ k < 256, (headerBytes s g sp used).getD (1024 + k) 0 = g.task.bytes.getD k 0

/-- R317, R379, R462: a pre-emption that finds room in its pool ends the gang, and the image owns its storage: every vector
block, and every block of its scratchpad, that is present; one that does not is a kill, which changes no memory. -/
def SaveEffects : Prop :=
  ∀ (s : State) (g : Gang) (sp : SavePool) (why : Nat), findGang s g.id = some g →
    let t := (saveGang s g sp why).1
    ((saveGang s g sp why).2 = true →
      findGang t g.id = none ∧
      (∀ m < g.members.length, ∀ j < 8, vget true (getCtx g m).presV j = true → vget false (getCtx g m).touchV j = true →
        ∃ o ∈ t.ownedRegs, o.cluster = g.cluster ∧ o.core = (getCtx g m).core ∧ o.slot = g.slot ∧ o.ibase = sp.ibase ∧
          o.member = m ∧ o.block = j + 1 ∧ o.data = regBlock (getCtx g m) (j + 1)) ∧
      ∀ b < g.task.spadSize / 4096, b ∉ g.absent →
        (g.task.spadBase / 4096 + b, sp.ibase, b) ∈ (getCluster t g.cluster).owned) ∧
    ((saveGang s g sp why).2 = false → t.mem = s.mem ∧ ∃ v, findGang t g.id = some
      { g with kill := some ⟨0x000B, 6, 0, v, 0⟩, preempt := none })

/-- R35, R36, R137: the bytes of a vector block hold its registers, so that a block which is read back is what was saved. -/
def BlocksKeepTheirRegisters : Prop :=
  ∀ (c d : Ctx) (j k : Nat), j < 8 → k < 4 → 4 * j + k ≠ 31 →
    vget 0 (setRegBlock d (j + 1) (regBlock c (j + 1))).v (4 * j + k) = vget 0 c.v (4 * j + k)

/-- R308, R310: the pull of a vector block whose saved copy is still in the register file of this device: the registers take
its bytes, the block is present, its pull has ended and the image owns the storage no more. -/
def PullEffects : Prop :=
  ∀ (s : State) (g : Gang) (ib m j : Nat) (out : PullOut) (o : OwnedRegs), findGang s g.id = some g → m < g.members.length →
    j < 8 → findOwnedRegs s ib m (1 + j) = some o →
    let t := pullFrom s g ib (3, m, j) out
    findOwnedRegs t ib m (1 + j) = none ∧ t.mem = s.mem ∧
    ∃ h, findGang t g.id = some h ∧ (3, m, j) ∉ h.pulls ∧ (getCtx h m).v = (setRegBlock (getCtx g m) (j + 1) o.data).v ∧
      vget false (getCtx h m).presV j = true

/-- R308, R310, R320, R324: a block that is written out for another gang. Where its copy stands at its location already, the
storage only changes hands and memory stays; where the location cannot be written, a record in the supervisor's queue asks for
help and the image keeps the block; a block of which the device holds no bytes needs nothing. -/
def WriteOutEffects : Prop :=
  ∀ (s : State) (ib kind m idx claimer : Nat) (free : Bool),
    (residentData s ib kind m idx = none → writeOut s ib kind m idx free claimer = s) ∧
    ∀ d, residentData s ib kind m idx = some d → blockBusy s ib kind m idx = false →
      ticketFor s .saveArea ib kind m idx = false →
      (mapBit s ib true kind m idx = true →
        (writeOut s ib kind m idx false claimer = s) ∧ (writeOut s ib kind m idx true claimer).mem = s.mem) ∧
      (mapBit s ib true kind m idx = false →
        (∀ t, writeBlock s ib kind m idx d.1 d.2 = .ok t →
          (writeOut s ib kind m idx free claimer).mem = t.mem ∧ (kind = 2 ∨ kind = 3 ∨ kind = 5 → free = true →
            residentData (writeOut s ib kind m idx free claimer) ib kind m idx = none)) ∧
        ∀ f, writeBlock s ib kind m idx d.1 d.2 = .error f →
          let t := writeOut s ib kind m idx free claimer
          t.ownedRegs = s.ownedRegs ∧ t.ownedTiles = s.ownedTiles ∧ t.clusters = s.clusters ∧
          ⟨s.nextTicket, .saveArea, ib, m, kind, idx, 0⟩ ∈ t.tickets)

/-- R313, R320: a block is written at its place in its group, whose virtual address the image's location table gives; its bit
in the map of written copies is set, and beside the header no other byte of memory changes. -/
def BlockWrites : Prop :=
  ∀ (s : State) (ib m idx kts pa : Nat) (bs : List Byte),
    let writes := fun (kind entry place n : Nat) =>
      let va := hdrNat s ib (entry + 8) 8 + place
      bs.length = n → hdrNat s ib (entry + 3) 1 % 2 = 1 →
      saveSpace s (hdrNat s ib 24 8) va n ((hdrNat s ib 32 1).testBit 1) = .ok () →
      xlatRange s (hdrNat s ib 24 8) va n true = .ok [(pa, n)] →
      ∃ t, writeBlock s ib kind m idx bs kts = .ok t ∧ mapBit t ib true kind m idx = true ∧
        ∀ a, a < ib ∨ ib + 2048 ≤ a →
          memRead t.mem a = if pa ≤ a ∧ a < pa + n then bs.getD (a - pa) 0 else memRead s.mem a
    (m < 8 → writes 2 (256 + 16 * (2 + 4 * m)) 0 512) ∧
    (m < 8 → idx < 8 → writes 3 (256 + 16 * (3 + 4 * m)) (1024 * idx) 1024) ∧
    (idx < 2048 → writes 5 256 (4096 * idx) 4096)

/-- R324: what RETRY does with a ticket: it is used up, and the pull or the page walk it stands for is asked for again. -/
def TicketEffects : Prop :=
  ∀ (s : State) (t : Ticket) (g : Gang), findGang s t.gang = some g →
    (t.code = .pullArea → (∀ x ∈ s.tickets, x.ticket = t.ticket ∨ x.gang ≠ t.gang) →
      ∃ h, findGang (retryTicket s t) t.gang = some h ∧ (t.kind, t.member, t.index) ∈ h.pulls ∧
        ∀ x ∈ (retryTicket s t).tickets, x.ticket ≠ t.ticket) ∧
    (t.code = .resumeTranslation → ∃ h, findGang (retryTicket s t) t.gang = some h ∧
      h.walks = g.walks ++ [(t.member, t.index)] ∧ ∀ x ∈ (retryTicket s t).tickets, x.ticket ≠ t.ticket)

/-! ### Plans and remote requests (chapters 16 and 17) -/

/-- R432 to R435: what a start that ends at once tells its starter: the status of the context, or the RESHARD packet's queue,
which is fenced on a refusal and on a failed translation and goes on otherwise. It changes neither memory nor the plans. -/
def StartIsTold : Prop :=
  ∀ (s : State) (p : Plan) (state cause : Nat),
    let t := tellRefusal s p state cause
    t.mem = s.mem ∧ t.plans = s.plans ∧
    (∀ g m, p.starter = some (g, m) → p.queue = none → (findGang s g).isSome = true →
      ∃ r, rsStatOf t g m = some r ∧ r.state = state ∧ r.cause = cause ∧ r.steps = p.steps ∧
        (state = 6 → r.refused = true)) ∧
    ∀ q x, p.starter = none → p.queue = some q → getQueue s q = some x → x.plan = some p.area →
      t = if state = 6 then fenceQueue s q 3 else if state = 5 ∧ cause = 0x26 then fenceQueue s q 5 else unblockQueue s q

/-- The state with the races reported that a write of a plan meets: they are those of the context that started it, while its
task runs (R305, R430). -/
def planRaces (s : State) (p : Plan) (va pa n : Nat) : State :=
  match planMember s p with
  | none => s
  | some x => engineFarRaces s x.1 x.2 va [(pa, n)] true 4

/-- R423: the claim of a plan, by what the start finds. -/
def PlanStartEffects : Prop :=
  ∀ (s : State) (p : Plan),
    (∀ c, wordRange s p.desc p.area 256 = .error c → startPlan s p = tellRefusal s p 5 0x26) ∧
    ∀ rs h, wordRange s p.desc p.area 256 = .ok rs → cleanRead s p.desc p.area 256 = .ok h →
      (256 ≤ s.plans.length → startPlan s p = tellRefusal s p 6 0x33) ∧
      (s.plans.length < 256 →
        (planHeaderOk h = false → ∀ pa, wordRange s p.desc (p.area + 6) 2 = .ok [(pa, 2)] →
          Wrote (planRaces s p (p.area + 6) pa 2) (startPlan s p) pa [4, 0x20]) ∧
        (planHeaderOk h = true →
          (fieldLe h 6 1 = 3 ∨ fieldLe h 6 1 = 4 → startPlan s p = tellRefusal s p 6 0x31) ∧
          (fieldLe h 6 1 = 1 → fieldLe h 48 4 = s.boot.toNat → startPlan s p = tellRefusal s p 6 0x30) ∧
          (fieldLe h 6 1 = 0 → startPlan s p = claimRunning s p h false) ∧
          (fieldLe h 6 1 = 2 → startPlan s p = claimRunning s p h true) ∧
          (fieldLe h 6 1 = 1 → fieldLe h 48 4 ≠ s.boot.toNat → startPlan s p = claimRunning s p h true)))

/-- R423, R424, R425: a claimed plan runs from cursor 0, or from the cursor its area keeps. -/
def ClaimedPlansRun : Prop :=
  ∀ (s : State) (p : Plan) (h : List Byte) (keep : Bool), (∀ x ∈ s.plans, x.identity ≠ p.identity) →
    ∀ x ∈ (claimRunning s p h keep).plans, x.identity = p.identity →
      x.cpiece = (if keep = true then fieldLe h 64 4 else 0) ∧ x.crow = (if keep = true then fieldLe h 72 8 else 0) ∧
      x.coff = (if keep = true then fieldLe h 80 4 else 0) ∧ x.steps = (if keep = true then fieldLe h 88 8 else 0) ∧
      x.cw = fieldLe h 24 8

/-- R425, R426: one step of a plan. A destination that does not translate stops it before anything is read, the plan is
RUNNING no more; a step whose source is here and can be read writes its bytes at the destination, and the cursor passes it. -/
def PlanStepEffects : Prop :=
  (∀ (s : State) (p : Plan) (out : StepOut) (pc : Piece), p.pieces[p.cpiece]? = some pc →
    let sa := (rowSrc pc p.crow + p.coff) % 2 ^ 64
    let da := (rowDst pc p.crow + p.coff) % 2 ^ 64
    let n := stepLen pc p.crow p.coff
    (∀ c, xlatRange s p.desc da n true = .error c →
      ∀ x ∈ (runStep s p out).plans, x.identity ≠ p.identity) ∧
    ∀ rs bs t, xlatRange s p.desc da n true = .ok rs → pc.sdev = s.devId → out ≠ .memError →
      cleanRead s p.desc sa n = .ok bs → planWrite (readRaces s p pc sa n) p da bs = .ok t →
      runStep s p out = stepDone t p pc n) ∧
  (∀ (s t : State) (p : Plan) (va pa : Nat) (bs : List Byte), wordRange s p.desc va bs.length = .ok [(pa, bs.length)] →
    planWrite s p va bs = .ok t → Wrote (planRaces s p va pa bs.length) t pa bs) ∧
  ∀ (p : Plan) (pc : Piece) (n : Nat),
    (nextCursor p pc n).steps = p.steps + 1 ∧
    (p.coff + n < rowLen pc → nextCursor p pc n = { p with steps := p.steps + 1, coff := p.coff + n }) ∧
    (rowLen pc ≤ p.coff + n → p.crow + 1 < pc.nrow →
      nextCursor p pc n = { p with steps := p.steps + 1, coff := 0, crow := p.crow + 1 }) ∧
    (rowLen pc ≤ p.coff + n → pc.nrow ≤ p.crow + 1 →
      nextCursor p pc n = { p with steps := p.steps + 1, coff := 0, crow := 0, cpiece := p.cpiece + 1 })

/-- R396, R407: the request of another device, once nothing holds it back. One whose number is remembered gets the same answer
again and changes no memory; without a descriptor for the sender's tenant it is refused and changes no memory; a store writes
its words, a load answers the words that stand there, an atomic answers the old word. What is done is remembered. -/
def RequestEffects : Prop :=
  ∀ (s : State) (src : Nat) (o : RemOp), src ≠ s.devId → o.src = some src →
    (∀ e behind out, remembered s src o.seq = some e →
      handleRequest s src o behind out =
        (placePackets { s with replies := s.replies ++ [⟨src, o.seq, e.ok, e.words, none⟩] }, true) ∧
      (handleRequest s src o behind out).1.mem = s.mem) ∧
    (remembered s src o.seq = none → tooLate s src o = false → s.stage = .service →
      let t := (handleRequest s src o false .ok).1
      let answered := fun ok ws => ∃ e, remembered t src o.seq = some e ∧ e.ok = ok ∧ e.words = ws
      (fabricDesc s o.tenant = none → o.kind = .store ∨ o.kind = .load → t.mem = s.mem ∧ answered false []) ∧
      ∀ d pa n, fabricDesc s o.tenant = some d → remoteOk o.addr.toNat (n / 8) = true → o.addr.toNat.testBit 47 = false →
        (o.kind = .store → n = 8 * o.words.length → xlatRange s d (o.addr.toNat % 2 ^ 47) n true = .ok [(pa, n)] →
          Wrote s t pa (o.words.flatMap fun w => leBytes 8 w.toNat) ∧ answered true []) ∧
        (o.kind = .load → n = 8 * o.nrep → xlatRange s d (o.addr.toNat % 2 ^ 47) n false = .ok [(pa, n)] →
          t.mem = s.mem ∧ answered true ((List.range o.nrep).map fun k =>
            BitVec.ofNat 64 (leNat (memReads s.mem (pa + 8 * k) 8)))) ∧
        ∀ op, o.kind = .atomic op → n = 8 → xlatRange s d (o.addr.toNat % 2 ^ 47) 8 true = .ok [(pa, 8)] →
          Wrote s t pa (leBytes 8 (fxNew op o.words (leNat (memReads s.mem pa 8)))) ∧
            answered true [BitVec.ofNat 64 (leNat (memReads s.mem pa 8))])

end Sys2Proof.Claim

/-! ## What these events do to tasks, images and memory -/

/-- R308, R310, R312 to R314, R317, R324, R326, R377 to R379, R462: what dispatch, completion, pre-emption, resumption, pulls,
write-outs and tickets leave behind. -/
def Obligations.TaskEffects : Prop :=
  FreshDispatch ∧ FreshStorage ∧ ResumeDispatch ∧ ResumedMembersAreAbsent ∧ CompletionEffects ∧ SavedHeader ∧ SaveEffects ∧
  BlocksKeepTheirRegisters ∧ PullEffects ∧ WriteOutEffects ∧ BlockWrites ∧ TicketEffects

/-- R396, R407, R423 to R426, R432 to R435: what the start and the steps of a plan, and the request of another device, do to
their starter, their sender and memory. -/
def Obligations.PlanAndRequestEffects : Prop :=
  StartIsTold ∧ PlanStartEffects ∧ ClaimedPlansRun ∧ PlanStepEffects ∧ RequestEffects

namespace Sys2Proof.Claim

/-! ### Traps, calls, interrupts and kills (chapter 14) -/

/-- The table of R339 and R415: each code, its number, and whether it is replayable. -/
def codeTable : List (Code × Nat × Bool) :=
  [(.illegalEncoding, 0x0001, false), (.privilege, 0x0002, false), (.scheduleViolation, 0x0003, false),
   (.nonuniformBranch, 0x0004, false), (.instrAddress, 0x0005, false), (.budgetExceeded, 0x0006, false),
   (.registerParity, 0x0007, false), (.serviceCall, 0x0008, false), (.doubleFault, 0x0009, false), (.kill, 0x000A, false),
   (.preemptFailed, 0x000B, false), (.localBounds, 0x0101, false), (.localAlign, 0x0102, false),
   (.touchFault, 0x0103, true), (.accessUntouched, 0x0104, false), (.farAlign, 0x0105, false),
   (.farUncorrectable, 0x0106, false), (.race, 0x0107, false), (.staleLake, 0x0201, true), (.lakeQuota, 0x0202, true),
   (.lakeSource, 0x0203, true), (.lakeRevoked, 0x0204, false), (.lakeOperand, 0x0205, false), (.lakeLost, 0x0206, false),
   (.copyProgram, 0x0301, false), (.copyTranslation, 0x0302, false), (.copyUncorrectable, 0x0303, false),
   (.keyExpired, 0x0304, false), (.copyBounds, 0x0305, false), (.copyAuth, 0x0306, false), (.copyTarget, 0x0307, false),
   (.pullPeerLost, 0x0401, false), (.pullUncorrectable, 0x0402, false), (.saveArea, 0x0403, false), (.pullArea, 0x0404, false),
   (.resumeTranslation, 0x0405, false), (.phaseArea, 0x0406, false), (.completionWord, 0x0407, false),
   (.collectiveAborted, 0x0501, false), (.fabricProtocol, 0x0502, false), (.remoteAddress, 0x0503, false),
   (.fabricStateLost, 0x0504, false), (.linkFenced, 0x0505, false), (.linkDown, 0x0506, false),
   (.spadUncorrectable, 0x0601, false), (.accUncorrectable, 0x0602, false)]

/-- Does a trap come before another by R334: ILLEGAL_ENCODING, then the fatal codes, then the replayable ones; then the lower
member; then the lower slot. -/
def Precedes (t u : TrapReq) : Prop :=
  let cls := fun (c : Code) => if c = .illegalEncoding then 0
    else if c = .touchFault ∨ c = .staleLake ∨ c = .lakeQuota ∨ c = .lakeSource then 2 else 1
  cls t.code < cls u.code ∨ (cls t.code = cls u.code ∧ (t.member < u.member ∨ (t.member = u.member ∧ t.slot < u.slot)))

/-- The service vector of a member's context slot: what a write of ksvec left there, else what the service firmware's install
left in every slot. -/
def serviceVector (s : State) (g : Gang) (m : Nat) : Word :=
  ((getCore s g.cluster (getCtx g m).core).ksvec.toList.getD g.slot none).getD s.svcVec

/-- A member after service was entered with a class, a code, a trap value and a return address (R340). -/
def entered (v : Word) (cls code : Nat) (tval : Word) (ret : Nat) (c : Ctx) : Ctx :=
  { c with
    kcause := BitVec.ofNat 64 (cls * 65536 + code)
    ktval := tval
    kepc := BitVec.ofNat 64 ret
    mode := if c.mode = 1 then 3 else 2
    hfirst := false
    hpc := v.toNat % 16384 / 4 * 4 }

/-- R207: what the second halves of reads still due make of a gang that stops: with none due nothing changes; afterwards none is
due, each second half of an mx.ld stands in its tile as scratchpad holds it now, and no other field of a member changes. -/
def StopsWithItsReads : Prop :=
  ∀ (s : State) (g : Gang),
    ((∀ c ∈ g.members, c.reads = []) → stopReads s g = (s, g)) ∧
    (stopReads s g).2.members.length = g.members.length ∧ (stopReads s g).2.lc = g.lc ∧ (stopReads s g).2.id = g.id ∧
    (stopReads s g).1.mem = s.mem ∧ (stopReads s g).1.gangs = s.gangs ∧
    ∀ m, m < g.members.length →
      let c := getCtx g m
      let d := getCtx (stopReads s g).2 m
      d = { c with
        reads := []
        acc := d.acc } ∧
      ∀ x, c.reads = [x] → x.planes = 0 →
        d.acc = (accFill c (2048 * x.tile + 1024) ((List.range 1024).map fun k =>
          BitVec.ofNat 32 (fieldLe (spadReads s g.cluster x.addr 4096) (4 * k) 4))).acc

/-- R334, R338 to R340: taking the trap of a bundle, on the member whose slot raised it. -/
def TrapTaken : Prop :=
  ∀ (s : State) (g : Gang) (t : TrapReq) (num : Nat) (rep : Bool), findGang s g.id = some g →
    (t.code, num, rep) ∈ codeTable →
    let c := getCtx g t.member
    let v := serviceVector s g t.member
    (c.mode < 2 → rep = true → v.getLsbD 63 = true →
      takeTrap s g.id t = putGang (stopReads s g).1
        (modCtx (stopReads s g).2 t.member (entered v 1 num t.val (if c.mode = 0 then c.pc else c.hpc)))) ∧
    (c.mode < 2 → rep = true → v.getLsbD 63 = false → takeTrap s g.id t =
      killGang s g ⟨num, 0, 0, t.val, t.member⟩ t.code (if c.mode = 0 then c.pc else c.hpc)) ∧
    (c.mode < 2 → rep = false → takeTrap s g.id t =
      killGang s g ⟨num, 0, 0, t.val, t.member⟩ t.code (if c.mode = 0 then c.pc else c.hpc)) ∧
    (2 ≤ c.mode → takeTrap s g.id t =
      killGang s g ⟨0x0009, 0, 0, BitVec.ofNat 64 num, t.member⟩ .doubleFault c.kepc.toNat)

/-- R335, R338, R340: taking a service call. That a call made in service code is a double fault is the model's choice (log entry
88). -/
def CallTaken : Prop :=
  ∀ (s : State) (g : Gang) (m : Nat) (tval : Word) (ret : Nat), findGang s g.id = some g →
    let v := serviceVector s g m
    let u := { g with calls := g.calls.filter fun e => e.1 ≠ m }
    ((getCtx g m).mode < 2 → v.getLsbD 63 = true →
      takeCall s g.id m tval ret = putGang (stopReads s u).1 (modCtx (stopReads s u).2 m (entered v 2 0x0008 tval ret))) ∧
    ((getCtx g m).mode < 2 → v.getLsbD 63 = false →
      takeCall s g.id m tval ret = killGang s u ⟨0x0008, 0, 0, tval, m⟩ .serviceCall ret) ∧
    (2 ≤ (getCtx g m).mode → takeCall s g.id m tval ret =
      killGang s u ⟨0x0009, 0, 0, 0x0008, m⟩ .doubleFault (getCtx g m).kepc.toNat)

/-- R345 to R347: a user-level interrupt, and the two returns. -/
def InterruptsAndReturns : Prop :=
  (∀ (c : Ctx) (b : Nat), b < 7 → c.mode = 0 → c.kuie.getLsbD 7 = true → c.kuip.getLsbD b = true → c.kuie.getLsbD b = true →
    (∀ k < b, c.kuip.getLsbD k = false ∨ c.kuie.getLsbD k = false) → pendingSrc c = some b) ∧
  (∀ c : Ctx, (c.mode ≠ 0 ∨ c.kuie.getLsbD 7 = false ∨ ∀ k < 7, c.kuip.getLsbD k = false ∨ c.kuie.getLsbD k = false) →
    pendingSrc c = none) ∧
  (∀ (g : Gang) (m b : Nat), m < g.members.length → b < 7 → ∃ c, getCtx (takeUserInterrupt g m b) m = c ∧
    c.mode = 1 ∧ c.hpc = (getCtx g m).kuvec.toNat ∧ c.kuepc = BitVec.ofNat 64 (getCtx g m).pc ∧
    c.kucause.toNat % 256 = b + 1 ∧ (b < 4 → c.kucause.toNat / 256 = 0) ∧
    (b = 5 → c.kucause.toNat / 256 = (getCtx g m).msgArg % 256) ∧
    (∀ k, c.kuip.getLsbD k = (decide (k ≠ b) && (getCtx g m).kuip.getLsbD k)) ∧ (b = 4 → c.pktRings = []) ∧
    c.s = (getCtx g m).s ∧ c.a = (getCtx g m).a ∧ c.v = (getCtx g m).v ∧ c.q = (getCtx g m).q ∧ c.e = (getCtx g m).e ∧
    c.results = (getCtx g m).results ∧ c.held = (getCtx g m).held ∧ (takeUserInterrupt g m b).lc = g.lc ∧
    ∀ k, k ≠ m → getCtx (takeUserInterrupt g m b) k = getCtx g k) ∧
  (∀ c : Ctx, (c.mode = 3 → returnSvc c = { c with mode := 1, hpc := c.kepc.toNat }) ∧
    (c.mode = 2 → returnSvc c = { c with mode := 0, pc := c.kepc.toNat }) ∧
    returnUser c = { c with mode := 0, pc := c.kuepc.toNat })

/-- R348, R349: a killed task. Its gang holds the kill code, its members have stopped and hold no result, write or queue
entry, and neither the other gangs' registers nor the queues change. -/
def TaskKilled : Prop :=
  ∀ (s : State) (g : Gang) (k : KillReq) (code : Code) (kepc : Nat), findGang s g.id = some g →
    ∃ h, findGang (killGang s g k code kepc) g.id = some h ∧ h.members.length = g.members.length ∧
      (∃ kc, h.killed = some kc ∧ kc.getLsbD 63 = true ∧ kc.toNat / 2 ^ 56 % 128 = k.reason % 128 ∧
        kc.toNat / 2 ^ 32 % 2 ^ 24 = g.id % 2 ^ 24 ∧ kc.toNat / 2 ^ 16 % 2 ^ 16 = k.arg % 2 ^ 16 ∧
        kc.toNat % 2 ^ 16 = k.code % 2 ^ 16) ∧
      (∀ m < g.members.length, (getCtx h m).halted = true ∧ (getCtx h m).results = [] ∧ (getCtx h m).held = [] ∧
        (getCtx h m).laq = [] ∧ (getCtx h m).ldq = [] ∧ (getCtx h m).saq = [] ∧ (getCtx h m).sdq = [] ∧
        (getCtx h m).kuip = 0 ∧ (getCtx h m).s = (getCtx g m).s) ∧
      (killGang s g k code kepc).queues = s.queues ∧ (killGang s g k code kepc).ready = s.ready

/-- R334: of several traps at one boundary, the one taken comes before every other of them. -/
def TrapChosen : Prop :=
  ∀ ts : List TrapReq, ts ≠ [] → ∃ t, chooseTrap ts = some t ∧ t ∈ ts ∧ ∀ u ∈ ts, ¬ Precedes u t

/-- R335, R353, R459: what a boundary of a gang in RUN mode acts on, the first that applies: a kill; the fence of a confidential
tenant; a service call; a pre-emption; a request of tr.yld that a waiting launch wants; an interrupt. -/
def BoundaryOrder : Prop :=
  ∀ (s : State) (g : Gang), findGang s g.id = some g → g.killed = none → handlerOf g = none →
    (∀ k, g.kill = some k → ∃ code, boundary s g.id = (killGang s g k code (nextPc (getCtx g k.member)), true)) ∧
    (g.kill = none → (g.conf && s.confFence.contains g.tenant) = true → (boundary s g.id).2 = true ∧
      (∃ h, boundary s g.id = (putGang s h, true) ∧ h.members = g.members ∧ h.lc = g.lc)) ∧
    (g.kill = none → (g.conf && s.confFence.contains g.tenant) = false →
      (∀ c r, g.calls = c :: r → boundary s g.id = (takeCall s g.id c.1 c.2.1 c.2.2, true)) ∧
      (g.calls = [] → g.preempt.isSome = true → holdsWrites g = false →
        boundary s g.id = (putGang s { g with stopped := true }, true)) ∧
      (g.calls = [] → g.preempt = none → g.yld = true → yieldWanted s g = true → g.launch.savep.isSome = true →
        boundary s g.id = (requestPreempt (putGang s { g with yld := false }) g.id 6 none false, true)) ∧
      (g.calls = [] → g.preempt = none → g.yld = false → g.walks = [] → walksWait s g.id = false → holdsWrites g = false →
        (∀ m b, pendingInt g = some (m, b) → boundary s g.id = (putGang (stopReads s g).1 (takeUserInterrupt (stopReads s g).2 m b), true)) ∧
        (pendingInt g = none → boundary s g.id = (putGang s g, false))))

/-! ### Translation (chapter 11) -/

/-- A translation to a physical address: it must have a target (TABLE otherwise), and only a confidential descriptor reaches
protected memory (R268, R271, R272). -/
def reaches (s : State) (desc : Nat) (x : Xlat) : Except Nat Xlat :=
  if hasTarget s x.pa = false then .error 3
  else if isProtected s x.pa = true ∧ (physNat s (desc + 10) 1).testBit 0 = false then .error 2
  else .ok x

/-- Range entry `j` of a descriptor matches a virtual address (R267, R269). -/
def rangeMatches (s : State) (desc va j : Nat) : Prop :=
  (physNat s (desc + 64 + 32 * j + 24) 1).testBit 0 = true ∧ physNat s (desc + 64 + 32 * j) 8 / 4096 * 4096 ≤ va ∧
    va < physNat s (desc + 64 + 32 * j + 8) 8 / 4096 * 4096

/-- A table entry with reserved fields 0, and the fields V, LEAF and CONT as given. -/
def entryIs (e : Nat) (v leaf cont : Bool) : Prop :=
  e / 2 ^ 48 % 2 ^ 16 = 0 ∧ e / 64 % 64 = 0 ∧ e.testBit 3 = false ∧ e.testBit 0 = v ∧ e.testBit 4 = leaf ∧ e.testBit 5 = cont

/-- OA of a table entry, as an address. -/
def oaOf (e : Nat) : Nat := e / 4096 % 2 ^ 36 * 4096

/-- Does a descriptor reach the physical address: it is not protected, or the descriptor is confidential (R272). -/
def allowed (s : State) (desc a : Nat) : Bool := !isProtected s a || (physNat s (desc + 10) 1).testBit 0

/-- A read of a table entry that fails, and with which cause: no target, protected memory, an uncorrectable error (R270 to
R272). -/
def EntryRefused (s : State) (desc a : Nat) (r : Except Nat Xlat) : Prop :=
  (hasTarget s a = false → r = .error 3) ∧
  (hasTarget s a = true → allowed s desc a = false → r = .error 2) ∧
  (hasTarget s a = true → allowed s desc a = true → badRange s [(a, 8)] = true → r = .error 4)

/-- The table entry at an address can be read. -/
def EntryRead (s : State) (desc a : Nat) : Prop :=
  hasTarget s a = true ∧ allowed s desc a = true ∧ badRange s [(a, 8)] = false

/-- The walk of a contiguous group of 2^k bytes, whose first entry is at `a` (R270). -/
def GroupWalk (s : State) (desc va k a : Nat) (r : Except Nat Xlat) : Prop :=
  let f := physNat s a 8
  EntryRefused s desc a r ∧
  (EntryRead s desc a →
    (entryIs f true true true → oaOf f % 2 ^ k = 0 →
      r = reaches s desc ⟨oaOf f + va % 2 ^ k, f.testBit 1, f.testBit 2⟩) ∧
    (f.testBit 0 = false ∨ f.testBit 4 = false ∨ f.testBit 5 = false ∨ oaOf f % 2 ^ k ≠ 0 → r = .error 3))

/-- R267 to R272: translating an address: range entries first, the lowest number winning, then the walk of four levels. A group
with CONT is read at its first entry, whatever else the entry at the address's own index holds. -/
def Translates : Prop :=
  ∀ (s : State) (desc va : Nat),
    let r := translate s desc va
    (2 ^ 56 ≤ va → r = .error 5) ∧
    (va < 2 ^ 56 →
      (∀ j < 16, rangeMatches s desc va j → (∀ k < j, ¬ rangeMatches s desc va k) →
        r = reaches s desc
          ⟨(va + physNat s (desc + 64 + 32 * j + 16) 8 / 4096 * 4096) % 2 ^ 48,
            (physNat s (desc + 64 + 32 * j + 24) 1).testBit 1, (physNat s (desc + 64 + 32 * j + 24) 1).testBit 2⟩) ∧
      ((∀ j < 16, ¬ rangeMatches s desc va j) →
        let a3 := physNat s desc 8 + 8 * (va / 2 ^ 39)
        let e3 := physNat s a3 8
        let a2 := oaOf e3 + 8 * (va / 2 ^ 30 % 512)
        let e2 := physNat s a2 8
        let a1 := oaOf e2 + 8 * (va / 2 ^ 21 % 512)
        let e1 := physNat s a1 8
        let a0 := oaOf e1 + 8 * (va / 2 ^ 12 % 512)
        let e0 := physNat s a0 8
        EntryRefused s desc a3 r ∧
        (EntryRead s desc a3 → (e3.testBit 0 = false → r = .error 1) ∧ (entryIs e3 true true false → r = .error 3)) ∧
        (EntryRead s desc a3 → entryIs e3 true false false → EntryRefused s desc a2 r ∧
          (EntryRead s desc a2 →
            (e2.testBit 0 = false → e2.testBit 5 = false → r = .error 1) ∧
            (e2.testBit 5 = true → e2.testBit 0 = false ∨ entryIs e2 true true true →
              GroupWalk s desc va 33 (oaOf e3 + 8 * (va / 2 ^ 33 % 64 * 8)) r) ∧
            (entryIs e2 true true false → r = if oaOf e2 % 2 ^ 30 = 0
              then reaches s desc ⟨oaOf e2 + va % 2 ^ 30, e2.testBit 1, e2.testBit 2⟩ else .error 3) ∧
            (entryIs e2 true false true → r = .error 3) ∧
            (entryIs e2 true false false → EntryRefused s desc a1 r ∧
              (EntryRead s desc a1 →
                (e1.testBit 0 = false → r = .error 1) ∧
                (entryIs e1 true true false → r = if oaOf e1 % 2 ^ 21 = 0
                  then reaches s desc ⟨oaOf e1 + va % 2 ^ 21, e1.testBit 1, e1.testBit 2⟩ else .error 3) ∧
                (entryIs e1 true true true → r = .error 3) ∧
                (entryIs e1 true false false → EntryRefused s desc a0 r ∧
                  (EntryRead s desc a0 →
                    (e0.testBit 0 = false → e0.testBit 5 = false → r = .error 1) ∧
                    (entryIs e0 true false false → r = .error 3) ∧
                    (entryIs e0 true true false →
                      r = reaches s desc ⟨oaOf e0 + va % 2 ^ 12, e0.testBit 1, e0.testBit 2⟩) ∧
                    (e0.testBit 5 = true → e0.testBit 0 = false ∨ entryIs e0 true true true →
                      GroupWalk s desc va 16 (oaOf e1 + 8 * (va / 2 ^ 16 % 32 * 16)) r)))))))))

/-! ### What slots leave unchanged -/

/-- The registers of two contexts are the same, and so are their mode and what issues next. -/
def SameRegisters (c d : Ctx) : Prop :=
  d.s = c.s ∧ d.a = c.a ∧ d.v = c.v ∧ d.q = c.q ∧ d.e = c.e ∧ d.h = c.h ∧ d.ss = c.ss ∧ d.sa = c.sa ∧ d.sq = c.sq ∧
    d.mode = c.mode ∧ d.pc = c.pc ∧ d.hpc = c.hpc ∧ d.core = c.core

/-- The scalar arithmetic and immediate slots (chapter 05). -/
def isScalarArith : Instr → Bool
  | .sxAdd .. | .sxSub .. | .sxMul .. | .sxMulh .. | .sxDiv .. | .sxRem .. | .sxMin .. | .sxMax .. | .sxAnd .. | .sxOr ..
  | .sxXor .. | .sxShl .. | .sxShr .. | .sxSra .. | .sxClz .. | .sxCtz .. | .sxCnt .. | .sxExt .. | .sxMov .. | .sxCeq ..
  | .sxClt .. | .sxCle .. | .sxSel .. | .sxQset .. | .sxFadd .. | .sxFmul .. | .sxFma .. | .sxFceq .. | .sxFclt ..
  | .sxFcvi .. | .sxFcif .. | .siLi .. | .siIh1 .. | .siIh2 .. | .siIh3 .. | .siAddi .. | .siOri .. | .siCeqi .. | .siClti .. => true
  | _ => false

/-! ### Where every instruction completes -/

/-- Everything that happens to the machine outside a bundle: wall cycles, the calls, packets, messages and events of the
opcode table. -/
def isEvent : Instr → Bool
  | .issueCycle .. | .dcHello .. | .dcGet .. | .dcPut .. | .dcKick .. | .dcQcreate .. | .dcQdestroy .. | .dcQreset ..
  | .dcQstatus .. | .dcWindow .. | .dcLoad .. | .dcUnload .. | .dcQuiesce .. | .pkNop .. | .pkLaunch .. | .pkCall ..
  | .pkRet .. | .pkPred .. | .pkLoop .. | .pkFence .. | .pkWrite .. | .pkWait .. | .pkSignal .. | .pkStamp ..
  | .pkLakeRevoke .. | .pkLakeQuota .. | .pkReshard .. | .pkKill .. | .pkPreempt .. | .pkResume .. | .pkCrpl ..
  | .pkRing .. | .pkSteerInstall .. | .pkSteerRemove .. | .starvationPromotion .. | .registerResultLands ..
  | .queueLoadDataArrival .. | .queueStorePairing .. | .repeatReissue .. | .heldWritePerformed ..
  | .arrayOpComplete .. | .lakeFillStart .. | .lakeFillComplete .. | .klsvcRefill .. | .klsvcAccept ..
  | .klsvcRevoke .. | .copyTransferStart .. | .copyChunk .. | .pageWalkComplete .. | .farStorePerformed ..
  | .farLoadDataArrival .. | .kxinvWrite .. | .invalidationComplete .. | .invalidationTimeout .. | .touchExpiry ..
  | .drainComplete .. | .waitReread .. | .userInterruptTaken .. | .kuipWrite .. | .kbudgetWrite ..
  | .supervisorRecordDelivery .. | .preemption .. | .blockPullComplete .. | .blockWriteOut .. | .kisvcRetry ..
  | .kisvcAbandon .. | .segmentArrival .. | .engineAccessGuard .. | .clusterRetest .. | .hostPacketArrival ..
  | .deceoMessageReceived .. | .rdmaWrite .. | .rdmaRead .. | .siennaExecutiveCycle .. | .waitSatisfied ..
  | .waitPoll .. | .taskDispatch .. | .taskCompletion .. | .remoteRequestArrival .. | .remoteReplyArrival ..
  | .messageBufferRelease .. | .markerTimeout .. | .resendTimer .. | .peerTimeout .. | .sequenceMemoryExpiry ..
  | .creditReturn .. | .abortArrival .. | .signalLock .. | .trainingComplete .. | .signalLoss .. | .darkTimeout ..
  | .linkErrorFence .. | .kflctlFence .. | .kflctlUnfence .. | .kflctlRetrain .. | .planClaim .. | .planStep ..
  | .powerOnReset .. | .resetInput .. | .watchdogReset .. | .testRunJudged .. | .testRunTimeout .. | .mgIdentify ..
  | .mgSensors .. | .mgLogRead .. | .mgFwWrite .. | .mgFwActivate .. | .mgFwCommit .. | .fwRevert .. | .mgReset ..
  | .mgPowerCap .. | .mgProvision .. | .mgProtect .. | .mgUnprotect .. | .mgClusterState .. | .mgRepairRead ..
  | .mgSetKey .. | .spGetCertificate .. | .spChallenge .. | .spGetMeasurements .. | .spKeyExchange .. | .spFinish ..
  | .spKeyUpdate .. | .spHeartbeat .. | .spEndSession .. | .sessionExpiry .. | .sensorSample .. | .ptpLock ..
  | .retrainingFailed .. | .quiesceTimeout .. | .mainPowerLoss .. | .ochreReset .. | .packetForwarding ..
  | .flitCrcFailure .. => true
  | _ => false

end Sys2Proof.Claim

/-! ## Traps, translation, reset, and what every step keeps (chapters 11, 14 and 18) -/

/-- R207, R334, R335, R338 to R341, R345 to R349, R353, R415: traps, calls, interrupts, returns and kills; the codes are the
table's. That a call within service code is a double fault is the model's choice (log entry 88). -/
def Obligations.TrapAndInterruptEntry : Prop :=
  (∀ e ∈ codeTable, codeNum e.1 = e.2.1 ∧ codeReplayable e.1 = e.2.2) ∧ StopsWithItsReads ∧
  TrapChosen ∧ TrapTaken ∧ CallTaken ∧ InterruptsAndReturns ∧ TaskKilled ∧ BoundaryOrder

/-- R267 to R272: translation of virtual addresses. What an entry with CONT set means where V is 0 or where no group exists is the
model's choice (log entry 86). -/
def Obligations.TranslationResults : Prop := Translates

/-- R388, R437, R444, R452: the machine right after reset: stage ROOT, every cluster OFFLINE, no link up, no queue, no task, an
empty journal, a power cap of 2,400 W. What memory and registers hold then is the model's choice (log entries 3 and 4). -/
def Obligations.ResetState : Prop :=
  State.reset.powered = true ∧ State.reset.stage = .root ∧ (∀ cl, (getCluster State.reset cl).state = .offline) ∧
  (∀ p, (linkOf State.reset p).st = .down) ∧ (∀ q, getQueue State.reset q = none) ∧ State.reset.gangs = [] ∧
  State.reset.ready = [] ∧ State.reset.journal = [] ∧ State.reset.ochre.cap = 2400 ∧ State.reset.ochre.clockMHz = 2500 ∧
  State.reset.kbudget = 4096 ∧ (∀ t, mapGet 16 State.reset.quota t = 16) ∧
  State.reset.mem.wf = true ∧ (∀ pa, memRead State.reset.mem pa = 0) ∧
  State.reset.svcVec = 0 ∧ State.reset.svcCode = [] ∧
  ∀ cl co sl, (getCore State.reset cl co).ksvec.toList.getD sl none = none

/-- R1, R47, R72, R106: every instruction completes. A slot does in every state in which a context issues its bundle, and the
bundle goes on behind it; without one it has no meaning, and stops (the model's own fault, noIssuingContext). Whatever happens
outside a bundle, preemption, blockPullComplete, blockWriteOut, kisvcRetry, kisvcAbandon, taskDispatch and taskCompletion
among them, completes in every state. -/
def Obligations.EveryInstructionCompletes : Prop :=
  ∀ (i : Instr) (s : State),
    (isEvent i = true → ∃ t, exec i s = .next t) ∧
    (isEvent i = false →
      (∀ r, s.iss = some r → ∃ t u, exec i s = .next t ∧ t.iss = some u) ∧
      (s.iss = none → exec i s = .fault .noIssuingContext))

/-- R9, R72, R114: no slot but tr.csrw, which may name a register of the window, changes a register: what a slot computes is
bound, and lands later. Nor does a slot change what the member's bundle was read from. -/
def Obligations.NoSlotWritesARegister : Prop :=
  ∀ (i : Instr) (w : Nat), encode i = some w → (∀ d n, i ≠ .trCsrw d n) → ∀ (s : State) (r : Issue), s.iss = some r →
    ∃ (t : State) (u : Issue), exec i s = .next t ∧ t.iss = some u ∧ u.old = r.old ∧ u.m = r.m ∧ u.slot = r.slot + 1 ∧
      u.work.members.length = r.work.members.length ∧ ∀ k, SameRegisters (getCtx r.work k) (getCtx u.work k)

/-- R49, R56, R58, R72: the whole frame of the scalar arithmetic and immediate slots: of the machine they change only the
counter of free values; of the issue record, the traps raised; of the gang, the issuing member's results bound, the two scalar
queues, and the mark that its scalar block was touched (with the request for it, where it is absent). -/
def Obligations.ScalarSlotFrame : Prop :=
  ∀ (i : Instr), isScalarArith i = true → ∀ (s : State) (r : Issue), s.iss = some r → r.m < r.work.members.length →
    ∃ (t : State) (u : Issue) (c : Ctx), exec i s = .next t ∧ t = { s with
      iss := some u
      free := t.free } ∧
      u = { r with
        slot := r.slot + 1
        cond := true
        rep := 0
        traps := u.traps
        freezes := u.freezes
        acts := u.acts
        work := { r.work with members := r.work.members.set r.m c } } ∧
      ∃ d, getCtx r.work r.m = d ∧ c = { d with
        results := c.results
        hresults := c.hresults
        ldq := c.ldq
        sdq := c.sdq
        touchS := c.touchS }

/-- R49, R72, R138: the same frame of the vector slots, but for vy.cvo, which also appends outliers. -/
def Obligations.VectorSlotFrame : Prop :=
  ∀ (i : Instr), unitOf i = .v → (∀ part dq d a b q, i ≠ .vyCvo part dq d a b q) → ∀ (s : State) (r : Issue),
    s.iss = some r → r.m < r.work.members.length →
    ∃ (t : State) (u : Issue) (c : Ctx), exec i s = .next t ∧ t = { s with
      iss := some u
      free := t.free } ∧
      u = { r with
        slot := r.slot + 1
        cond := true
        rep := 0
        traps := u.traps
        freezes := u.freezes
        acts := u.acts
        work := { r.work with members := r.work.members.set r.m c } } ∧
      ∃ d, getCtx r.work r.m = d ∧ c = { d with
        results := c.results
        hresults := c.hresults
        ldq := c.ldq
        sdq := c.sdq
        vldq := c.vldq
        vsdq := c.vsdq
        touchS := c.touchS
        touchV := c.touchV }

/-- Log entry 3 (DESIGN CHOICE): device memory is held as a list of cells in one canonical form, which every step keeps. -/
def Obligations.StepsKeepMemoryCanonical : Prop := StepKeeps fun s => s.mem.wf = true
end

