-- ==== Sys2Proof/Laws/Maps.lean ====
section
/-! SUPPORT. Maps: what reading a sparse map after a change of it gives, and that every change keeps the canonical form;
the same for memories. -/

namespace Sys2Proof.Machine

variable {α : Type} {d : α}

/-! ### Reading after a change -/

theorem mapGet_mapDel_ne (m : SMap α) {k k' : Nat} (h : k ≠ k') : mapGet d (mapDel m k) k' = mapGet d m k' := by
  induction m with
  | nil => rfl
  | cons e r ih =>
    obtain ⟨a, v⟩ := e
    simp only [mapDel, List.filter_cons] at ih ⊢
    by_cases ha : a = k
    · subst ha; simpa [mapGet, h] using ih
    · simp only [bne_iff_ne, ne_eq, ha, not_false_eq_true, if_true, mapGet]
      rw [ih]

theorem mapGet_mapDel_same (m : SMap α) (k : Nat) : mapGet d (mapDel m k) k = d := by
  induction m with
  | nil => rfl
  | cons e r ih =>
    obtain ⟨a, v⟩ := e
    simp only [mapDel, List.filter_cons] at ih ⊢
    by_cases ha : a = k
    · subst ha; simpa using ih
    · simp [ha, mapGet, ih]

theorem mapGet_mapIns_ne (m : SMap α) (v : α) {k k' : Nat} (h : k ≠ k') :
    mapGet d (mapIns k v m) k' = mapGet d m k' := by
  induction m with
  | nil => simp [mapIns, mapGet, h]
  | cons e r ih =>
    obtain ⟨a, w⟩ := e
    simp only [mapIns]
    split <;> simp [mapGet, h, ih]

theorem mapGet_mapIns_same (m : SMap α) (k : Nat) (v : α) (h : ∀ e ∈ m, e.1 ≠ k) :
    mapGet d (mapIns k v m) k = v := by
  induction m with
  | nil => simp [mapIns, mapGet]
  | cons e r ih =>
    obtain ⟨a, w⟩ := e
    have ha : a ≠ k := h (a, w) (by simp)
    simp only [mapIns]
    split
    · simp [mapGet]
    · simp [mapGet, ha, ih fun e he => h e (by simp [he])]

theorem mem_mapDel {m : SMap α} {k : Nat} {e : Nat × α} : e ∈ mapDel m k ↔ e ∈ m ∧ e.1 ≠ k := by
  simp [mapDel]

/-- A key just set reads as set. -/
@[simp] theorem mapGet_mapSet_same [DecidableEq α] (m : SMap α) (k : Nat) (v : α) :
    mapGet d (mapSet d m k v) k = v := by
  unfold mapSet
  split
  · next h => rw [mapGet_mapDel_same, h]
  · exact mapGet_mapIns_same _ _ _ fun e he => (mem_mapDel.1 he).2

/-- Every other key reads as before. -/
@[simp] theorem mapGet_mapSet_ne [DecidableEq α] (m : SMap α) (v : α) {k k' : Nat} (h : k ≠ k') :
    mapGet d (mapSet d m k v) k' = mapGet d m k' := by
  unfold mapSet
  split
  · exact mapGet_mapDel_ne m h
  · rw [mapGet_mapIns_ne _ _ h, mapGet_mapDel_ne m h]

/-! ### The canonical form -/

variable [DecidableEq α]

/-- Is a lower bound below a key? -/
def below : Option Nat → Nat → Prop
  | none, _ => True
  | some l, k => l < k

theorem mapWfFrom_cons {lo : Option Nat} {k : Nat} {v : α} {r : SMap α} :
    mapWfFrom d lo ((k, v) :: r) = true ↔ below lo k ∧ v ≠ d ∧ mapWfFrom d (some k) r = true := by
  cases lo <;> simp [mapWfFrom, below, and_assoc]

theorem mapWfFrom_weaken {lo lo' : Option Nat} {m : SMap α} (h : mapWfFrom d lo m = true)
    (hl : ∀ k, below lo k → below lo' k) : mapWfFrom d lo' m = true := by
  cases m with
  | nil => rfl
  | cons e r =>
    obtain ⟨k, v⟩ := e
    rw [mapWfFrom_cons] at h ⊢
    exact ⟨hl _ h.1, h.2⟩

theorem mapWfFrom_filter {lo : Option Nat} {m : SMap α} (p : Nat × α → Bool) (h : mapWfFrom d lo m = true) :
    mapWfFrom d lo (m.filter p) = true := by
  induction m generalizing lo with
  | nil => rfl
  | cons e r ih =>
    obtain ⟨k, v⟩ := e
    obtain ⟨hl, hv, hr⟩ := mapWfFrom_cons.1 h
    rw [List.filter_cons]
    split
    · exact mapWfFrom_cons.2 ⟨hl, hv, ih hr⟩
    · refine mapWfFrom_weaken (ih hr) fun j hj => ?_
      cases lo with
      | none => trivial
      | some l => exact Nat.lt_trans hl hj

theorem mapWfFrom_mapIns {lo : Option Nat} {m : SMap α} {k : Nat} {v : α} (h : mapWfFrom d lo m = true)
    (hk : below lo k) (hv : v ≠ d) (hn : ∀ e ∈ m, e.1 ≠ k) : mapWfFrom d lo (mapIns k v m) = true := by
  induction m generalizing lo with
  | nil => exact mapWfFrom_cons.2 ⟨hk, hv, rfl⟩
  | cons e r ih =>
    obtain ⟨a, w⟩ := e
    obtain ⟨hl, hw, hr⟩ := mapWfFrom_cons.1 h
    simp only [mapIns]
    split
    · next hka => exact mapWfFrom_cons.2 ⟨hk, hv, mapWfFrom_cons.2 ⟨hka, hw, hr⟩⟩
    · next hka =>
      have : a ≠ k := hn (a, w) (by simp)
      exact mapWfFrom_cons.2 ⟨hl, hw, ih hr (by simp only [below]; omega) fun e he => hn e (by simp [he])⟩

/-- Dropping entries keeps the canonical form. -/
theorem mapWf_filter {m : SMap α} (p : Nat × α → Bool) (h : mapWf d m = true) : mapWf d (m.filter p) = true :=
  mapWfFrom_filter p h

/-- Removing a key keeps the canonical form. -/
theorem mapWf_mapDel {m : SMap α} (k : Nat) (h : mapWf d m = true) : mapWf d (mapDel m k) = true :=
  mapWfFrom_filter _ h

/-- Setting a key keeps the canonical form. -/
theorem mapWf_mapSet {m : SMap α} (k : Nat) (v : α) (h : mapWf d m = true) : mapWf d (mapSet d m k v) = true := by
  unfold mapSet
  split
  · exact mapWf_mapDel k h
  · next hv => exact mapWfFrom_mapIns (mapWf_mapDel k h) trivial hv fun e he => (mem_mapDel.1 he).2

/-! ### Memories -/

/-- A byte just written reads as written. -/
@[simp] theorem memRead_memWrite_same (m : Memory) (a : Nat) (b : Byte) : memRead (memWrite m a b) a = b :=
  mapGet_mapSet_same m a b

/-- Every other byte reads as before. -/
@[simp] theorem memRead_memWrite_ne (m : Memory) (b : Byte) {a a' : Nat} (h : a ≠ a') :
    memRead (memWrite m a b) a' = memRead m a' :=
  mapGet_mapSet_ne m b h

/-- Writing a byte keeps the canonical form of a memory. -/
theorem memWrite_wf {m : Memory} (a : Nat) (b : Byte) (h : m.wf = true) : (memWrite m a b).wf = true :=
  mapWf_mapSet a b h

/-- Writing bytes keeps the canonical form of a memory. -/
theorem memWrites_wf {m : Memory} (a : Nat) (bs : List Byte) (h : m.wf = true) : (memWrites m a bs).wf = true := by
  induction bs generalizing m a with
  | nil => exact h
  | cons b r ih => exact ih (a + 1) (memWrite_wf a b h)

/-- Dropping bytes keeps the canonical form of a memory. -/
theorem memFilter_wf {m : Memory} (p : Host.Cell → Bool) (h : m.wf = true) : Memory.wf (m.filter p) = true :=
  mapWf_filter p h

/-- A byte outside the bytes written reads as before. -/
theorem memRead_memWrites_out (m : Memory) (a : Nat) (bs : List Byte) {x : Nat} (h : x < a ∨ a + bs.length ≤ x) :
    memRead (memWrites m a bs) x = memRead m x := by
  induction bs generalizing m a with
  | nil => rfl
  | cons b r ih =>
    simp only [List.length_cons] at h
    rw [memWrites, ih _ _ (by omega), memRead_memWrite_ne _ _ (by omega)]

/-- A byte among the bytes written reads as written. -/
theorem memRead_memWrites_in (m : Memory) (a : Nat) (bs : List Byte) {i : Nat} (h : i < bs.length) :
    memRead (memWrites m a bs) (a + i) = bs[i] := by
  induction bs generalizing m a i with
  | nil => simp at h
  | cons b r ih =>
    cases i with
    | zero => rw [memWrites, Nat.add_zero, memRead_memWrites_out _ _ _ (by omega)]; simp
    | succ i =>
      have := ih (memWrite m a b) (a + 1) (i := i) (by simpa using h)
      rw [memWrites, show a + (i + 1) = a + 1 + i by omega, this]; simp

/-- Reading back the bytes just written. -/
theorem memReads_memWrites (m : Memory) (a : Nat) (bs : List Byte) :
    memReads (memWrites m a bs) a bs.length = bs := by
  apply List.ext_getElem
  · simp [memReads]
  · intro i h₁ h₂
    simp only [memReads, List.getElem_map, List.getElem_range]
    exact memRead_memWrites_in m a bs h₂

end Sys2Proof.Machine
end

