-- ==== Sys2Proof/Laws/State.lean ====
section
/-! SUPPORT. State: what each named update of the state leaves as it was, field by field, and what it sets. -/

namespace Sys2Proof.Machine

/-! ### setCore -/

@[simp] theorem setCore_agenda (s : State) (cl co : Nat) (c : Core) : (setCore s cl co c).agenda = s.agenda := rfl
@[simp] theorem setCore_turn (s : State) (cl co : Nat) (c : Core) : (setCore s cl co c).turn = s.turn := rfl
@[simp] theorem setCore_iss (s : State) (cl co : Nat) (c : Core) : (setCore s cl co c).iss = s.iss := rfl
@[simp] theorem setCore_gangs (s : State) (cl co : Nat) (c : Core) : (setCore s cl co c).gangs = s.gangs := rfl
@[simp] theorem setCore_clusters (s : State) (cl co : Nat) (c : Core) : (setCore s cl co c).clusters = s.clusters := rfl
@[simp] theorem setCore_mem (s : State) (cl co : Nat) (c : Core) : (setCore s cl co c).mem = s.mem := rfl
@[simp] theorem setCore_shadowFar (s : State) (cl co : Nat) (c : Core) : (setCore s cl co c).shadowFar = s.shadowFar := rfl
@[simp] theorem setCore_watch (s : State) (cl co : Nat) (c : Core) : (setCore s cl co c).watch = s.watch := rfl
@[simp] theorem setCore_quota (s : State) (cl co : Nat) (c : Core) : (setCore s cl co c).quota = s.quota := rfl
@[simp] theorem setCore_kbudget (s : State) (cl co : Nat) (c : Core) : (setCore s cl co c).kbudget = s.kbudget := rfl
@[simp] theorem setCore_ownedRegs (s : State) (cl co : Nat) (c : Core) : (setCore s cl co c).ownedRegs = s.ownedRegs := rfl
@[simp] theorem setCore_ownedTiles (s : State) (cl co : Nat) (c : Core) : (setCore s cl co c).ownedTiles = s.ownedTiles := rfl
@[simp] theorem setCore_tickets (s : State) (cl co : Nat) (c : Core) : (setCore s cl co c).tickets = s.tickets := rfl
@[simp] theorem setCore_nextTicket (s : State) (cl co : Nat) (c : Core) : (setCore s cl co c).nextTicket = s.nextTicket := rfl
@[simp] theorem setCore_claims (s : State) (cl co : Nat) (c : Core) : (setCore s cl co c).claims = s.claims := rfl
@[simp] theorem setCore_gathers (s : State) (cl co : Nat) (c : Core) : (setCore s cl co c).gathers = s.gathers := rfl
@[simp] theorem setCore_invals (s : State) (cl co : Nat) (c : Core) : (setCore s cl co c).invals = s.invals := rfl
@[simp] theorem setCore_invalNo (s : State) (cl co : Nat) (c : Core) : (setCore s cl co c).invalNo = s.invalNo := rfl
@[simp] theorem setCore_ring (s : State) (cl co : Nat) (c : Core) : (setCore s cl co c).ring = s.ring := rfl
@[simp] theorem setCore_recSeq (s : State) (cl co : Nat) (c : Core) : (setCore s cl co c).recSeq = s.recSeq := rfl
@[simp] theorem setCore_lost (s : State) (cl co : Nat) (c : Core) : (setCore s cl co c).lost = s.lost := rfl
@[simp] theorem setCore_ringDown (s : State) (cl co : Nat) (c : Core) : (setCore s cl co c).ringDown = s.ringDown := rfl
@[simp] theorem setCore_early (s : State) (cl co : Nat) (c : Core) : (setCore s cl co c).early = s.early := rfl
@[simp] theorem setCore_waiting (s : State) (cl co : Nat) (c : Core) : (setCore s cl co c).waiting = s.waiting := rfl
@[simp] theorem setCore_queues (s : State) (cl co : Nat) (c : Core) : (setCore s cl co c).queues = s.queues := rfl
@[simp] theorem setCore_firstTurn (s : State) (cl co : Nat) (c : Core) : (setCore s cl co c).firstTurn = s.firstTurn := rfl
@[simp] theorem setCore_ready (s : State) (cl co : Nat) (c : Core) : (setCore s cl co c).ready = s.ready := rfl
@[simp] theorem setCore_served (s : State) (cl co : Nat) (c : Core) : (setCore s cl co c).served = s.served := rfl
@[simp] theorem setCore_watches (s : State) (cl co : Nat) (c : Core) : (setCore s cl co c).watches = s.watches := rfl
@[simp] theorem setCore_steers (s : State) (cl co : Nat) (c : Core) : (setCore s cl co c).steers = s.steers := rfl
@[simp] theorem setCore_arrivals (s : State) (cl co : Nat) (c : Core) : (setCore s cl co c).arrivals = s.arrivals := rfl
@[simp] theorem setCore_windows (s : State) (cl co : Nat) (c : Core) : (setCore s cl co c).windows = s.windows := rfl
@[simp] theorem setCore_nextRkey (s : State) (cl co : Nat) (c : Core) : (setCore s cl co c).nextRkey = s.nextRkey := rfl
@[simp] theorem setCore_images (s : State) (cl co : Nat) (c : Core) : (setCore s cl co c).images = s.images := rfl
@[simp] theorem setCore_nextImage (s : State) (cl co : Nat) (c : Core) : (setCore s cl co c).nextImage = s.nextImage := rfl
@[simp] theorem setCore_saved (s : State) (cl co : Nat) (c : Core) : (setCore s cl co c).saved = s.saved := rfl
@[simp] theorem setCore_kept (s : State) (cl co : Nat) (c : Core) : (setCore s cl co c).kept = s.kept := rfl
@[simp] theorem setCore_bad (s : State) (cl co : Nat) (c : Core) : (setCore s cl co c).bad = s.bad := rfl
@[simp] theorem setCore_badReg (s : State) (cl co : Nat) (c : Core) : (setCore s cl co c).badReg = s.badReg := rfl
@[simp] theorem setCore_journal (s : State) (cl co : Nat) (c : Core) : (setCore s cl co c).journal = s.journal := rfl
@[simp] theorem setCore_lastSeq (s : State) (cl co : Nat) (c : Core) : (setCore s cl co c).lastSeq = s.lastSeq := rfl
@[simp] theorem setCore_eventSeq (s : State) (cl co : Nat) (c : Core) : (setCore s cl co c).eventSeq = s.eventSeq := rfl
@[simp] theorem setCore_dispatchNo (s : State) (cl co : Nat) (c : Core) : (setCore s cl co c).dispatchNo = s.dispatchNo := rfl
@[simp] theorem setCore_dispatched (s : State) (cl co : Nat) (c : Core) : (setCore s cl co c).dispatched = s.dispatched := rfl
@[simp] theorem setCore_confFence (s : State) (cl co : Nat) (c : Core) : (setCore s cl co c).confFence = s.confFence := rfl
@[simp] theorem setCore_boot (s : State) (cl co : Nat) (c : Core) : (setCore s cl co c).boot = s.boot := rfl
@[simp] theorem setCore_quiesce (s : State) (cl co : Nat) (c : Core) : (setCore s cl co c).quiesce = s.quiesce := rfl
@[simp] theorem setCore_links (s : State) (cl co : Nat) (c : Core) : (setCore s cl co c).links = s.links := rfl
@[simp] theorem setCore_routeGen (s : State) (cl co : Nat) (c : Core) : (setCore s cl co c).routeGen = s.routeGen := rfl
@[simp] theorem setCore_replies (s : State) (cl co : Nat) (c : Core) : (setCore s cl co c).replies = s.replies := rfl
@[simp] theorem setCore_seqNo (s : State) (cl co : Nat) (c : Core) : (setCore s cl co c).seqNo = s.seqNo := rfl
@[simp] theorem setCore_remote (s : State) (cl co : Nat) (c : Core) : (setCore s cl co c).remote = s.remote := rfl
@[simp] theorem setCore_seqMem (s : State) (cl co : Nat) (c : Core) : (setCore s cl co c).seqMem = s.seqMem := rfl
@[simp] theorem setCore_pendIn (s : State) (cl co : Nat) (c : Core) : (setCore s cl co c).pendIn = s.pendIn := rfl
@[simp] theorem setCore_msgBuf (s : State) (cl co : Nat) (c : Core) : (setCore s cl co c).msgBuf = s.msgBuf := rfl
@[simp] theorem setCore_edges (s : State) (cl co : Nat) (c : Core) : (setCore s cl co c).edges = s.edges := rfl
@[simp] theorem setCore_plans (s : State) (cl co : Nat) (c : Core) : (setCore s cl co c).plans = s.plans := rfl
@[simp] theorem setCore_starts (s : State) (cl co : Nat) (c : Core) : (setCore s cl co c).starts = s.starts := rfl
@[simp] theorem setCore_rsStats (s : State) (cl co : Nat) (c : Core) : (setCore s cl co c).rsStats = s.rsStats := rfl
@[simp] theorem setCore_clockSec (s : State) (cl co : Nat) (c : Core) : (setCore s cl co c).clockSec = s.clockSec := rfl
@[simp] theorem setCore_clockNs (s : State) (cl co : Nat) (c : Core) : (setCore s cl co c).clockNs = s.clockNs := rfl
@[simp] theorem setCore_ptpLock (s : State) (cl co : Nat) (c : Core) : (setCore s cl co c).ptpLock = s.ptpLock := rfl
@[simp] theorem setCore_stage (s : State) (cl co : Nat) (c : Core) : (setCore s cl co c).stage = s.stage := rfl
@[simp] theorem setCore_devId (s : State) (cl co : Nat) (c : Core) : (setCore s cl co c).devId = s.devId := rfl
@[simp] theorem setCore_svcCode (s : State) (cl co : Nat) (c : Core) : (setCore s cl co c).svcCode = s.svcCode := rfl
@[simp] theorem setCore_svcVec (s : State) (cl co : Nat) (c : Core) : (setCore s cl co c).svcVec = s.svcVec := rfl
@[simp] theorem setCore_powered (s : State) (cl co : Nat) (c : Core) : (setCore s cl co c).powered = s.powered := rfl
@[simp] theorem setCore_ochre (s : State) (cl co : Nat) (c : Core) : (setCore s cl co c).ochre = s.ochre := rfl
@[simp] theorem setCore_outbox (s : State) (cl co : Nat) (c : Core) : (setCore s cl co c).outbox = s.outbox := rfl
@[simp] theorem setCore_free (s : State) (cl co : Nat) (c : Core) : (setCore s cl co c).free = s.free := rfl

/-! ### setCluster -/

@[simp] theorem setCluster_agenda (s : State) (cl : Nat) (c : Cluster) : (setCluster s cl c).agenda = s.agenda := rfl
@[simp] theorem setCluster_turn (s : State) (cl : Nat) (c : Cluster) : (setCluster s cl c).turn = s.turn := rfl
@[simp] theorem setCluster_iss (s : State) (cl : Nat) (c : Cluster) : (setCluster s cl c).iss = s.iss := rfl
@[simp] theorem setCluster_gangs (s : State) (cl : Nat) (c : Cluster) : (setCluster s cl c).gangs = s.gangs := rfl
@[simp] theorem setCluster_cores (s : State) (cl : Nat) (c : Cluster) : (setCluster s cl c).cores = s.cores := rfl
@[simp] theorem setCluster_mem (s : State) (cl : Nat) (c : Cluster) : (setCluster s cl c).mem = s.mem := rfl
@[simp] theorem setCluster_shadowFar (s : State) (cl : Nat) (c : Cluster) : (setCluster s cl c).shadowFar = s.shadowFar := rfl
@[simp] theorem setCluster_watch (s : State) (cl : Nat) (c : Cluster) : (setCluster s cl c).watch = s.watch := rfl
@[simp] theorem setCluster_quota (s : State) (cl : Nat) (c : Cluster) : (setCluster s cl c).quota = s.quota := rfl
@[simp] theorem setCluster_kbudget (s : State) (cl : Nat) (c : Cluster) : (setCluster s cl c).kbudget = s.kbudget := rfl
@[simp] theorem setCluster_ownedRegs (s : State) (cl : Nat) (c : Cluster) : (setCluster s cl c).ownedRegs = s.ownedRegs := rfl
@[simp] theorem setCluster_ownedTiles (s : State) (cl : Nat) (c : Cluster) : (setCluster s cl c).ownedTiles = s.ownedTiles := rfl
@[simp] theorem setCluster_tickets (s : State) (cl : Nat) (c : Cluster) : (setCluster s cl c).tickets = s.tickets := rfl
@[simp] theorem setCluster_nextTicket (s : State) (cl : Nat) (c : Cluster) : (setCluster s cl c).nextTicket = s.nextTicket := rfl
@[simp] theorem setCluster_claims (s : State) (cl : Nat) (c : Cluster) : (setCluster s cl c).claims = s.claims := rfl
@[simp] theorem setCluster_gathers (s : State) (cl : Nat) (c : Cluster) : (setCluster s cl c).gathers = s.gathers := rfl
@[simp] theorem setCluster_invals (s : State) (cl : Nat) (c : Cluster) : (setCluster s cl c).invals = s.invals := rfl
@[simp] theorem setCluster_invalNo (s : State) (cl : Nat) (c : Cluster) : (setCluster s cl c).invalNo = s.invalNo := rfl
@[simp] theorem setCluster_ring (s : State) (cl : Nat) (c : Cluster) : (setCluster s cl c).ring = s.ring := rfl
@[simp] theorem setCluster_recSeq (s : State) (cl : Nat) (c : Cluster) : (setCluster s cl c).recSeq = s.recSeq := rfl
@[simp] theorem setCluster_lost (s : State) (cl : Nat) (c : Cluster) : (setCluster s cl c).lost = s.lost := rfl
@[simp] theorem setCluster_ringDown (s : State) (cl : Nat) (c : Cluster) : (setCluster s cl c).ringDown = s.ringDown := rfl
@[simp] theorem setCluster_early (s : State) (cl : Nat) (c : Cluster) : (setCluster s cl c).early = s.early := rfl
@[simp] theorem setCluster_waiting (s : State) (cl : Nat) (c : Cluster) : (setCluster s cl c).waiting = s.waiting := rfl
@[simp] theorem setCluster_queues (s : State) (cl : Nat) (c : Cluster) : (setCluster s cl c).queues = s.queues := rfl
@[simp] theorem setCluster_firstTurn (s : State) (cl : Nat) (c : Cluster) : (setCluster s cl c).firstTurn = s.firstTurn := rfl
@[simp] theorem setCluster_ready (s : State) (cl : Nat) (c : Cluster) : (setCluster s cl c).ready = s.ready := rfl
@[simp] theorem setCluster_served (s : State) (cl : Nat) (c : Cluster) : (setCluster s cl c).served = s.served := rfl
@[simp] theorem setCluster_watches (s : State) (cl : Nat) (c : Cluster) : (setCluster s cl c).watches = s.watches := rfl
@[simp] theorem setCluster_steers (s : State) (cl : Nat) (c : Cluster) : (setCluster s cl c).steers = s.steers := rfl
@[simp] theorem setCluster_arrivals (s : State) (cl : Nat) (c : Cluster) : (setCluster s cl c).arrivals = s.arrivals := rfl
@[simp] theorem setCluster_windows (s : State) (cl : Nat) (c : Cluster) : (setCluster s cl c).windows = s.windows := rfl
@[simp] theorem setCluster_nextRkey (s : State) (cl : Nat) (c : Cluster) : (setCluster s cl c).nextRkey = s.nextRkey := rfl
@[simp] theorem setCluster_images (s : State) (cl : Nat) (c : Cluster) : (setCluster s cl c).images = s.images := rfl
@[simp] theorem setCluster_nextImage (s : State) (cl : Nat) (c : Cluster) : (setCluster s cl c).nextImage = s.nextImage := rfl
@[simp] theorem setCluster_saved (s : State) (cl : Nat) (c : Cluster) : (setCluster s cl c).saved = s.saved := rfl
@[simp] theorem setCluster_kept (s : State) (cl : Nat) (c : Cluster) : (setCluster s cl c).kept = s.kept := rfl
@[simp] theorem setCluster_bad (s : State) (cl : Nat) (c : Cluster) : (setCluster s cl c).bad = s.bad := rfl
@[simp] theorem setCluster_badReg (s : State) (cl : Nat) (c : Cluster) : (setCluster s cl c).badReg = s.badReg := rfl
@[simp] theorem setCluster_journal (s : State) (cl : Nat) (c : Cluster) : (setCluster s cl c).journal = s.journal := rfl
@[simp] theorem setCluster_lastSeq (s : State) (cl : Nat) (c : Cluster) : (setCluster s cl c).lastSeq = s.lastSeq := rfl
@[simp] theorem setCluster_eventSeq (s : State) (cl : Nat) (c : Cluster) : (setCluster s cl c).eventSeq = s.eventSeq := rfl
@[simp] theorem setCluster_dispatchNo (s : State) (cl : Nat) (c : Cluster) : (setCluster s cl c).dispatchNo = s.dispatchNo := rfl
@[simp] theorem setCluster_dispatched (s : State) (cl : Nat) (c : Cluster) : (setCluster s cl c).dispatched = s.dispatched := rfl
@[simp] theorem setCluster_confFence (s : State) (cl : Nat) (c : Cluster) : (setCluster s cl c).confFence = s.confFence := rfl
@[simp] theorem setCluster_boot (s : State) (cl : Nat) (c : Cluster) : (setCluster s cl c).boot = s.boot := rfl
@[simp] theorem setCluster_quiesce (s : State) (cl : Nat) (c : Cluster) : (setCluster s cl c).quiesce = s.quiesce := rfl
@[simp] theorem setCluster_links (s : State) (cl : Nat) (c : Cluster) : (setCluster s cl c).links = s.links := rfl
@[simp] theorem setCluster_routeGen (s : State) (cl : Nat) (c : Cluster) : (setCluster s cl c).routeGen = s.routeGen := rfl
@[simp] theorem setCluster_replies (s : State) (cl : Nat) (c : Cluster) : (setCluster s cl c).replies = s.replies := rfl
@[simp] theorem setCluster_seqNo (s : State) (cl : Nat) (c : Cluster) : (setCluster s cl c).seqNo = s.seqNo := rfl
@[simp] theorem setCluster_remote (s : State) (cl : Nat) (c : Cluster) : (setCluster s cl c).remote = s.remote := rfl
@[simp] theorem setCluster_seqMem (s : State) (cl : Nat) (c : Cluster) : (setCluster s cl c).seqMem = s.seqMem := rfl
@[simp] theorem setCluster_pendIn (s : State) (cl : Nat) (c : Cluster) : (setCluster s cl c).pendIn = s.pendIn := rfl
@[simp] theorem setCluster_msgBuf (s : State) (cl : Nat) (c : Cluster) : (setCluster s cl c).msgBuf = s.msgBuf := rfl
@[simp] theorem setCluster_edges (s : State) (cl : Nat) (c : Cluster) : (setCluster s cl c).edges = s.edges := rfl
@[simp] theorem setCluster_plans (s : State) (cl : Nat) (c : Cluster) : (setCluster s cl c).plans = s.plans := rfl
@[simp] theorem setCluster_starts (s : State) (cl : Nat) (c : Cluster) : (setCluster s cl c).starts = s.starts := rfl
@[simp] theorem setCluster_rsStats (s : State) (cl : Nat) (c : Cluster) : (setCluster s cl c).rsStats = s.rsStats := rfl
@[simp] theorem setCluster_clockSec (s : State) (cl : Nat) (c : Cluster) : (setCluster s cl c).clockSec = s.clockSec := rfl
@[simp] theorem setCluster_clockNs (s : State) (cl : Nat) (c : Cluster) : (setCluster s cl c).clockNs = s.clockNs := rfl
@[simp] theorem setCluster_ptpLock (s : State) (cl : Nat) (c : Cluster) : (setCluster s cl c).ptpLock = s.ptpLock := rfl
@[simp] theorem setCluster_stage (s : State) (cl : Nat) (c : Cluster) : (setCluster s cl c).stage = s.stage := rfl
@[simp] theorem setCluster_devId (s : State) (cl : Nat) (c : Cluster) : (setCluster s cl c).devId = s.devId := rfl
@[simp] theorem setCluster_svcCode (s : State) (cl : Nat) (c : Cluster) : (setCluster s cl c).svcCode = s.svcCode := rfl
@[simp] theorem setCluster_svcVec (s : State) (cl : Nat) (c : Cluster) : (setCluster s cl c).svcVec = s.svcVec := rfl
@[simp] theorem setCluster_powered (s : State) (cl : Nat) (c : Cluster) : (setCluster s cl c).powered = s.powered := rfl
@[simp] theorem setCluster_ochre (s : State) (cl : Nat) (c : Cluster) : (setCluster s cl c).ochre = s.ochre := rfl
@[simp] theorem setCluster_outbox (s : State) (cl : Nat) (c : Cluster) : (setCluster s cl c).outbox = s.outbox := rfl
@[simp] theorem setCluster_free (s : State) (cl : Nat) (c : Cluster) : (setCluster s cl c).free = s.free := rfl

/-! ### putGang -/

@[simp] theorem putGang_agenda (s : State) (g : Gang) : (putGang s g).agenda = s.agenda := rfl
@[simp] theorem putGang_turn (s : State) (g : Gang) : (putGang s g).turn = s.turn := rfl
@[simp] theorem putGang_iss (s : State) (g : Gang) : (putGang s g).iss = s.iss := rfl
@[simp] theorem putGang_cores (s : State) (g : Gang) : (putGang s g).cores = s.cores := rfl
@[simp] theorem putGang_clusters (s : State) (g : Gang) : (putGang s g).clusters = s.clusters := rfl
@[simp] theorem putGang_mem (s : State) (g : Gang) : (putGang s g).mem = s.mem := rfl
@[simp] theorem putGang_shadowFar (s : State) (g : Gang) : (putGang s g).shadowFar = s.shadowFar := rfl
@[simp] theorem putGang_watch (s : State) (g : Gang) : (putGang s g).watch = s.watch := rfl
@[simp] theorem putGang_quota (s : State) (g : Gang) : (putGang s g).quota = s.quota := rfl
@[simp] theorem putGang_kbudget (s : State) (g : Gang) : (putGang s g).kbudget = s.kbudget := rfl
@[simp] theorem putGang_ownedRegs (s : State) (g : Gang) : (putGang s g).ownedRegs = s.ownedRegs := rfl
@[simp] theorem putGang_ownedTiles (s : State) (g : Gang) : (putGang s g).ownedTiles = s.ownedTiles := rfl
@[simp] theorem putGang_tickets (s : State) (g : Gang) : (putGang s g).tickets = s.tickets := rfl
@[simp] theorem putGang_nextTicket (s : State) (g : Gang) : (putGang s g).nextTicket = s.nextTicket := rfl
@[simp] theorem putGang_claims (s : State) (g : Gang) : (putGang s g).claims = s.claims := rfl
@[simp] theorem putGang_gathers (s : State) (g : Gang) : (putGang s g).gathers = s.gathers := rfl
@[simp] theorem putGang_invals (s : State) (g : Gang) : (putGang s g).invals = s.invals := rfl
@[simp] theorem putGang_invalNo (s : State) (g : Gang) : (putGang s g).invalNo = s.invalNo := rfl
@[simp] theorem putGang_ring (s : State) (g : Gang) : (putGang s g).ring = s.ring := rfl
@[simp] theorem putGang_recSeq (s : State) (g : Gang) : (putGang s g).recSeq = s.recSeq := rfl
@[simp] theorem putGang_lost (s : State) (g : Gang) : (putGang s g).lost = s.lost := rfl
@[simp] theorem putGang_ringDown (s : State) (g : Gang) : (putGang s g).ringDown = s.ringDown := rfl
@[simp] theorem putGang_early (s : State) (g : Gang) : (putGang s g).early = s.early := rfl
@[simp] theorem putGang_waiting (s : State) (g : Gang) : (putGang s g).waiting = s.waiting := rfl
@[simp] theorem putGang_queues (s : State) (g : Gang) : (putGang s g).queues = s.queues := rfl
@[simp] theorem putGang_firstTurn (s : State) (g : Gang) : (putGang s g).firstTurn = s.firstTurn := rfl
@[simp] theorem putGang_ready (s : State) (g : Gang) : (putGang s g).ready = s.ready := rfl
@[simp] theorem putGang_served (s : State) (g : Gang) : (putGang s g).served = s.served := rfl
@[simp] theorem putGang_watches (s : State) (g : Gang) : (putGang s g).watches = s.watches := rfl
@[simp] theorem putGang_steers (s : State) (g : Gang) : (putGang s g).steers = s.steers := rfl
@[simp] theorem putGang_arrivals (s : State) (g : Gang) : (putGang s g).arrivals = s.arrivals := rfl
@[simp] theorem putGang_windows (s : State) (g : Gang) : (putGang s g).windows = s.windows := rfl
@[simp] theorem putGang_nextRkey (s : State) (g : Gang) : (putGang s g).nextRkey = s.nextRkey := rfl
@[simp] theorem putGang_images (s : State) (g : Gang) : (putGang s g).images = s.images := rfl
@[simp] theorem putGang_nextImage (s : State) (g : Gang) : (putGang s g).nextImage = s.nextImage := rfl
@[simp] theorem putGang_saved (s : State) (g : Gang) : (putGang s g).saved = s.saved := rfl
@[simp] theorem putGang_kept (s : State) (g : Gang) : (putGang s g).kept = s.kept := rfl
@[simp] theorem putGang_bad (s : State) (g : Gang) : (putGang s g).bad = s.bad := rfl
@[simp] theorem putGang_badReg (s : State) (g : Gang) : (putGang s g).badReg = s.badReg := rfl
@[simp] theorem putGang_journal (s : State) (g : Gang) : (putGang s g).journal = s.journal := rfl
@[simp] theorem putGang_lastSeq (s : State) (g : Gang) : (putGang s g).lastSeq = s.lastSeq := rfl
@[simp] theorem putGang_eventSeq (s : State) (g : Gang) : (putGang s g).eventSeq = s.eventSeq := rfl
@[simp] theorem putGang_dispatchNo (s : State) (g : Gang) : (putGang s g).dispatchNo = s.dispatchNo := rfl
@[simp] theorem putGang_dispatched (s : State) (g : Gang) : (putGang s g).dispatched = s.dispatched := rfl
@[simp] theorem putGang_confFence (s : State) (g : Gang) : (putGang s g).confFence = s.confFence := rfl
@[simp] theorem putGang_boot (s : State) (g : Gang) : (putGang s g).boot = s.boot := rfl
@[simp] theorem putGang_quiesce (s : State) (g : Gang) : (putGang s g).quiesce = s.quiesce := rfl
@[simp] theorem putGang_links (s : State) (g : Gang) : (putGang s g).links = s.links := rfl
@[simp] theorem putGang_routeGen (s : State) (g : Gang) : (putGang s g).routeGen = s.routeGen := rfl
@[simp] theorem putGang_replies (s : State) (g : Gang) : (putGang s g).replies = s.replies := rfl
@[simp] theorem putGang_seqNo (s : State) (g : Gang) : (putGang s g).seqNo = s.seqNo := rfl
@[simp] theorem putGang_remote (s : State) (g : Gang) : (putGang s g).remote = s.remote := rfl
@[simp] theorem putGang_seqMem (s : State) (g : Gang) : (putGang s g).seqMem = s.seqMem := rfl
@[simp] theorem putGang_pendIn (s : State) (g : Gang) : (putGang s g).pendIn = s.pendIn := rfl
@[simp] theorem putGang_msgBuf (s : State) (g : Gang) : (putGang s g).msgBuf = s.msgBuf := rfl
@[simp] theorem putGang_edges (s : State) (g : Gang) : (putGang s g).edges = s.edges := rfl
@[simp] theorem putGang_plans (s : State) (g : Gang) : (putGang s g).plans = s.plans := rfl
@[simp] theorem putGang_starts (s : State) (g : Gang) : (putGang s g).starts = s.starts := rfl
@[simp] theorem putGang_rsStats (s : State) (g : Gang) : (putGang s g).rsStats = s.rsStats := rfl
@[simp] theorem putGang_clockSec (s : State) (g : Gang) : (putGang s g).clockSec = s.clockSec := rfl
@[simp] theorem putGang_clockNs (s : State) (g : Gang) : (putGang s g).clockNs = s.clockNs := rfl
@[simp] theorem putGang_ptpLock (s : State) (g : Gang) : (putGang s g).ptpLock = s.ptpLock := rfl
@[simp] theorem putGang_stage (s : State) (g : Gang) : (putGang s g).stage = s.stage := rfl
@[simp] theorem putGang_devId (s : State) (g : Gang) : (putGang s g).devId = s.devId := rfl
@[simp] theorem putGang_svcCode (s : State) (g : Gang) : (putGang s g).svcCode = s.svcCode := rfl
@[simp] theorem putGang_svcVec (s : State) (g : Gang) : (putGang s g).svcVec = s.svcVec := rfl
@[simp] theorem putGang_powered (s : State) (g : Gang) : (putGang s g).powered = s.powered := rfl
@[simp] theorem putGang_ochre (s : State) (g : Gang) : (putGang s g).ochre = s.ochre := rfl
@[simp] theorem putGang_outbox (s : State) (g : Gang) : (putGang s g).outbox = s.outbox := rfl
@[simp] theorem putGang_free (s : State) (g : Gang) : (putGang s g).free = s.free := rfl

/-! ### sendOut -/

@[simp] theorem sendOut_agenda (s : State) (m : OutMsg) : (sendOut s m).agenda = s.agenda := rfl
@[simp] theorem sendOut_turn (s : State) (m : OutMsg) : (sendOut s m).turn = s.turn := rfl
@[simp] theorem sendOut_iss (s : State) (m : OutMsg) : (sendOut s m).iss = s.iss := rfl
@[simp] theorem sendOut_gangs (s : State) (m : OutMsg) : (sendOut s m).gangs = s.gangs := rfl
@[simp] theorem sendOut_cores (s : State) (m : OutMsg) : (sendOut s m).cores = s.cores := rfl
@[simp] theorem sendOut_clusters (s : State) (m : OutMsg) : (sendOut s m).clusters = s.clusters := rfl
@[simp] theorem sendOut_mem (s : State) (m : OutMsg) : (sendOut s m).mem = s.mem := rfl
@[simp] theorem sendOut_shadowFar (s : State) (m : OutMsg) : (sendOut s m).shadowFar = s.shadowFar := rfl
@[simp] theorem sendOut_watch (s : State) (m : OutMsg) : (sendOut s m).watch = s.watch := rfl
@[simp] theorem sendOut_quota (s : State) (m : OutMsg) : (sendOut s m).quota = s.quota := rfl
@[simp] theorem sendOut_kbudget (s : State) (m : OutMsg) : (sendOut s m).kbudget = s.kbudget := rfl
@[simp] theorem sendOut_ownedRegs (s : State) (m : OutMsg) : (sendOut s m).ownedRegs = s.ownedRegs := rfl
@[simp] theorem sendOut_ownedTiles (s : State) (m : OutMsg) : (sendOut s m).ownedTiles = s.ownedTiles := rfl
@[simp] theorem sendOut_tickets (s : State) (m : OutMsg) : (sendOut s m).tickets = s.tickets := rfl
@[simp] theorem sendOut_nextTicket (s : State) (m : OutMsg) : (sendOut s m).nextTicket = s.nextTicket := rfl
@[simp] theorem sendOut_claims (s : State) (m : OutMsg) : (sendOut s m).claims = s.claims := rfl
@[simp] theorem sendOut_gathers (s : State) (m : OutMsg) : (sendOut s m).gathers = s.gathers := rfl
@[simp] theorem sendOut_invals (s : State) (m : OutMsg) : (sendOut s m).invals = s.invals := rfl
@[simp] theorem sendOut_invalNo (s : State) (m : OutMsg) : (sendOut s m).invalNo = s.invalNo := rfl
@[simp] theorem sendOut_ring (s : State) (m : OutMsg) : (sendOut s m).ring = s.ring := rfl
@[simp] theorem sendOut_recSeq (s : State) (m : OutMsg) : (sendOut s m).recSeq = s.recSeq := rfl
@[simp] theorem sendOut_lost (s : State) (m : OutMsg) : (sendOut s m).lost = s.lost := rfl
@[simp] theorem sendOut_ringDown (s : State) (m : OutMsg) : (sendOut s m).ringDown = s.ringDown := rfl
@[simp] theorem sendOut_early (s : State) (m : OutMsg) : (sendOut s m).early = s.early := rfl
@[simp] theorem sendOut_waiting (s : State) (m : OutMsg) : (sendOut s m).waiting = s.waiting := rfl
@[simp] theorem sendOut_queues (s : State) (m : OutMsg) : (sendOut s m).queues = s.queues := rfl
@[simp] theorem sendOut_firstTurn (s : State) (m : OutMsg) : (sendOut s m).firstTurn = s.firstTurn := rfl
@[simp] theorem sendOut_ready (s : State) (m : OutMsg) : (sendOut s m).ready = s.ready := rfl
@[simp] theorem sendOut_served (s : State) (m : OutMsg) : (sendOut s m).served = s.served := rfl
@[simp] theorem sendOut_watches (s : State) (m : OutMsg) : (sendOut s m).watches = s.watches := rfl
@[simp] theorem sendOut_steers (s : State) (m : OutMsg) : (sendOut s m).steers = s.steers := rfl
@[simp] theorem sendOut_arrivals (s : State) (m : OutMsg) : (sendOut s m).arrivals = s.arrivals := rfl
@[simp] theorem sendOut_windows (s : State) (m : OutMsg) : (sendOut s m).windows = s.windows := rfl
@[simp] theorem sendOut_nextRkey (s : State) (m : OutMsg) : (sendOut s m).nextRkey = s.nextRkey := rfl
@[simp] theorem sendOut_images (s : State) (m : OutMsg) : (sendOut s m).images = s.images := rfl
@[simp] theorem sendOut_nextImage (s : State) (m : OutMsg) : (sendOut s m).nextImage = s.nextImage := rfl
@[simp] theorem sendOut_saved (s : State) (m : OutMsg) : (sendOut s m).saved = s.saved := rfl
@[simp] theorem sendOut_kept (s : State) (m : OutMsg) : (sendOut s m).kept = s.kept := rfl
@[simp] theorem sendOut_bad (s : State) (m : OutMsg) : (sendOut s m).bad = s.bad := rfl
@[simp] theorem sendOut_badReg (s : State) (m : OutMsg) : (sendOut s m).badReg = s.badReg := rfl
@[simp] theorem sendOut_journal (s : State) (m : OutMsg) : (sendOut s m).journal = s.journal := rfl
@[simp] theorem sendOut_lastSeq (s : State) (m : OutMsg) : (sendOut s m).lastSeq = s.lastSeq := rfl
@[simp] theorem sendOut_eventSeq (s : State) (m : OutMsg) : (sendOut s m).eventSeq = s.eventSeq := rfl
@[simp] theorem sendOut_dispatchNo (s : State) (m : OutMsg) : (sendOut s m).dispatchNo = s.dispatchNo := rfl
@[simp] theorem sendOut_dispatched (s : State) (m : OutMsg) : (sendOut s m).dispatched = s.dispatched := rfl
@[simp] theorem sendOut_confFence (s : State) (m : OutMsg) : (sendOut s m).confFence = s.confFence := rfl
@[simp] theorem sendOut_boot (s : State) (m : OutMsg) : (sendOut s m).boot = s.boot := rfl
@[simp] theorem sendOut_quiesce (s : State) (m : OutMsg) : (sendOut s m).quiesce = s.quiesce := rfl
@[simp] theorem sendOut_links (s : State) (m : OutMsg) : (sendOut s m).links = s.links := rfl
@[simp] theorem sendOut_routeGen (s : State) (m : OutMsg) : (sendOut s m).routeGen = s.routeGen := rfl
@[simp] theorem sendOut_replies (s : State) (m : OutMsg) : (sendOut s m).replies = s.replies := rfl
@[simp] theorem sendOut_seqNo (s : State) (m : OutMsg) : (sendOut s m).seqNo = s.seqNo := rfl
@[simp] theorem sendOut_remote (s : State) (m : OutMsg) : (sendOut s m).remote = s.remote := rfl
@[simp] theorem sendOut_seqMem (s : State) (m : OutMsg) : (sendOut s m).seqMem = s.seqMem := rfl
@[simp] theorem sendOut_pendIn (s : State) (m : OutMsg) : (sendOut s m).pendIn = s.pendIn := rfl
@[simp] theorem sendOut_msgBuf (s : State) (m : OutMsg) : (sendOut s m).msgBuf = s.msgBuf := rfl
@[simp] theorem sendOut_edges (s : State) (m : OutMsg) : (sendOut s m).edges = s.edges := rfl
@[simp] theorem sendOut_plans (s : State) (m : OutMsg) : (sendOut s m).plans = s.plans := rfl
@[simp] theorem sendOut_starts (s : State) (m : OutMsg) : (sendOut s m).starts = s.starts := rfl
@[simp] theorem sendOut_rsStats (s : State) (m : OutMsg) : (sendOut s m).rsStats = s.rsStats := rfl
@[simp] theorem sendOut_clockSec (s : State) (m : OutMsg) : (sendOut s m).clockSec = s.clockSec := rfl
@[simp] theorem sendOut_clockNs (s : State) (m : OutMsg) : (sendOut s m).clockNs = s.clockNs := rfl
@[simp] theorem sendOut_ptpLock (s : State) (m : OutMsg) : (sendOut s m).ptpLock = s.ptpLock := rfl
@[simp] theorem sendOut_stage (s : State) (m : OutMsg) : (sendOut s m).stage = s.stage := rfl
@[simp] theorem sendOut_devId (s : State) (m : OutMsg) : (sendOut s m).devId = s.devId := rfl
@[simp] theorem sendOut_svcCode (s : State) (m : OutMsg) : (sendOut s m).svcCode = s.svcCode := rfl
@[simp] theorem sendOut_svcVec (s : State) (m : OutMsg) : (sendOut s m).svcVec = s.svcVec := rfl
@[simp] theorem sendOut_powered (s : State) (m : OutMsg) : (sendOut s m).powered = s.powered := rfl
@[simp] theorem sendOut_ochre (s : State) (m : OutMsg) : (sendOut s m).ochre = s.ochre := rfl
@[simp] theorem sendOut_free (s : State) (m : OutMsg) : (sendOut s m).free = s.free := rfl

/-! ### takeFree -/

@[simp] theorem takeFree_agenda (s : State) : ((takeFree s).2).agenda = s.agenda := rfl
@[simp] theorem takeFree_turn (s : State) : ((takeFree s).2).turn = s.turn := rfl
@[simp] theorem takeFree_iss (s : State) : ((takeFree s).2).iss = s.iss := rfl
@[simp] theorem takeFree_gangs (s : State) : ((takeFree s).2).gangs = s.gangs := rfl
@[simp] theorem takeFree_cores (s : State) : ((takeFree s).2).cores = s.cores := rfl
@[simp] theorem takeFree_clusters (s : State) : ((takeFree s).2).clusters = s.clusters := rfl
@[simp] theorem takeFree_mem (s : State) : ((takeFree s).2).mem = s.mem := rfl
@[simp] theorem takeFree_shadowFar (s : State) : ((takeFree s).2).shadowFar = s.shadowFar := rfl
@[simp] theorem takeFree_watch (s : State) : ((takeFree s).2).watch = s.watch := rfl
@[simp] theorem takeFree_quota (s : State) : ((takeFree s).2).quota = s.quota := rfl
@[simp] theorem takeFree_kbudget (s : State) : ((takeFree s).2).kbudget = s.kbudget := rfl
@[simp] theorem takeFree_ownedRegs (s : State) : ((takeFree s).2).ownedRegs = s.ownedRegs := rfl
@[simp] theorem takeFree_ownedTiles (s : State) : ((takeFree s).2).ownedTiles = s.ownedTiles := rfl
@[simp] theorem takeFree_tickets (s : State) : ((takeFree s).2).tickets = s.tickets := rfl
@[simp] theorem takeFree_nextTicket (s : State) : ((takeFree s).2).nextTicket = s.nextTicket := rfl
@[simp] theorem takeFree_claims (s : State) : ((takeFree s).2).claims = s.claims := rfl
@[simp] theorem takeFree_gathers (s : State) : ((takeFree s).2).gathers = s.gathers := rfl
@[simp] theorem takeFree_invals (s : State) : ((takeFree s).2).invals = s.invals := rfl
@[simp] theorem takeFree_invalNo (s : State) : ((takeFree s).2).invalNo = s.invalNo := rfl
@[simp] theorem takeFree_ring (s : State) : ((takeFree s).2).ring = s.ring := rfl
@[simp] theorem takeFree_recSeq (s : State) : ((takeFree s).2).recSeq = s.recSeq := rfl
@[simp] theorem takeFree_lost (s : State) : ((takeFree s).2).lost = s.lost := rfl
@[simp] theorem takeFree_ringDown (s : State) : ((takeFree s).2).ringDown = s.ringDown := rfl
@[simp] theorem takeFree_early (s : State) : ((takeFree s).2).early = s.early := rfl
@[simp] theorem takeFree_waiting (s : State) : ((takeFree s).2).waiting = s.waiting := rfl
@[simp] theorem takeFree_queues (s : State) : ((takeFree s).2).queues = s.queues := rfl
@[simp] theorem takeFree_firstTurn (s : State) : ((takeFree s).2).firstTurn = s.firstTurn := rfl
@[simp] theorem takeFree_ready (s : State) : ((takeFree s).2).ready = s.ready := rfl
@[simp] theorem takeFree_served (s : State) : ((takeFree s).2).served = s.served := rfl
@[simp] theorem takeFree_watches (s : State) : ((takeFree s).2).watches = s.watches := rfl
@[simp] theorem takeFree_steers (s : State) : ((takeFree s).2).steers = s.steers := rfl
@[simp] theorem takeFree_arrivals (s : State) : ((takeFree s).2).arrivals = s.arrivals := rfl
@[simp] theorem takeFree_windows (s : State) : ((takeFree s).2).windows = s.windows := rfl
@[simp] theorem takeFree_nextRkey (s : State) : ((takeFree s).2).nextRkey = s.nextRkey := rfl
@[simp] theorem takeFree_images (s : State) : ((takeFree s).2).images = s.images := rfl
@[simp] theorem takeFree_nextImage (s : State) : ((takeFree s).2).nextImage = s.nextImage := rfl
@[simp] theorem takeFree_saved (s : State) : ((takeFree s).2).saved = s.saved := rfl
@[simp] theorem takeFree_kept (s : State) : ((takeFree s).2).kept = s.kept := rfl
@[simp] theorem takeFree_bad (s : State) : ((takeFree s).2).bad = s.bad := rfl
@[simp] theorem takeFree_badReg (s : State) : ((takeFree s).2).badReg = s.badReg := rfl
@[simp] theorem takeFree_journal (s : State) : ((takeFree s).2).journal = s.journal := rfl
@[simp] theorem takeFree_lastSeq (s : State) : ((takeFree s).2).lastSeq = s.lastSeq := rfl
@[simp] theorem takeFree_eventSeq (s : State) : ((takeFree s).2).eventSeq = s.eventSeq := rfl
@[simp] theorem takeFree_dispatchNo (s : State) : ((takeFree s).2).dispatchNo = s.dispatchNo := rfl
@[simp] theorem takeFree_dispatched (s : State) : ((takeFree s).2).dispatched = s.dispatched := rfl
@[simp] theorem takeFree_confFence (s : State) : ((takeFree s).2).confFence = s.confFence := rfl
@[simp] theorem takeFree_boot (s : State) : ((takeFree s).2).boot = s.boot := rfl
@[simp] theorem takeFree_quiesce (s : State) : ((takeFree s).2).quiesce = s.quiesce := rfl
@[simp] theorem takeFree_links (s : State) : ((takeFree s).2).links = s.links := rfl
@[simp] theorem takeFree_routeGen (s : State) : ((takeFree s).2).routeGen = s.routeGen := rfl
@[simp] theorem takeFree_replies (s : State) : ((takeFree s).2).replies = s.replies := rfl
@[simp] theorem takeFree_seqNo (s : State) : ((takeFree s).2).seqNo = s.seqNo := rfl
@[simp] theorem takeFree_remote (s : State) : ((takeFree s).2).remote = s.remote := rfl
@[simp] theorem takeFree_seqMem (s : State) : ((takeFree s).2).seqMem = s.seqMem := rfl
@[simp] theorem takeFree_pendIn (s : State) : ((takeFree s).2).pendIn = s.pendIn := rfl
@[simp] theorem takeFree_msgBuf (s : State) : ((takeFree s).2).msgBuf = s.msgBuf := rfl
@[simp] theorem takeFree_edges (s : State) : ((takeFree s).2).edges = s.edges := rfl
@[simp] theorem takeFree_plans (s : State) : ((takeFree s).2).plans = s.plans := rfl
@[simp] theorem takeFree_starts (s : State) : ((takeFree s).2).starts = s.starts := rfl
@[simp] theorem takeFree_rsStats (s : State) : ((takeFree s).2).rsStats = s.rsStats := rfl
@[simp] theorem takeFree_clockSec (s : State) : ((takeFree s).2).clockSec = s.clockSec := rfl
@[simp] theorem takeFree_clockNs (s : State) : ((takeFree s).2).clockNs = s.clockNs := rfl
@[simp] theorem takeFree_ptpLock (s : State) : ((takeFree s).2).ptpLock = s.ptpLock := rfl
@[simp] theorem takeFree_stage (s : State) : ((takeFree s).2).stage = s.stage := rfl
@[simp] theorem takeFree_devId (s : State) : ((takeFree s).2).devId = s.devId := rfl
@[simp] theorem takeFree_svcCode (s : State) : ((takeFree s).2).svcCode = s.svcCode := rfl
@[simp] theorem takeFree_svcVec (s : State) : ((takeFree s).2).svcVec = s.svcVec := rfl
@[simp] theorem takeFree_powered (s : State) : ((takeFree s).2).powered = s.powered := rfl
@[simp] theorem takeFree_ochre (s : State) : ((takeFree s).2).ochre = s.ochre := rfl
@[simp] theorem takeFree_outbox (s : State) : ((takeFree s).2).outbox = s.outbox := rfl

/-! ### setLink -/

@[simp] theorem setLink_agenda (s : State) (p : Nat) (l : Link) : (setLink s p l).agenda = s.agenda := rfl
@[simp] theorem setLink_turn (s : State) (p : Nat) (l : Link) : (setLink s p l).turn = s.turn := rfl
@[simp] theorem setLink_iss (s : State) (p : Nat) (l : Link) : (setLink s p l).iss = s.iss := rfl
@[simp] theorem setLink_gangs (s : State) (p : Nat) (l : Link) : (setLink s p l).gangs = s.gangs := rfl
@[simp] theorem setLink_cores (s : State) (p : Nat) (l : Link) : (setLink s p l).cores = s.cores := rfl
@[simp] theorem setLink_clusters (s : State) (p : Nat) (l : Link) : (setLink s p l).clusters = s.clusters := rfl
@[simp] theorem setLink_mem (s : State) (p : Nat) (l : Link) : (setLink s p l).mem = s.mem := rfl
@[simp] theorem setLink_shadowFar (s : State) (p : Nat) (l : Link) : (setLink s p l).shadowFar = s.shadowFar := rfl
@[simp] theorem setLink_watch (s : State) (p : Nat) (l : Link) : (setLink s p l).watch = s.watch := rfl
@[simp] theorem setLink_quota (s : State) (p : Nat) (l : Link) : (setLink s p l).quota = s.quota := rfl
@[simp] theorem setLink_kbudget (s : State) (p : Nat) (l : Link) : (setLink s p l).kbudget = s.kbudget := rfl
@[simp] theorem setLink_ownedRegs (s : State) (p : Nat) (l : Link) : (setLink s p l).ownedRegs = s.ownedRegs := rfl
@[simp] theorem setLink_ownedTiles (s : State) (p : Nat) (l : Link) : (setLink s p l).ownedTiles = s.ownedTiles := rfl
@[simp] theorem setLink_tickets (s : State) (p : Nat) (l : Link) : (setLink s p l).tickets = s.tickets := rfl
@[simp] theorem setLink_nextTicket (s : State) (p : Nat) (l : Link) : (setLink s p l).nextTicket = s.nextTicket := rfl
@[simp] theorem setLink_claims (s : State) (p : Nat) (l : Link) : (setLink s p l).claims = s.claims := rfl
@[simp] theorem setLink_gathers (s : State) (p : Nat) (l : Link) : (setLink s p l).gathers = s.gathers := rfl
@[simp] theorem setLink_invals (s : State) (p : Nat) (l : Link) : (setLink s p l).invals = s.invals := rfl
@[simp] theorem setLink_invalNo (s : State) (p : Nat) (l : Link) : (setLink s p l).invalNo = s.invalNo := rfl
@[simp] theorem setLink_ring (s : State) (p : Nat) (l : Link) : (setLink s p l).ring = s.ring := rfl
@[simp] theorem setLink_recSeq (s : State) (p : Nat) (l : Link) : (setLink s p l).recSeq = s.recSeq := rfl
@[simp] theorem setLink_lost (s : State) (p : Nat) (l : Link) : (setLink s p l).lost = s.lost := rfl
@[simp] theorem setLink_ringDown (s : State) (p : Nat) (l : Link) : (setLink s p l).ringDown = s.ringDown := rfl
@[simp] theorem setLink_early (s : State) (p : Nat) (l : Link) : (setLink s p l).early = s.early := rfl
@[simp] theorem setLink_waiting (s : State) (p : Nat) (l : Link) : (setLink s p l).waiting = s.waiting := rfl
@[simp] theorem setLink_queues (s : State) (p : Nat) (l : Link) : (setLink s p l).queues = s.queues := rfl
@[simp] theorem setLink_firstTurn (s : State) (p : Nat) (l : Link) : (setLink s p l).firstTurn = s.firstTurn := rfl
@[simp] theorem setLink_ready (s : State) (p : Nat) (l : Link) : (setLink s p l).ready = s.ready := rfl
@[simp] theorem setLink_served (s : State) (p : Nat) (l : Link) : (setLink s p l).served = s.served := rfl
@[simp] theorem setLink_watches (s : State) (p : Nat) (l : Link) : (setLink s p l).watches = s.watches := rfl
@[simp] theorem setLink_steers (s : State) (p : Nat) (l : Link) : (setLink s p l).steers = s.steers := rfl
@[simp] theorem setLink_arrivals (s : State) (p : Nat) (l : Link) : (setLink s p l).arrivals = s.arrivals := rfl
@[simp] theorem setLink_windows (s : State) (p : Nat) (l : Link) : (setLink s p l).windows = s.windows := rfl
@[simp] theorem setLink_nextRkey (s : State) (p : Nat) (l : Link) : (setLink s p l).nextRkey = s.nextRkey := rfl
@[simp] theorem setLink_images (s : State) (p : Nat) (l : Link) : (setLink s p l).images = s.images := rfl
@[simp] theorem setLink_nextImage (s : State) (p : Nat) (l : Link) : (setLink s p l).nextImage = s.nextImage := rfl
@[simp] theorem setLink_saved (s : State) (p : Nat) (l : Link) : (setLink s p l).saved = s.saved := rfl
@[simp] theorem setLink_kept (s : State) (p : Nat) (l : Link) : (setLink s p l).kept = s.kept := rfl
@[simp] theorem setLink_bad (s : State) (p : Nat) (l : Link) : (setLink s p l).bad = s.bad := rfl
@[simp] theorem setLink_badReg (s : State) (p : Nat) (l : Link) : (setLink s p l).badReg = s.badReg := rfl
@[simp] theorem setLink_journal (s : State) (p : Nat) (l : Link) : (setLink s p l).journal = s.journal := rfl
@[simp] theorem setLink_lastSeq (s : State) (p : Nat) (l : Link) : (setLink s p l).lastSeq = s.lastSeq := rfl
@[simp] theorem setLink_eventSeq (s : State) (p : Nat) (l : Link) : (setLink s p l).eventSeq = s.eventSeq := rfl
@[simp] theorem setLink_dispatchNo (s : State) (p : Nat) (l : Link) : (setLink s p l).dispatchNo = s.dispatchNo := rfl
@[simp] theorem setLink_dispatched (s : State) (p : Nat) (l : Link) : (setLink s p l).dispatched = s.dispatched := rfl
@[simp] theorem setLink_confFence (s : State) (p : Nat) (l : Link) : (setLink s p l).confFence = s.confFence := rfl
@[simp] theorem setLink_boot (s : State) (p : Nat) (l : Link) : (setLink s p l).boot = s.boot := rfl
@[simp] theorem setLink_quiesce (s : State) (p : Nat) (l : Link) : (setLink s p l).quiesce = s.quiesce := rfl
@[simp] theorem setLink_replies (s : State) (p : Nat) (l : Link) : (setLink s p l).replies = s.replies := rfl
@[simp] theorem setLink_seqNo (s : State) (p : Nat) (l : Link) : (setLink s p l).seqNo = s.seqNo := rfl
@[simp] theorem setLink_remote (s : State) (p : Nat) (l : Link) : (setLink s p l).remote = s.remote := rfl
@[simp] theorem setLink_seqMem (s : State) (p : Nat) (l : Link) : (setLink s p l).seqMem = s.seqMem := rfl
@[simp] theorem setLink_pendIn (s : State) (p : Nat) (l : Link) : (setLink s p l).pendIn = s.pendIn := rfl
@[simp] theorem setLink_msgBuf (s : State) (p : Nat) (l : Link) : (setLink s p l).msgBuf = s.msgBuf := rfl
@[simp] theorem setLink_edges (s : State) (p : Nat) (l : Link) : (setLink s p l).edges = s.edges := rfl
@[simp] theorem setLink_plans (s : State) (p : Nat) (l : Link) : (setLink s p l).plans = s.plans := rfl
@[simp] theorem setLink_starts (s : State) (p : Nat) (l : Link) : (setLink s p l).starts = s.starts := rfl
@[simp] theorem setLink_rsStats (s : State) (p : Nat) (l : Link) : (setLink s p l).rsStats = s.rsStats := rfl
@[simp] theorem setLink_clockSec (s : State) (p : Nat) (l : Link) : (setLink s p l).clockSec = s.clockSec := rfl
@[simp] theorem setLink_clockNs (s : State) (p : Nat) (l : Link) : (setLink s p l).clockNs = s.clockNs := rfl
@[simp] theorem setLink_ptpLock (s : State) (p : Nat) (l : Link) : (setLink s p l).ptpLock = s.ptpLock := rfl
@[simp] theorem setLink_stage (s : State) (p : Nat) (l : Link) : (setLink s p l).stage = s.stage := rfl
@[simp] theorem setLink_devId (s : State) (p : Nat) (l : Link) : (setLink s p l).devId = s.devId := rfl
@[simp] theorem setLink_svcCode (s : State) (p : Nat) (l : Link) : (setLink s p l).svcCode = s.svcCode := rfl
@[simp] theorem setLink_svcVec (s : State) (p : Nat) (l : Link) : (setLink s p l).svcVec = s.svcVec := rfl
@[simp] theorem setLink_powered (s : State) (p : Nat) (l : Link) : (setLink s p l).powered = s.powered := rfl
@[simp] theorem setLink_ochre (s : State) (p : Nat) (l : Link) : (setLink s p l).ochre = s.ochre := rfl
@[simp] theorem setLink_outbox (s : State) (p : Nat) (l : Link) : (setLink s p l).outbox = s.outbox := rfl
@[simp] theorem setLink_free (s : State) (p : Nat) (l : Link) : (setLink s p l).free = s.free := rfl

/-! ### spadWrites -/

@[simp] theorem spadWrites_agenda (s : State) (cl a : Nat) (bs : List Byte) : (spadWrites s cl a bs).agenda = s.agenda := rfl
@[simp] theorem spadWrites_turn (s : State) (cl a : Nat) (bs : List Byte) : (spadWrites s cl a bs).turn = s.turn := rfl
@[simp] theorem spadWrites_iss (s : State) (cl a : Nat) (bs : List Byte) : (spadWrites s cl a bs).iss = s.iss := rfl
@[simp] theorem spadWrites_gangs (s : State) (cl a : Nat) (bs : List Byte) : (spadWrites s cl a bs).gangs = s.gangs := rfl
@[simp] theorem spadWrites_cores (s : State) (cl a : Nat) (bs : List Byte) : (spadWrites s cl a bs).cores = s.cores := rfl
@[simp] theorem spadWrites_mem (s : State) (cl a : Nat) (bs : List Byte) : (spadWrites s cl a bs).mem = s.mem := rfl
@[simp] theorem spadWrites_shadowFar (s : State) (cl a : Nat) (bs : List Byte) : (spadWrites s cl a bs).shadowFar = s.shadowFar := rfl
@[simp] theorem spadWrites_watch (s : State) (cl a : Nat) (bs : List Byte) : (spadWrites s cl a bs).watch = s.watch := rfl
@[simp] theorem spadWrites_quota (s : State) (cl a : Nat) (bs : List Byte) : (spadWrites s cl a bs).quota = s.quota := rfl
@[simp] theorem spadWrites_kbudget (s : State) (cl a : Nat) (bs : List Byte) : (spadWrites s cl a bs).kbudget = s.kbudget := rfl
@[simp] theorem spadWrites_ownedRegs (s : State) (cl a : Nat) (bs : List Byte) : (spadWrites s cl a bs).ownedRegs = s.ownedRegs := rfl
@[simp] theorem spadWrites_ownedTiles (s : State) (cl a : Nat) (bs : List Byte) : (spadWrites s cl a bs).ownedTiles = s.ownedTiles := rfl
@[simp] theorem spadWrites_tickets (s : State) (cl a : Nat) (bs : List Byte) : (spadWrites s cl a bs).tickets = s.tickets := rfl
@[simp] theorem spadWrites_nextTicket (s : State) (cl a : Nat) (bs : List Byte) : (spadWrites s cl a bs).nextTicket = s.nextTicket := rfl
@[simp] theorem spadWrites_claims (s : State) (cl a : Nat) (bs : List Byte) : (spadWrites s cl a bs).claims = s.claims := rfl
@[simp] theorem spadWrites_gathers (s : State) (cl a : Nat) (bs : List Byte) : (spadWrites s cl a bs).gathers = s.gathers := rfl
@[simp] theorem spadWrites_invals (s : State) (cl a : Nat) (bs : List Byte) : (spadWrites s cl a bs).invals = s.invals := rfl
@[simp] theorem spadWrites_invalNo (s : State) (cl a : Nat) (bs : List Byte) : (spadWrites s cl a bs).invalNo = s.invalNo := rfl
@[simp] theorem spadWrites_ring (s : State) (cl a : Nat) (bs : List Byte) : (spadWrites s cl a bs).ring = s.ring := rfl
@[simp] theorem spadWrites_recSeq (s : State) (cl a : Nat) (bs : List Byte) : (spadWrites s cl a bs).recSeq = s.recSeq := rfl
@[simp] theorem spadWrites_lost (s : State) (cl a : Nat) (bs : List Byte) : (spadWrites s cl a bs).lost = s.lost := rfl
@[simp] theorem spadWrites_ringDown (s : State) (cl a : Nat) (bs : List Byte) : (spadWrites s cl a bs).ringDown = s.ringDown := rfl
@[simp] theorem spadWrites_early (s : State) (cl a : Nat) (bs : List Byte) : (spadWrites s cl a bs).early = s.early := rfl
@[simp] theorem spadWrites_waiting (s : State) (cl a : Nat) (bs : List Byte) : (spadWrites s cl a bs).waiting = s.waiting := rfl
@[simp] theorem spadWrites_queues (s : State) (cl a : Nat) (bs : List Byte) : (spadWrites s cl a bs).queues = s.queues := rfl
@[simp] theorem spadWrites_firstTurn (s : State) (cl a : Nat) (bs : List Byte) : (spadWrites s cl a bs).firstTurn = s.firstTurn := rfl
@[simp] theorem spadWrites_ready (s : State) (cl a : Nat) (bs : List Byte) : (spadWrites s cl a bs).ready = s.ready := rfl
@[simp] theorem spadWrites_served (s : State) (cl a : Nat) (bs : List Byte) : (spadWrites s cl a bs).served = s.served := rfl
@[simp] theorem spadWrites_watches (s : State) (cl a : Nat) (bs : List Byte) : (spadWrites s cl a bs).watches = s.watches := rfl
@[simp] theorem spadWrites_steers (s : State) (cl a : Nat) (bs : List Byte) : (spadWrites s cl a bs).steers = s.steers := rfl
@[simp] theorem spadWrites_arrivals (s : State) (cl a : Nat) (bs : List Byte) : (spadWrites s cl a bs).arrivals = s.arrivals := rfl
@[simp] theorem spadWrites_windows (s : State) (cl a : Nat) (bs : List Byte) : (spadWrites s cl a bs).windows = s.windows := rfl
@[simp] theorem spadWrites_nextRkey (s : State) (cl a : Nat) (bs : List Byte) : (spadWrites s cl a bs).nextRkey = s.nextRkey := rfl
@[simp] theorem spadWrites_images (s : State) (cl a : Nat) (bs : List Byte) : (spadWrites s cl a bs).images = s.images := rfl
@[simp] theorem spadWrites_nextImage (s : State) (cl a : Nat) (bs : List Byte) : (spadWrites s cl a bs).nextImage = s.nextImage := rfl
@[simp] theorem spadWrites_saved (s : State) (cl a : Nat) (bs : List Byte) : (spadWrites s cl a bs).saved = s.saved := rfl
@[simp] theorem spadWrites_kept (s : State) (cl a : Nat) (bs : List Byte) : (spadWrites s cl a bs).kept = s.kept := rfl
@[simp] theorem spadWrites_bad (s : State) (cl a : Nat) (bs : List Byte) : (spadWrites s cl a bs).bad = s.bad := rfl
@[simp] theorem spadWrites_badReg (s : State) (cl a : Nat) (bs : List Byte) : (spadWrites s cl a bs).badReg = s.badReg := rfl
@[simp] theorem spadWrites_journal (s : State) (cl a : Nat) (bs : List Byte) : (spadWrites s cl a bs).journal = s.journal := rfl
@[simp] theorem spadWrites_lastSeq (s : State) (cl a : Nat) (bs : List Byte) : (spadWrites s cl a bs).lastSeq = s.lastSeq := rfl
@[simp] theorem spadWrites_eventSeq (s : State) (cl a : Nat) (bs : List Byte) : (spadWrites s cl a bs).eventSeq = s.eventSeq := rfl
@[simp] theorem spadWrites_dispatchNo (s : State) (cl a : Nat) (bs : List Byte) : (spadWrites s cl a bs).dispatchNo = s.dispatchNo := rfl
@[simp] theorem spadWrites_dispatched (s : State) (cl a : Nat) (bs : List Byte) : (spadWrites s cl a bs).dispatched = s.dispatched := rfl
@[simp] theorem spadWrites_confFence (s : State) (cl a : Nat) (bs : List Byte) : (spadWrites s cl a bs).confFence = s.confFence := rfl
@[simp] theorem spadWrites_boot (s : State) (cl a : Nat) (bs : List Byte) : (spadWrites s cl a bs).boot = s.boot := rfl
@[simp] theorem spadWrites_quiesce (s : State) (cl a : Nat) (bs : List Byte) : (spadWrites s cl a bs).quiesce = s.quiesce := rfl
@[simp] theorem spadWrites_links (s : State) (cl a : Nat) (bs : List Byte) : (spadWrites s cl a bs).links = s.links := rfl
@[simp] theorem spadWrites_routeGen (s : State) (cl a : Nat) (bs : List Byte) : (spadWrites s cl a bs).routeGen = s.routeGen := rfl
@[simp] theorem spadWrites_replies (s : State) (cl a : Nat) (bs : List Byte) : (spadWrites s cl a bs).replies = s.replies := rfl
@[simp] theorem spadWrites_seqNo (s : State) (cl a : Nat) (bs : List Byte) : (spadWrites s cl a bs).seqNo = s.seqNo := rfl
@[simp] theorem spadWrites_remote (s : State) (cl a : Nat) (bs : List Byte) : (spadWrites s cl a bs).remote = s.remote := rfl
@[simp] theorem spadWrites_seqMem (s : State) (cl a : Nat) (bs : List Byte) : (spadWrites s cl a bs).seqMem = s.seqMem := rfl
@[simp] theorem spadWrites_pendIn (s : State) (cl a : Nat) (bs : List Byte) : (spadWrites s cl a bs).pendIn = s.pendIn := rfl
@[simp] theorem spadWrites_msgBuf (s : State) (cl a : Nat) (bs : List Byte) : (spadWrites s cl a bs).msgBuf = s.msgBuf := rfl
@[simp] theorem spadWrites_edges (s : State) (cl a : Nat) (bs : List Byte) : (spadWrites s cl a bs).edges = s.edges := rfl
@[simp] theorem spadWrites_plans (s : State) (cl a : Nat) (bs : List Byte) : (spadWrites s cl a bs).plans = s.plans := rfl
@[simp] theorem spadWrites_starts (s : State) (cl a : Nat) (bs : List Byte) : (spadWrites s cl a bs).starts = s.starts := rfl
@[simp] theorem spadWrites_rsStats (s : State) (cl a : Nat) (bs : List Byte) : (spadWrites s cl a bs).rsStats = s.rsStats := rfl
@[simp] theorem spadWrites_clockSec (s : State) (cl a : Nat) (bs : List Byte) : (spadWrites s cl a bs).clockSec = s.clockSec := rfl
@[simp] theorem spadWrites_clockNs (s : State) (cl a : Nat) (bs : List Byte) : (spadWrites s cl a bs).clockNs = s.clockNs := rfl
@[simp] theorem spadWrites_ptpLock (s : State) (cl a : Nat) (bs : List Byte) : (spadWrites s cl a bs).ptpLock = s.ptpLock := rfl
@[simp] theorem spadWrites_stage (s : State) (cl a : Nat) (bs : List Byte) : (spadWrites s cl a bs).stage = s.stage := rfl
@[simp] theorem spadWrites_devId (s : State) (cl a : Nat) (bs : List Byte) : (spadWrites s cl a bs).devId = s.devId := rfl
@[simp] theorem spadWrites_svcCode (s : State) (cl a : Nat) (bs : List Byte) : (spadWrites s cl a bs).svcCode = s.svcCode := rfl
@[simp] theorem spadWrites_svcVec (s : State) (cl a : Nat) (bs : List Byte) : (spadWrites s cl a bs).svcVec = s.svcVec := rfl
@[simp] theorem spadWrites_powered (s : State) (cl a : Nat) (bs : List Byte) : (spadWrites s cl a bs).powered = s.powered := rfl
@[simp] theorem spadWrites_ochre (s : State) (cl a : Nat) (bs : List Byte) : (spadWrites s cl a bs).ochre = s.ochre := rfl
@[simp] theorem spadWrites_outbox (s : State) (cl a : Nat) (bs : List Byte) : (spadWrites s cl a bs).outbox = s.outbox := rfl
@[simp] theorem spadWrites_free (s : State) (cl a : Nat) (bs : List Byte) : (spadWrites s cl a bs).free = s.free := rfl

/-! ### clearShadow -/

@[simp] theorem clearShadow_agenda (s : State) (cl a n : Nat) : (clearShadow s cl a n).agenda = s.agenda := rfl
@[simp] theorem clearShadow_turn (s : State) (cl a n : Nat) : (clearShadow s cl a n).turn = s.turn := rfl
@[simp] theorem clearShadow_iss (s : State) (cl a n : Nat) : (clearShadow s cl a n).iss = s.iss := rfl
@[simp] theorem clearShadow_gangs (s : State) (cl a n : Nat) : (clearShadow s cl a n).gangs = s.gangs := rfl
@[simp] theorem clearShadow_cores (s : State) (cl a n : Nat) : (clearShadow s cl a n).cores = s.cores := rfl
@[simp] theorem clearShadow_mem (s : State) (cl a n : Nat) : (clearShadow s cl a n).mem = s.mem := rfl
@[simp] theorem clearShadow_shadowFar (s : State) (cl a n : Nat) : (clearShadow s cl a n).shadowFar = s.shadowFar := rfl
@[simp] theorem clearShadow_watch (s : State) (cl a n : Nat) : (clearShadow s cl a n).watch = s.watch := rfl
@[simp] theorem clearShadow_quota (s : State) (cl a n : Nat) : (clearShadow s cl a n).quota = s.quota := rfl
@[simp] theorem clearShadow_kbudget (s : State) (cl a n : Nat) : (clearShadow s cl a n).kbudget = s.kbudget := rfl
@[simp] theorem clearShadow_ownedRegs (s : State) (cl a n : Nat) : (clearShadow s cl a n).ownedRegs = s.ownedRegs := rfl
@[simp] theorem clearShadow_ownedTiles (s : State) (cl a n : Nat) : (clearShadow s cl a n).ownedTiles = s.ownedTiles := rfl
@[simp] theorem clearShadow_tickets (s : State) (cl a n : Nat) : (clearShadow s cl a n).tickets = s.tickets := rfl
@[simp] theorem clearShadow_nextTicket (s : State) (cl a n : Nat) : (clearShadow s cl a n).nextTicket = s.nextTicket := rfl
@[simp] theorem clearShadow_claims (s : State) (cl a n : Nat) : (clearShadow s cl a n).claims = s.claims := rfl
@[simp] theorem clearShadow_gathers (s : State) (cl a n : Nat) : (clearShadow s cl a n).gathers = s.gathers := rfl
@[simp] theorem clearShadow_invals (s : State) (cl a n : Nat) : (clearShadow s cl a n).invals = s.invals := rfl
@[simp] theorem clearShadow_invalNo (s : State) (cl a n : Nat) : (clearShadow s cl a n).invalNo = s.invalNo := rfl
@[simp] theorem clearShadow_ring (s : State) (cl a n : Nat) : (clearShadow s cl a n).ring = s.ring := rfl
@[simp] theorem clearShadow_recSeq (s : State) (cl a n : Nat) : (clearShadow s cl a n).recSeq = s.recSeq := rfl
@[simp] theorem clearShadow_lost (s : State) (cl a n : Nat) : (clearShadow s cl a n).lost = s.lost := rfl
@[simp] theorem clearShadow_ringDown (s : State) (cl a n : Nat) : (clearShadow s cl a n).ringDown = s.ringDown := rfl
@[simp] theorem clearShadow_early (s : State) (cl a n : Nat) : (clearShadow s cl a n).early = s.early := rfl
@[simp] theorem clearShadow_waiting (s : State) (cl a n : Nat) : (clearShadow s cl a n).waiting = s.waiting := rfl
@[simp] theorem clearShadow_queues (s : State) (cl a n : Nat) : (clearShadow s cl a n).queues = s.queues := rfl
@[simp] theorem clearShadow_firstTurn (s : State) (cl a n : Nat) : (clearShadow s cl a n).firstTurn = s.firstTurn := rfl
@[simp] theorem clearShadow_ready (s : State) (cl a n : Nat) : (clearShadow s cl a n).ready = s.ready := rfl
@[simp] theorem clearShadow_served (s : State) (cl a n : Nat) : (clearShadow s cl a n).served = s.served := rfl
@[simp] theorem clearShadow_watches (s : State) (cl a n : Nat) : (clearShadow s cl a n).watches = s.watches := rfl
@[simp] theorem clearShadow_steers (s : State) (cl a n : Nat) : (clearShadow s cl a n).steers = s.steers := rfl
@[simp] theorem clearShadow_arrivals (s : State) (cl a n : Nat) : (clearShadow s cl a n).arrivals = s.arrivals := rfl
@[simp] theorem clearShadow_windows (s : State) (cl a n : Nat) : (clearShadow s cl a n).windows = s.windows := rfl
@[simp] theorem clearShadow_nextRkey (s : State) (cl a n : Nat) : (clearShadow s cl a n).nextRkey = s.nextRkey := rfl
@[simp] theorem clearShadow_images (s : State) (cl a n : Nat) : (clearShadow s cl a n).images = s.images := rfl
@[simp] theorem clearShadow_nextImage (s : State) (cl a n : Nat) : (clearShadow s cl a n).nextImage = s.nextImage := rfl
@[simp] theorem clearShadow_saved (s : State) (cl a n : Nat) : (clearShadow s cl a n).saved = s.saved := rfl
@[simp] theorem clearShadow_kept (s : State) (cl a n : Nat) : (clearShadow s cl a n).kept = s.kept := rfl
@[simp] theorem clearShadow_bad (s : State) (cl a n : Nat) : (clearShadow s cl a n).bad = s.bad := rfl
@[simp] theorem clearShadow_badReg (s : State) (cl a n : Nat) : (clearShadow s cl a n).badReg = s.badReg := rfl
@[simp] theorem clearShadow_journal (s : State) (cl a n : Nat) : (clearShadow s cl a n).journal = s.journal := rfl
@[simp] theorem clearShadow_lastSeq (s : State) (cl a n : Nat) : (clearShadow s cl a n).lastSeq = s.lastSeq := rfl
@[simp] theorem clearShadow_eventSeq (s : State) (cl a n : Nat) : (clearShadow s cl a n).eventSeq = s.eventSeq := rfl
@[simp] theorem clearShadow_dispatchNo (s : State) (cl a n : Nat) : (clearShadow s cl a n).dispatchNo = s.dispatchNo := rfl
@[simp] theorem clearShadow_dispatched (s : State) (cl a n : Nat) : (clearShadow s cl a n).dispatched = s.dispatched := rfl
@[simp] theorem clearShadow_confFence (s : State) (cl a n : Nat) : (clearShadow s cl a n).confFence = s.confFence := rfl
@[simp] theorem clearShadow_boot (s : State) (cl a n : Nat) : (clearShadow s cl a n).boot = s.boot := rfl
@[simp] theorem clearShadow_quiesce (s : State) (cl a n : Nat) : (clearShadow s cl a n).quiesce = s.quiesce := rfl
@[simp] theorem clearShadow_links (s : State) (cl a n : Nat) : (clearShadow s cl a n).links = s.links := rfl
@[simp] theorem clearShadow_routeGen (s : State) (cl a n : Nat) : (clearShadow s cl a n).routeGen = s.routeGen := rfl
@[simp] theorem clearShadow_replies (s : State) (cl a n : Nat) : (clearShadow s cl a n).replies = s.replies := rfl
@[simp] theorem clearShadow_seqNo (s : State) (cl a n : Nat) : (clearShadow s cl a n).seqNo = s.seqNo := rfl
@[simp] theorem clearShadow_remote (s : State) (cl a n : Nat) : (clearShadow s cl a n).remote = s.remote := rfl
@[simp] theorem clearShadow_seqMem (s : State) (cl a n : Nat) : (clearShadow s cl a n).seqMem = s.seqMem := rfl
@[simp] theorem clearShadow_pendIn (s : State) (cl a n : Nat) : (clearShadow s cl a n).pendIn = s.pendIn := rfl
@[simp] theorem clearShadow_msgBuf (s : State) (cl a n : Nat) : (clearShadow s cl a n).msgBuf = s.msgBuf := rfl
@[simp] theorem clearShadow_edges (s : State) (cl a n : Nat) : (clearShadow s cl a n).edges = s.edges := rfl
@[simp] theorem clearShadow_plans (s : State) (cl a n : Nat) : (clearShadow s cl a n).plans = s.plans := rfl
@[simp] theorem clearShadow_starts (s : State) (cl a n : Nat) : (clearShadow s cl a n).starts = s.starts := rfl
@[simp] theorem clearShadow_rsStats (s : State) (cl a n : Nat) : (clearShadow s cl a n).rsStats = s.rsStats := rfl
@[simp] theorem clearShadow_clockSec (s : State) (cl a n : Nat) : (clearShadow s cl a n).clockSec = s.clockSec := rfl
@[simp] theorem clearShadow_clockNs (s : State) (cl a n : Nat) : (clearShadow s cl a n).clockNs = s.clockNs := rfl
@[simp] theorem clearShadow_ptpLock (s : State) (cl a n : Nat) : (clearShadow s cl a n).ptpLock = s.ptpLock := rfl
@[simp] theorem clearShadow_stage (s : State) (cl a n : Nat) : (clearShadow s cl a n).stage = s.stage := rfl
@[simp] theorem clearShadow_devId (s : State) (cl a n : Nat) : (clearShadow s cl a n).devId = s.devId := rfl
@[simp] theorem clearShadow_svcCode (s : State) (cl a n : Nat) : (clearShadow s cl a n).svcCode = s.svcCode := rfl
@[simp] theorem clearShadow_svcVec (s : State) (cl a n : Nat) : (clearShadow s cl a n).svcVec = s.svcVec := rfl
@[simp] theorem clearShadow_powered (s : State) (cl a n : Nat) : (clearShadow s cl a n).powered = s.powered := rfl
@[simp] theorem clearShadow_ochre (s : State) (cl a n : Nat) : (clearShadow s cl a n).ochre = s.ochre := rfl
@[simp] theorem clearShadow_outbox (s : State) (cl a n : Nat) : (clearShadow s cl a n).outbox = s.outbox := rfl
@[simp] theorem clearShadow_free (s : State) (cl a n : Nat) : (clearShadow s cl a n).free = s.free := rfl

/-! ### clearFarShadow -/

@[simp] theorem clearFarShadow_agenda (s : State) (pa n : Nat) : (clearFarShadow s pa n).agenda = s.agenda := rfl
@[simp] theorem clearFarShadow_turn (s : State) (pa n : Nat) : (clearFarShadow s pa n).turn = s.turn := rfl
@[simp] theorem clearFarShadow_iss (s : State) (pa n : Nat) : (clearFarShadow s pa n).iss = s.iss := rfl
@[simp] theorem clearFarShadow_gangs (s : State) (pa n : Nat) : (clearFarShadow s pa n).gangs = s.gangs := rfl
@[simp] theorem clearFarShadow_cores (s : State) (pa n : Nat) : (clearFarShadow s pa n).cores = s.cores := rfl
@[simp] theorem clearFarShadow_clusters (s : State) (pa n : Nat) : (clearFarShadow s pa n).clusters = s.clusters := rfl
@[simp] theorem clearFarShadow_mem (s : State) (pa n : Nat) : (clearFarShadow s pa n).mem = s.mem := rfl
@[simp] theorem clearFarShadow_watch (s : State) (pa n : Nat) : (clearFarShadow s pa n).watch = s.watch := rfl
@[simp] theorem clearFarShadow_quota (s : State) (pa n : Nat) : (clearFarShadow s pa n).quota = s.quota := rfl
@[simp] theorem clearFarShadow_kbudget (s : State) (pa n : Nat) : (clearFarShadow s pa n).kbudget = s.kbudget := rfl
@[simp] theorem clearFarShadow_ownedRegs (s : State) (pa n : Nat) : (clearFarShadow s pa n).ownedRegs = s.ownedRegs := rfl
@[simp] theorem clearFarShadow_ownedTiles (s : State) (pa n : Nat) : (clearFarShadow s pa n).ownedTiles = s.ownedTiles := rfl
@[simp] theorem clearFarShadow_tickets (s : State) (pa n : Nat) : (clearFarShadow s pa n).tickets = s.tickets := rfl
@[simp] theorem clearFarShadow_nextTicket (s : State) (pa n : Nat) : (clearFarShadow s pa n).nextTicket = s.nextTicket := rfl
@[simp] theorem clearFarShadow_claims (s : State) (pa n : Nat) : (clearFarShadow s pa n).claims = s.claims := rfl
@[simp] theorem clearFarShadow_gathers (s : State) (pa n : Nat) : (clearFarShadow s pa n).gathers = s.gathers := rfl
@[simp] theorem clearFarShadow_invals (s : State) (pa n : Nat) : (clearFarShadow s pa n).invals = s.invals := rfl
@[simp] theorem clearFarShadow_invalNo (s : State) (pa n : Nat) : (clearFarShadow s pa n).invalNo = s.invalNo := rfl
@[simp] theorem clearFarShadow_ring (s : State) (pa n : Nat) : (clearFarShadow s pa n).ring = s.ring := rfl
@[simp] theorem clearFarShadow_recSeq (s : State) (pa n : Nat) : (clearFarShadow s pa n).recSeq = s.recSeq := rfl
@[simp] theorem clearFarShadow_lost (s : State) (pa n : Nat) : (clearFarShadow s pa n).lost = s.lost := rfl
@[simp] theorem clearFarShadow_ringDown (s : State) (pa n : Nat) : (clearFarShadow s pa n).ringDown = s.ringDown := rfl
@[simp] theorem clearFarShadow_early (s : State) (pa n : Nat) : (clearFarShadow s pa n).early = s.early := rfl
@[simp] theorem clearFarShadow_waiting (s : State) (pa n : Nat) : (clearFarShadow s pa n).waiting = s.waiting := rfl
@[simp] theorem clearFarShadow_queues (s : State) (pa n : Nat) : (clearFarShadow s pa n).queues = s.queues := rfl
@[simp] theorem clearFarShadow_firstTurn (s : State) (pa n : Nat) : (clearFarShadow s pa n).firstTurn = s.firstTurn := rfl
@[simp] theorem clearFarShadow_ready (s : State) (pa n : Nat) : (clearFarShadow s pa n).ready = s.ready := rfl
@[simp] theorem clearFarShadow_served (s : State) (pa n : Nat) : (clearFarShadow s pa n).served = s.served := rfl
@[simp] theorem clearFarShadow_watches (s : State) (pa n : Nat) : (clearFarShadow s pa n).watches = s.watches := rfl
@[simp] theorem clearFarShadow_steers (s : State) (pa n : Nat) : (clearFarShadow s pa n).steers = s.steers := rfl
@[simp] theorem clearFarShadow_arrivals (s : State) (pa n : Nat) : (clearFarShadow s pa n).arrivals = s.arrivals := rfl
@[simp] theorem clearFarShadow_windows (s : State) (pa n : Nat) : (clearFarShadow s pa n).windows = s.windows := rfl
@[simp] theorem clearFarShadow_nextRkey (s : State) (pa n : Nat) : (clearFarShadow s pa n).nextRkey = s.nextRkey := rfl
@[simp] theorem clearFarShadow_images (s : State) (pa n : Nat) : (clearFarShadow s pa n).images = s.images := rfl
@[simp] theorem clearFarShadow_nextImage (s : State) (pa n : Nat) : (clearFarShadow s pa n).nextImage = s.nextImage := rfl
@[simp] theorem clearFarShadow_saved (s : State) (pa n : Nat) : (clearFarShadow s pa n).saved = s.saved := rfl
@[simp] theorem clearFarShadow_kept (s : State) (pa n : Nat) : (clearFarShadow s pa n).kept = s.kept := rfl
@[simp] theorem clearFarShadow_bad (s : State) (pa n : Nat) : (clearFarShadow s pa n).bad = s.bad := rfl
@[simp] theorem clearFarShadow_badReg (s : State) (pa n : Nat) : (clearFarShadow s pa n).badReg = s.badReg := rfl
@[simp] theorem clearFarShadow_journal (s : State) (pa n : Nat) : (clearFarShadow s pa n).journal = s.journal := rfl
@[simp] theorem clearFarShadow_lastSeq (s : State) (pa n : Nat) : (clearFarShadow s pa n).lastSeq = s.lastSeq := rfl
@[simp] theorem clearFarShadow_eventSeq (s : State) (pa n : Nat) : (clearFarShadow s pa n).eventSeq = s.eventSeq := rfl
@[simp] theorem clearFarShadow_dispatchNo (s : State) (pa n : Nat) : (clearFarShadow s pa n).dispatchNo = s.dispatchNo := rfl
@[simp] theorem clearFarShadow_dispatched (s : State) (pa n : Nat) : (clearFarShadow s pa n).dispatched = s.dispatched := rfl
@[simp] theorem clearFarShadow_confFence (s : State) (pa n : Nat) : (clearFarShadow s pa n).confFence = s.confFence := rfl
@[simp] theorem clearFarShadow_boot (s : State) (pa n : Nat) : (clearFarShadow s pa n).boot = s.boot := rfl
@[simp] theorem clearFarShadow_quiesce (s : State) (pa n : Nat) : (clearFarShadow s pa n).quiesce = s.quiesce := rfl
@[simp] theorem clearFarShadow_links (s : State) (pa n : Nat) : (clearFarShadow s pa n).links = s.links := rfl
@[simp] theorem clearFarShadow_routeGen (s : State) (pa n : Nat) : (clearFarShadow s pa n).routeGen = s.routeGen := rfl
@[simp] theorem clearFarShadow_replies (s : State) (pa n : Nat) : (clearFarShadow s pa n).replies = s.replies := rfl
@[simp] theorem clearFarShadow_seqNo (s : State) (pa n : Nat) : (clearFarShadow s pa n).seqNo = s.seqNo := rfl
@[simp] theorem clearFarShadow_remote (s : State) (pa n : Nat) : (clearFarShadow s pa n).remote = s.remote := rfl
@[simp] theorem clearFarShadow_seqMem (s : State) (pa n : Nat) : (clearFarShadow s pa n).seqMem = s.seqMem := rfl
@[simp] theorem clearFarShadow_pendIn (s : State) (pa n : Nat) : (clearFarShadow s pa n).pendIn = s.pendIn := rfl
@[simp] theorem clearFarShadow_msgBuf (s : State) (pa n : Nat) : (clearFarShadow s pa n).msgBuf = s.msgBuf := rfl
@[simp] theorem clearFarShadow_edges (s : State) (pa n : Nat) : (clearFarShadow s pa n).edges = s.edges := rfl
@[simp] theorem clearFarShadow_plans (s : State) (pa n : Nat) : (clearFarShadow s pa n).plans = s.plans := rfl
@[simp] theorem clearFarShadow_starts (s : State) (pa n : Nat) : (clearFarShadow s pa n).starts = s.starts := rfl
@[simp] theorem clearFarShadow_rsStats (s : State) (pa n : Nat) : (clearFarShadow s pa n).rsStats = s.rsStats := rfl
@[simp] theorem clearFarShadow_clockSec (s : State) (pa n : Nat) : (clearFarShadow s pa n).clockSec = s.clockSec := rfl
@[simp] theorem clearFarShadow_clockNs (s : State) (pa n : Nat) : (clearFarShadow s pa n).clockNs = s.clockNs := rfl
@[simp] theorem clearFarShadow_ptpLock (s : State) (pa n : Nat) : (clearFarShadow s pa n).ptpLock = s.ptpLock := rfl
@[simp] theorem clearFarShadow_stage (s : State) (pa n : Nat) : (clearFarShadow s pa n).stage = s.stage := rfl
@[simp] theorem clearFarShadow_devId (s : State) (pa n : Nat) : (clearFarShadow s pa n).devId = s.devId := rfl
@[simp] theorem clearFarShadow_svcCode (s : State) (pa n : Nat) : (clearFarShadow s pa n).svcCode = s.svcCode := rfl
@[simp] theorem clearFarShadow_svcVec (s : State) (pa n : Nat) : (clearFarShadow s pa n).svcVec = s.svcVec := rfl
@[simp] theorem clearFarShadow_powered (s : State) (pa n : Nat) : (clearFarShadow s pa n).powered = s.powered := rfl
@[simp] theorem clearFarShadow_ochre (s : State) (pa n : Nat) : (clearFarShadow s pa n).ochre = s.ochre := rfl
@[simp] theorem clearFarShadow_outbox (s : State) (pa n : Nat) : (clearFarShadow s pa n).outbox = s.outbox := rfl
@[simp] theorem clearFarShadow_free (s : State) (pa n : Nat) : (clearFarShadow s pa n).free = s.free := rfl

/-! ### What is set -/

@[simp] theorem putGang_gangs (s : State) (g : Gang) :
    (putGang s g).gangs = s.gangs.map fun h => if h.id = g.id then g else h := rfl
@[simp] theorem sendOut_outbox (s : State) (m : OutMsg) : (sendOut s m).outbox = s.outbox ++ [m] := rfl
@[simp] theorem takeFree_free (s : State) : (takeFree s).2.free = s.free + 1 := rfl
@[simp] theorem takeFree_val (s : State) : (takeFree s).1 = Config.freeValue s.free := rfl

/-- A core just set reads as set. -/
@[simp] theorem getCore_setCore (s : State) (cl co : Nat) (c : Core) : getCore (setCore s cl co c) cl co = c := by
  simp [getCore, setCore]

/-- A cluster just set reads as set. -/
@[simp] theorem getCluster_setCluster (s : State) (cl : Nat) (c : Cluster) :
    getCluster (setCluster s cl c) cl = c := by
  simp [getCluster, setCluster]

/-- Another cluster reads as before. -/
theorem getCluster_setCluster_ne (s : State) (c : Cluster) {cl cl' : Nat} (h : cl ≠ cl') :
    getCluster (setCluster s cl c) cl' = getCluster s cl' := by
  simp [getCluster, setCluster, h]

/-- Another core reads as before. -/
theorem getCore_setCore_ne (s : State) (c : Core) {cl co cl' co' : Nat} (h : coreKey cl co ≠ coreKey cl' co') :
    getCore (setCore s cl co c) cl' co' = getCore s cl' co' := by
  simp [getCore, setCore, h]

@[simp] theorem linkOf_setLink (s : State) (p : Nat) (l : Link) : linkOf (setLink s p l) p = l := by
  simp [linkOf, setLink]

/-- Another link reads as before. -/
theorem linkOf_setLink_ne (s : State) (l : Link) {p p' : Nat} (h : p ≠ p') : linkOf (setLink s p l) p' = linkOf s p' := by
  simp [linkOf, setLink, h]

@[simp] theorem getCore_setCluster (s : State) (cl : Nat) (c : Cluster) (a b : Nat) :
    getCore (setCluster s cl c) a b = getCore s a b := rfl
@[simp] theorem getCluster_setCore (s : State) (cl co : Nat) (c : Core) (a : Nat) :
    getCluster (setCore s cl co c) a = getCluster s a := rfl
@[simp] theorem findGang_setCore (s : State) (cl co : Nat) (c : Core) (i : Nat) :
    findGang (setCore s cl co c) i = findGang s i := rfl
@[simp] theorem findGang_setCluster (s : State) (cl : Nat) (c : Cluster) (i : Nat) :
    findGang (setCluster s cl c) i = findGang s i := rfl

/-! ### Members of gangs -/

@[simp] theorem modCtx_id (g : Gang) (m : Nat) (f : Ctx → Ctx) : (modCtx g m f).id = g.id := rfl
@[simp] theorem modCtx_cluster (g : Gang) (m : Nat) (f : Ctx → Ctx) : (modCtx g m f).cluster = g.cluster := rfl
@[simp] theorem modCtx_slot (g : Gang) (m : Nat) (f : Ctx → Ctx) : (modCtx g m f).slot = g.slot := rfl
@[simp] theorem modCtx_lc (g : Gang) (m : Nat) (f : Ctx → Ctx) : (modCtx g m f).lc = g.lc := rfl
@[simp] theorem modCtx_task (g : Gang) (m : Nat) (f : Ctx → Ctx) : (modCtx g m f).task = g.task := rfl
@[simp] theorem modCtx_length (g : Gang) (m : Nat) (f : Ctx → Ctx) :
    (modCtx g m f).members.length = g.members.length := by simp [modCtx]

/-- The changed member. -/
theorem getCtx_modCtx (g : Gang) {m : Nat} (f : Ctx → Ctx) (h : m < g.members.length) :
    getCtx (modCtx g m f) m = f (getCtx g m) := by
  simp [getCtx, modCtx, List.getD_eq_getElem?_getD, h]

/-- Another member. -/
theorem getCtx_modCtx_ne (g : Gang) (f : Ctx → Ctx) {m m' : Nat} (h : m ≠ m') :
    getCtx (modCtx g m f) m' = getCtx g m' := by
  simp [getCtx, modCtx, List.getD_eq_getElem?_getD, h]

/-! ### Entries of register files -/

/-- An entry just set. -/
@[simp] theorem vget_vset {β : Type} {n : Nat} (d : β) (v : Vector β n) {i : Nat} (x : β) (h : i < n) :
    vget d (vset v i x) i = x := by
  simp [vget, vset, h]

/-- Another entry. -/
theorem vget_vset_ne {β : Type} {n : Nat} (d : β) (v : Vector β n) {i j : Nat} (x : β) (h : i ≠ j) :
    vget d (vset v i x) j = vget d v j := by
  simp [vget, vset, h]

end Sys2Proof.Machine
end

