-- ==== Sys2Proof/Laws/Memory.lean ====
section
/-! SUPPORT. Memory: what the writers of device memory do to it (they keep the canonical form and change only the bytes
they name), up to the killing of a task. -/

namespace Sys2Proof.Machine

/-! ### Writes that touch no byte of device memory -/

@[simp] theorem modCtxOf_mem (s : State) (id m : Nat) (f : Ctx → Ctx) : (modCtxOf s id m f).mem = s.mem := by
  unfold modCtxOf; split <;> rfl

@[simp] theorem setLakeStale_mem (s : State) (w : Watch) : (setLakeStale s w).mem = s.mem := by
  unfold setLakeStale; split <;> simp

@[simp] theorem markWatch_mem (hit : Watch → Bool) (s : State) (e : Nat × Option Watch) :
    (markWatch hit s e).mem = s.mem := by
  unfold markWatch
  split
  · rfl
  · split <;> simp

/-- Marking lakes stale writes no memory. -/
@[simp] theorem markStale_mem (s : State) (hit : Watch → Bool) : (markStale s hit).mem = s.mem := by
  unfold markStale
  generalize s.watch = l
  induction l generalizing s with
  | nil => rfl
  | cons e r ih => rw [List.foldl_cons, ih, markWatch_mem]

/-- What a physical write does to memory. -/
@[simp] theorem physWrite_mem (s : State) (pa : Nat) (bs : List Byte) :
    (physWrite s pa bs).mem = memWrites s.mem pa bs := by simp [physWrite]

@[simp] theorem stamp_mem (s : State) : (stamp s).2.mem = s.mem := rfl
@[simp] theorem logAppend_mem (s : State) (k l a c : Nat) : (logAppend s k l a c).mem = s.mem := rfl
@[simp] theorem retirePage_mem (s : State) (pa : Nat) : (retirePage s pa).mem = s.mem := by
  unfold retirePage; simp only [logAppend_mem]; split <;> rfl
@[simp] theorem dropArr_mem (s : State) (g : Gang) (m l : Nat) : (dropArr s g m l).mem = s.mem := rfl
@[simp] theorem freeFrames_mem (s : State) (g : Gang) (m : Nat) : (freeFrames s g m).mem = s.mem := rfl
@[simp] theorem freeSegs_mem (s : State) (g : Gang) (m : Nat) : (freeSegs s g m).mem = s.mem := rfl
@[simp] theorem stopPlans_mem (s : State) (gid : Nat) : (stopPlans s gid).mem = s.mem := rfl

@[simp] theorem revokeLake_mem (s : State) (g : Gang) (m l : Nat) (e : Bool) : (revokeLake s g m l e).1.mem = s.mem := by
  unfold revokeLake; simp only [dropArr_mem]; split <;> rfl

@[simp] theorem revokeAll_mem (s : State) (g : Gang) (m : Nat) : (revokeAll s g m).1.mem = s.mem := by
  unfold revokeAll
  generalize List.range 16 = ls
  induction ls generalizing s g with
  | nil => rfl
  | cons l r ih =>
    rw [List.foldl_cons]
    split
    · rw [ih, revokeLake_mem]
    · exact ih s g

@[simp] theorem sendAborts_mem (s : State) (g : Gang) : (sendAborts s g).mem = s.mem := by
  unfold sendAborts
  generalize hs : ({ s with edges := s.edges.filter fun e => e.gang ≠ g.id } : State) = t
  have ht : t.mem = s.mem := by rw [← hs]
  simp only
  rw [← ht]
  clear hs ht
  generalize (s.edges.filter fun e => e.gang = g.id) = es
  induction es generalizing t with
  | nil => rfl
  | cons e r ih => rw [List.foldl_cons, ih]

/-! ### Far writes -/

/-- A physical write keeps the canonical form. -/
theorem physWrite_wf {s : State} (pa : Nat) (bs : List Byte) (h : s.mem.wf = true) :
    (physWrite s pa bs).mem.wf = true := by
  rw [physWrite_mem]; exact memWrites_wf pa bs h

theorem physWriteParts_wf {s : State} (rs : List (Nat × Nat)) (bs : List Byte) (h : s.mem.wf = true) :
    (physWriteParts s rs bs).mem.wf = true := by
  induction rs generalizing s bs with
  | nil => exact h
  | cons p r ih => exact ih _ (physWrite_wf p.1 _ h)

@[simp] theorem foldl_clearFarShadow_mem (s : State) (rs : List (Nat × Nat)) :
    (rs.foldl (fun t r => clearFarShadow t r.1 r.2) s).mem = s.mem := by
  induction rs generalizing s with
  | nil => rfl
  | cons p r ih => rw [List.foldl_cons, ih, clearFarShadow_mem]

/-- A far write that succeeds keeps the canonical form. -/
theorem farWrite_wf {s s' : State} {desc va : Nat} {bs : List Byte} (hw : farWrite s desc va bs = .ok s')
    (h : s.mem.wf = true) : s'.mem.wf = true := by
  unfold farWrite at hw
  split at hw
  · cases hw
  · obtain rfl := Except.ok.inj hw; exact physWriteParts_wf _ _ h

theorem farWriteExt_wf {s s' : State} {desc va : Nat} {bs : List Byte} (hw : farWriteExt s desc va bs = .ok s')
    (h : s.mem.wf = true) : s'.mem.wf = true := by
  unfold farWriteExt at hw
  split at hw
  · cases hw
  · obtain rfl := Except.ok.inj hw; rw [foldl_clearFarShadow_mem]; exact physWriteParts_wf _ _ h

theorem deviceWrite_wf {s s' : State} {desc va : Nat} {bs : List Byte} (hw : deviceWrite s desc va bs = .ok s')
    (h : s.mem.wf = true) : s'.mem.wf = true := by
  unfold deviceWrite at hw
  split at hw
  · cases hw
  · obtain rfl := Except.ok.inj hw; rw [foldl_clearFarShadow_mem]; exact physWriteParts_wf _ _ h

theorem deviceUpdate_wf {s s' : State} {desc va n : Nat} {f : List Byte → List Byte}
    (hw : deviceUpdate s desc va n f = .ok s') (h : s.mem.wf = true) : s'.mem.wf = true := by
  unfold deviceUpdate at hw
  split at hw
  · cases hw
  · exact deviceWrite_wf hw h

/-! ### Records and words -/

theorem ringLost_wf {s : State} (r : Ring) (h : s.mem.wf = true) : (ringLost s r).mem.wf = true := by
  unfold ringLost
  split
  · exact h
  · split
    · exact h
    · next hw => have w := deviceUpdate_wf hw h; exact w

/-- Writing a record into the supervisor ring keeps the canonical form. -/
theorem ringPut_wf {s : State} (r : Ring) (rec : Record) (h : s.mem.wf = true) : (ringPut s r rec).mem.wf = true := by
  unfold ringPut
  dsimp only
  split
  · exact h
  · next s1 h1 =>
    have w1 := deviceWrite_wf h1 (ringLost_wf r (by simpa using h))
    split
    · exact h
    · next s2 h2 => exact deviceWrite_wf (s' := s2) h2 w1

@[simp] theorem ringPeriod_mem (s : State) (r : Ring) : (ringPeriod s r).mem = s.mem := by
  unfold ringPeriod
  split
  · rfl
  · split <;> rfl

theorem refuseRecord_wf {s : State} (r : Ring) (rec : Record) (h : s.mem.wf = true) :
    (refuseRecord s r rec).mem.wf = true := by
  unfold refuseRecord
  dsimp only
  split
  · simpa using h
  · exact ringLost_wf r (by simpa using h)

/-- Delivering a record keeps the canonical form. -/
theorem deliver_wf {s : State} (rec : Record) (h : s.mem.wf = true) : (deliver s rec).mem.wf = true := by
  unfold deliver
  split
  · split
    · exact h
    · split <;> exact h
  · split
    · exact ringPut_wf _ _ h
    · exact refuseRecord_wf _ _ h

theorem deliverWaiting_wf (n : Nat) {s : State} (h : s.mem.wf = true) : (deliverWaiting n s).mem.wf = true := by
  induction n generalizing s with
  | zero => exact h
  | succ n ih =>
    unfold deliverWaiting
    split
    · split
      · exact ih (ringPut_wf _ _ h)
      · exact h
    · exact h

theorem decFarWord_wf {s : State} (desc va kind task : Nat) (h : s.mem.wf = true) :
    (decFarWord s desc va kind task).mem.wf = true := by
  unfold decFarWord
  split
  · exact deliver_wf _ h
  · exact physWriteParts_wf _ _ h

theorem writeRelease_wf {s : State} (desc task : Nat) (kc : Word) (va : Nat) (h : s.mem.wf = true) :
    (writeRelease desc task kc s va).mem.wf = true := by
  unfold writeRelease
  split
  · next hw => exact deviceWrite_wf hw h
  · exact deliver_wf _ h

theorem phaseAdd_wf {s : State} (g : Gang) (m : Nat) (h : s.mem.wf = true) : (phaseAdd s g m).1.mem.wf = true := by
  unfold phaseAdd
  dsimp only
  split
  · exact h
  · split
    · next hw => exact deviceUpdate_wf hw h
    · split
      · exact h
      · exact deliver_wf _ h

theorem phaseAddAll_wf {s : State} (g : Gang) (h : s.mem.wf = true) : (phaseAddAll s g).1.mem.wf = true := by
  unfold phaseAddAll
  generalize List.range g.members.length = ms
  induction ms generalizing s g with
  | nil => exact h
  | cons m r ih =>
    rw [List.foldl_cons]
    exact ih _ (phaseAdd_wf g m h)

/-! ### Killing, trapping -/

@[simp] theorem readPlanes_mem (g : Gang) (m : Nat) (s : State) (r : PendRead) : (readPlanes g m s r).mem = s.mem := by
  unfold readPlanes
  split <;> rfl

@[simp] theorem readAllPlanes_mem (s : State) (g : Gang) : (readAllPlanes s g).mem = s.mem := by
  have one : ∀ (l : List PendRead) (t : State) (m : Nat), (l.foldl (readPlanes g m) t).mem = t.mem := by
    intro l
    induction l with
    | nil => intro t m; rfl
    | cons a r ih => intro t m; rw [List.foldl_cons, ih, readPlanes_mem]
  unfold readAllPlanes
  generalize List.range g.members.length = ms
  induction ms generalizing s with
  | nil => rfl
  | cons m r ih => rw [List.foldl_cons, ih, one]

/-- Killing a task keeps the canonical form. -/
theorem killGang_wf {s : State} (g : Gang) (k : KillReq) (code : Code) (kepc : Nat) (h : s.mem.wf = true) :
    (killGang s g k code kepc).mem.wf = true := by
  unfold killGang
  dsimp only
  rw [putGang_mem]
  refine deliver_wf _ (phaseAddAll_wf _ ?_)
  have fold_rel : ∀ (l : List Nat) (t : State) (d i : Nat) (kc : Word), t.mem.wf = true →
      (l.foldl (writeRelease d i kc) t).mem.wf = true := by
    intro l
    induction l with
    | nil => intro t _ _ _ ht; exact ht
    | cons a r ih => intro t d i kc ht; exact ih _ d i kc (writeRelease_wf d i kc a ht)
  refine fold_rel _ _ _ _ _ ?_
  rw [sendAborts_mem]
  have fold_free : ∀ (l : List Nat) (t : State) (g' : Gang),
      (l.foldl (fun s m => freeSegs (freeFrames s g' m) g' m) t).mem = t.mem := by
    intro l
    induction l with
    | nil => intro t g'; rfl
    | cons a r ih => intro t g'; rw [List.foldl_cons, ih]; rfl
  rw [fold_free]
  have fold_rev : ∀ (l : List Nat) (t : State × Gang),
      (l.foldl (fun sg m => revokeAll sg.1 sg.2 m) t).1.mem = t.1.mem := by
    intro l
    induction l with
    | nil => intro t; rfl
    | cons a r ih => intro t; rw [List.foldl_cons, ih, revokeAll_mem]
  rw [fold_rev, stopPlans_mem, readAllPlanes_mem]
  exact h

theorem killTask_wf {s : State} (gid : Nat) (code : Code) (reason arg : Nat) (tval : Word) (m : Nat)
    (h : s.mem.wf = true) : (killTask s gid code reason arg tval m).mem.wf = true := by
  unfold killTask
  split
  · exact h
  · split
    · exact h
    · exact killGang_wf _ _ _ _ h

theorem faultTask_wf {s : State} (gid : Nat) (code : Code) (reason arg : Nat) (tval : Word) (m : Nat)
    (h : s.mem.wf = true) : (faultTask s gid code reason arg tval m).mem.wf = true := by
  unfold faultTask
  split
  · exact h
  · split
    · exact h
    · split
      · exact killGang_wf _ _ _ _ h
      · exact killTask_wf _ _ _ _ _ _ h

theorem enterSvc_wf {s : State} (g : Gang) (m cls : Nat) (code : Code) (tval : Word) (kepc : Nat)
    (h : s.mem.wf = true) : (enterSvc s g m cls code tval kepc).mem.wf = true := by
  unfold enterSvc
  dsimp only
  split
  · rw [putGang_mem, stopReads, readAllPlanes_mem]
    exact h
  · exact killGang_wf _ _ _ _ h

/-- Taking a trap keeps the canonical form. -/
theorem takeTrap_wf {s : State} (gid : Nat) (t : TrapReq) (h : s.mem.wf = true) : (takeTrap s gid t).mem.wf = true := by
  unfold takeTrap
  split
  · exact h
  · dsimp only
    split
    · exact killGang_wf _ _ _ _ h
    · split
      · exact enterSvc_wf _ _ _ _ _ _ h
      · exact killGang_wf _ _ _ _ h

/-- Taking a service call keeps the canonical form. -/
theorem takeCall_wf {s : State} (gid m : Nat) (tval : Word) (kepc : Nat) (h : s.mem.wf = true) :
    (takeCall s gid m tval kepc).mem.wf = true := by
  unfold takeCall
  split
  · exact h
  · dsimp only
    split
    · exact killGang_wf _ _ _ _ h
    · exact enterSvc_wf _ _ _ _ _ _ h

end Sys2Proof.Machine
end

