-- ==== Sys2Proof/Laws/Slots.lean ====
section
/-! SUPPORT. What the shared operations of slots, packets and messages can do, said once: a slot's step while a bundle
issues and while none does, the gates of a slot, the checks of a local access, a packet of a ready queue, a message in a
session. -/

namespace Sys2Proof.Machine

/-! ### Slots -/

/-- Outside a bundle a slot has no meaning. -/
theorem slotOp_idle {s : State} (f : Perf → Perf) (h : s.iss = none) : slotOp s f = .fault .noIssuingContext := by
  simp only [slotOp, h]

/-- Within a bundle a slot always answers a next state: what `f` makes of it, at the next slot. -/
theorem slotOp_next {s : State} {r : Issue} (f : Perf → Perf) (h : s.iss = some r) :
    slotOp s f = .next { (f ⟨{ s with iss := none }, r⟩).st with iss := some (nextSlot (f ⟨{ s with iss := none }, r⟩).is) } := by
  simp only [slotOp, h]

/-- A slot answers a next state exactly while a bundle issues. -/
theorem slotOp_isNext (s : State) (f : Perf → Perf) : (∃ t, slotOp s f = .next t) ↔ s.iss.isSome = true := by
  cases h : s.iss with
  | none => simp [slotOp_idle f h]
  | some r => simp [slotOp_next f h]

theorem prefixOp_idle {s : State} (f : Perf → Perf) (h : s.iss = none) : prefixOp s f = .fault .noIssuingContext := by
  simp only [prefixOp, h]

/-- A prefix keeps what it sets for the slot it modifies. -/
theorem prefixOp_next {s : State} {r : Issue} (f : Perf → Perf) (h : s.iss = some r) :
    prefixOp s f = .next { (f ⟨{ s with iss := none }, r⟩).st with
      iss := some { (f ⟨{ s with iss := none }, r⟩).is with slot := (f ⟨{ s with iss := none }, r⟩).is.slot + 1 } } := by
  simp only [prefixOp, h]

/-- Two slots that perform the same make the same step. -/
theorem slotOp_congr {f g : Perf → Perf} (s : State) (h : ∀ p, f p = g p) : slotOp s f = slotOp s g := by
  rw [funext h]

theorem gated_congr {f g : Perf → Perf} (q : QReg) (p : Perf) (h : ∀ p, f p = g p) : gated q f p = gated q g p := by
  rw [funext h]

/-- A slot that a px.first or px.last forbids changes nothing. -/
theorem always_off {f : Perf → Perf} {p : Perf} (h : p.is.cond = false) : always f p = p := by simp [always, h]

@[simp] theorem always_on {f : Perf → Perf} {p : Perf} (h : p.is.cond = true) : always f p = f p := by simp [always, h]

theorem gated_off {q : QReg} {f : Perf → Perf} {p : Perf} (h : p.is.cond = false) : gated q f p = p := by simp [gated, h]

/-- A gated slot whose predicate's bit 0 is 0 changes nothing but for what a failing predicate register raises. -/
theorem gated_false {q : QReg} {f : Perf → Perf} {p : Perf} (h : p.is.cond = true) (ha : predicateAway p q.val = false)
    (hq : (readQ p q.val).1.getLsbD 0 = false) :
    gated q f p = { p with is := { p.is with traps := (readQ p q.val).2.is.traps } } := by
  simp only [gated, h, ha, hq, Bool.not_true, Bool.false_eq_true, if_false]

theorem gated_true {q : QReg} {f : Perf → Perf} {p : Perf} (h : p.is.cond = true) (ha : predicateAway p q.val = false)
    (hq : (readQ p q.val).1.getLsbD 0 = true) : gated q f p = f (readQ p q.val).2 := by
  simp only [gated, h, ha, hq, Bool.not_true, Bool.false_eq_true, if_false, if_true]

/-- A predicate that must be pulled freezes the slot, whatever it does. -/
theorem gated_away {q : QReg} {f : Perf → Perf} {p : Perf} (h : p.is.cond = true) (ha : predicateAway p q.val = true) :
    gated q f p = touchBlock p 0 := by simp [gated, h, ha]

@[simp] theorem predicateAway_q0 (p : Perf) : predicateAway p 0 = false := by simp [predicateAway]

/-- q0 reads all ones, so a slot gated by it is performed as an unpredicated one. -/
theorem gated_q0 (f : Perf → Perf) (p : Perf) : gated 0 f p = always f p := by
  cases h : p.is.cond <;> simp [gated, always, readQ, h]

/-! ### Local accesses -/

theorem withLocal_misaligned {p : Perf} {ea n al : Nat} {f : Perf → Perf} (h : ea % al ≠ 0) :
    withLocal p ea n al f = raise p .localAlign (BitVec.ofNat 64 ea) := by simp [withLocal, checkLocal, h]

theorem withLocal_outside {p : Perf} {ea n al : Nat} {f : Perf → Perf} (h : ea % al = 0)
    (ho : inAlloc p.is.old ea n = false) : withLocal p ea n al f = raise p .localBounds (BitVec.ofNat 64 ea) := by
  simp [withLocal, checkLocal, h, ho]

theorem withLocal_inside {p : Perf} {ea n al : Nat} {f : Perf → Perf} (h : ea % al = 0)
    (hi : inAlloc p.is.old ea n = true) : withLocal p ea n al f = f p := by simp [withLocal, checkLocal, h, hi]

/-! ### Packets -/

theorem runPacket_ready {s : State} {q : Nat} {x : Queue} (h : readyQueue s q = some x) (f : Queue → State) :
    runPacket s q f = f x := by simp only [runPacket, h]

theorem runPacket_idle {s : State} {q : Nat} (h : readyQueue s q = none) (f : Queue → State) : runPacket s q f = s := by
  simp only [runPacket, h]

/-- A ready queue is a queue of the device. -/
theorem getQueue_of_ready {s : State} {q : Nat} {x : Queue} (h : readyQueue s q = some x) : getQueue s q = some x := by
  unfold readyQueue at h; split at h <;> simp_all

theorem advanceQueue_ready {s : State} {q : Nat} {x : Queue} (h : readyQueue s q = some x) (n : Nat) :
    advanceQueue s q n = putQueue s q (advance x n) := by simp only [advanceQueue, getQueue_of_ready h]

/-! ### Sessions -/

theorem withPeer_none {s : State} {sid : Nat} (h : findSession s sid = none) (k : Nat) (f : State → State) :
    withPeer s sid k f = refuseSide s k := by simp only [withPeer, h]

/-- In an established management session a message is performed as it is. -/
theorem withPeer_managing {s : State} {sid : Nat} {x : Session} (h : findSession s sid = some x)
    (he : x.established = true) (hm : x.mgmt = true) (k : Nat) (f : State → State) : withPeer s sid k f = f s := by
  simp [withPeer, h, he, hm]

theorem inSession_established {s : State} {sid : Nat} {x : Session} (h : findSession s sid = some x)
    (he : x.established = true) (k : Nat) (f : Session → State) : inSession s sid k f = f x := by simp [inSession, h, he]

end Sys2Proof.Machine
end

