-- ==== Sys2Proof/Tests/Slice0.lean ====
section
/-! SUPPORT. Tests: words written out from the spec's encodings, ill-formed terms that each check of well-formedness
refuses, small steps whose results the spec's rules give, and states that meet the hypotheses of the statements. -/

open Sys2Proof Sys2Proof.Machine Sys2Proof.Claim

namespace Sys2Proof.Tests

set_option Elab.async false

/-! ### Ill-formed operands: one for each check of Instr.wf (R60 to R68, R126, R158, R171, R175, R218) -/

theorem test_ill_loop_length : (Instr.brLoop 0 0).wf = false := by decide
theorem test_ill_far_port : (Instr.adFld 31 false 0 0 .b64 0).wf = false ∧ (Instr.adFst 31 false 0 0 .b64 0).wf = false := by
  decide
theorem test_ill_cas_port : (Instr.adCas 31 0 0 .rlx false 0).wf = false := by decide
theorem test_ill_rounding : (Instr.vxAdd 1 2 3 .i32 0 .rtz).wf = false ∧ (Instr.vxSub 1 2 3 .t8 0 .rne).wf = false ∧
    (Instr.vxMul 1 2 3 .i8 0 .rup).wf = false ∧ (Instr.vxFma 1 2 3 .t6 0 .rne).wf = false := by decide
theorem test_ill_fma_port : (Instr.vxFma 31 2 3 .f32 0 .rne).wf = false := by decide
theorem test_ill_element_formats : (Instr.vxMin 1 2 3 .t8 0).wf = false ∧ (Instr.vxMax 1 2 3 .t6 0).wf = false ∧
    (Instr.vxBcast 1 2 .t8 0).wf = false ∧ (Instr.vxExt 1 2 3 .t6 0).wf = false ∧ (Instr.vxRadd 1 2 .t8 0).wf = false ∧
    (Instr.vxRmax 1 2 .t8 0).wf = false ∧ (Instr.vxRmin 1 2 .t6 0).wf = false := by decide
theorem test_ill_abs_unsigned : (Instr.vxAbs 1 2 .n32 0).wf = false ∧ (Instr.vxNeg 1 2 .n32 0).wf = false := by decide
theorem test_ill_integer_only : (Instr.vxShl 1 2 3 .f32 0).wf = false ∧ (Instr.vxShr 1 2 3 .bf16 0).wf = false ∧
    (Instr.vxSra 1 2 3 .t8 0).wf = false ∧ (Instr.vxMulh 1 2 3 .f32 0).wf = false ∧ (Instr.vxAdds 1 2 3 .bf16 0).wf = false ∧
    (Instr.vxSubs 1 2 3 .t6 0).wf = false := by decide
theorem test_ill_compare_formats : (Instr.vxCeq 1 2 3 .i16 0).wf = false ∧ (Instr.vxCne 1 2 3 .bf16 0).wf = false ∧
    (Instr.vxClt 1 2 3 .i8 0).wf = false ∧ (Instr.vxCle 1 2 3 .t8 0).wf = false := by decide
theorem test_ill_approximations : (Instr.vxRcp 1 2 .i32 0).wf = false ∧ (Instr.vxRsq 1 2 .t8 0).wf = false ∧
    (Instr.vxExp2 1 2 .n32 0).wf = false ∧ (Instr.vxLog2 1 2 .i16 0).wf = false := by decide
theorem test_ill_conversions : (Instr.vyCvt 1 2 0 .f32 .f32 0 .rne).wf = false ∧ (Instr.vyCvt 1 2 0 .f32 .t8 0 .rne).wf = false ∧
    (Instr.vyCvs 1 2 0 .f32 .i8 0).wf = false ∧ (Instr.vyCvo 1 2 0 .t6 .t8 0).wf = false := by decide
theorem test_ill_conversion_parts : (Instr.vyCvt 1 2 1 .f32 .i32 0 .rne).wf = false ∧
    (Instr.vyCvs 1 2 2 .i16 .i32 0).wf = false := by decide
theorem test_ill_conversion_port : (Instr.vyCvt 31 2 0 .f32 .i32 0 .rne).wf = false ∧ (Instr.vyCvs 31 2 0 .f32 .t8 0).wf = false ∧
    (Instr.vyCvo 31 2 0 .f32 .t8 0).wf = false := by decide
theorem test_ill_planes : (Instr.vyPpk 1 2 true .t8 0 0).wf = false ∧ (Instr.vyPun 1 2 false .t6 6 0).wf = false ∧
    (Instr.vyPpk 1 2 false .i32 0 0).wf = false ∧ (Instr.vyPun 31 2 false .t8 0 0).wf = false := by decide
theorem test_ill_plane_codes : (Instr.mxMma 0 false 0 0 .t8 0).wf = false ∧ (Instr.mxMma 0 false 0 0 .t8 7).wf = false ∧
    (Instr.mxMms 0 false 0 0 .t6 2).wf = false := by decide
theorem test_ill_store_layout : (Instr.mxSt 0 true 0 .f32 0).wf = false ∧ (Instr.mxSt 0 true 0 .bf16planar 0).wf = false := by
  decide
theorem test_ill_remote_cas : (Instr.fxAt 0 0 3 .cas 0).wf = false ∧ (Instr.fxAt 0 0 30 .cas 0).wf = false := by decide
theorem test_ill_paths : (Instr.syXf 0b000100 0).wf = false ∧ (Instr.syXf 0b000111 0).wf = false ∧
    (Instr.syDrn 1 0 .gang 0).wf = false := by decide
theorem test_ill_control_register : (Instr.trCsrr 1 0x00A).wf = false ∧ (Instr.trCsrw 1 0x848).wf = false := by decide
theorem test_ill_repeat : (Instr.pxRep 0).wf = false := by decide

/-- Words that R68 makes illegal: a reserved register field, a reserved access size, and an illegal port. -/
theorem test_refused_words : decodeTableWord 32 0b0_0000_001111_00001_00010_00001_010_000 = none ∧
    decodeTableWord 32 0b0_0011_000000_00001_00010_00011_100_000 = none ∧
    decodeTableWord 32 0b0_1001_000000_11000_00000_00001_000_000 = none ∧
    decodeTableWord 32 0b0_0001_001000_00001_0000000000000000 = none := by decide

/-! ### Words of every operation -/

/-- Words of the scalar (R44, R61) operations, bit by bit: the class and operation of R66, then the fields. -/
theorem test_words_sx_1 :
    decodeWord 0b0_0000_000000_00000_00000_00000_000_000 = .ok .sxNop ∧
    decodeWord 0b0_0000_000001_10101_01011_00110_101_101 = .ok (.sxAdd 21 11 6 .n16 5) ∧
    decodeWord 0b0_0000_000010_10101_01011_00110_101_101 = .ok (.sxSub 21 11 6 .n16 5) ∧
    decodeWord 0b0_0000_000011_10101_01011_00110_101_101 = .ok (.sxMul 21 11 6 .n16 5) ∧
    decodeWord 0b0_0000_000100_10101_01011_00110_101_101 = .ok (.sxMulh 21 11 6 .n16 5) ∧
    decodeWord 0b0_0000_000101_10101_01011_00110_101_101 = .ok (.sxDiv 21 11 6 .n16 5) ∧
    decodeWord 0b0_0000_000110_10101_01011_00110_101_101 = .ok (.sxRem 21 11 6 .n16 5) ∧
    decodeWord 0b0_0000_000111_10101_01011_00110_101_101 = .ok (.sxMin 21 11 6 .n16 5) ∧
    decodeWord 0b0_0000_001000_10101_01011_00110_101_101 = .ok (.sxMax 21 11 6 .n16 5) ∧
    decodeWord 0b0_0000_001001_10101_01011_00110_101_101 = .ok (.sxAnd 21 11 6 .n16 5) ∧
    decodeWord 0b0_0000_001010_10101_01011_00110_101_101 = .ok (.sxOr 21 11 6 .n16 5) ∧
    decodeWord 0b0_0000_001011_10101_01011_00110_101_101 = .ok (.sxXor 21 11 6 .n16 5) ∧
    decodeWord 0b0_0000_001100_10101_01011_00110_101_101 = .ok (.sxShl 21 11 6 .n16 5) ∧
    decodeWord 0b0_0000_001101_10101_01011_00110_101_101 = .ok (.sxShr 21 11 6 .n16 5) ∧
    decodeWord 0b0_0000_001110_10101_01011_00110_101_101 = .ok (.sxSra 21 11 6 .n16 5) ∧
    decodeWord 0b0_0000_001111_10101_01011_00000_101_101 = .ok (.sxClz 21 11 .n16 5) ∧
    decodeWord 0b0_0000_010000_10101_01011_00000_101_101 = .ok (.sxCtz 21 11 .n16 5) ∧
    decodeWord 0b0_0000_010001_10101_01011_00000_101_101 = .ok (.sxCnt 21 11 .n16 5) :=
  ⟨rfl, rfl, rfl, rfl, rfl, rfl, rfl, rfl, rfl, rfl, rfl, rfl, rfl, rfl, rfl, rfl, rfl, rfl⟩

/-- Words of the scalar (R44, R61) operations, bit by bit: the class and operation of R66, then the fields. -/
theorem test_words_sx_2 :
    decodeWord 0b0_0000_010010_10101_01011_00110_101_101 = .ok (.sxExt 21 11 6 .n16 5) ∧
    decodeWord 0b0_0000_010011_10101_01011_00000_101_101 = .ok (.sxMov 21 11 .n16 5) ∧
    decodeWord 0b0_0000_010100_10101_01011_00110_101_101 = .ok (.sxCeq 21 11 6 .n16 5) ∧
    decodeWord 0b0_0000_010101_10101_01011_00110_101_101 = .ok (.sxClt 21 11 6 .n16 5) ∧
    decodeWord 0b0_0000_010110_10101_01011_00110_101_101 = .ok (.sxCle 21 11 6 .n16 5) ∧
    decodeWord 0b0_0000_010111_10101_01011_00110_101_101 = .ok (.sxSel 21 11 6 .n16 5) ∧
    decodeWord 0b0_0000_011000_00110_01011_00000_101_101 = .ok (.sxQset 6 11 .n16 5) ∧
    decodeWord 0b0_0000_100000_10101_01011_00110_010_101 = .ok (.sxFadd 21 11 6 .rdn 5) ∧
    decodeWord 0b0_0000_100001_10101_01011_00110_010_101 = .ok (.sxFmul 21 11 6 .rdn 5) ∧
    decodeWord 0b0_0000_100010_10101_01011_00110_010_101 = .ok (.sxFma 21 11 6 .rdn 5) ∧
    decodeWord 0b0_0000_100011_10101_01011_00110_010_101 = .ok (.sxFceq 21 11 6 .rdn 5) ∧
    decodeWord 0b0_0000_100100_10101_01011_00110_010_101 = .ok (.sxFclt 21 11 6 .rdn 5) ∧
    decodeWord 0b0_0000_100101_10101_01011_00000_010_101 = .ok (.sxFcvi 21 11 .rdn 5) ∧
    decodeWord 0b0_0000_100110_10101_01011_00000_010_101 = .ok (.sxFcif 21 11 .rdn 5) :=
  ⟨rfl, rfl, rfl, rfl, rfl, rfl, rfl, rfl, rfl, rfl, rfl, rfl, rfl, rfl⟩

/-- Words of the immediate (R45, R150) operations, bit by bit: the class and operation of R66, then the fields. -/
theorem test_words_si :
    decodeWord 0b0_0001_000000_10101_1010010111000011 = .ok (.siLi 21 0xA5C3) ∧
    decodeWord 0b0_0001_000001_10101_1010010111000011 = .ok (.siIh1 21 0xA5C3) ∧
    decodeWord 0b0_0001_000010_10101_1010010111000011 = .ok (.siIh2 21 0xA5C3) ∧
    decodeWord 0b0_0001_000011_10101_1010010111000011 = .ok (.siIh3 21 0xA5C3) ∧
    decodeWord 0b0_0001_000100_10101_1010010111000011 = .ok (.siAddi 21 0xA5C3) ∧
    decodeWord 0b0_0001_000101_10101_1010010111000011 = .ok (.siOri 21 0xA5C3) ∧
    decodeWord 0b0_0001_000110_10101_1010010111000011 = .ok (.siCeqi 21 0xA5C3) ∧
    decodeWord 0b0_0001_000111_10101_1010010111000011 = .ok (.siClti 21 0xA5C3) :=
  ⟨rfl, rfl, rfl, rfl, rfl, rfl, rfl, rfl⟩

/-- Words of the branch (R45, R67) operations, bit by bit: the class and operation of R66, then the fields. -/
theorem test_words_br :
    decodeWord 0b0_0010_000000_00000_1010010111000011 = .ok (.brJ 0xA5C3) ∧
    decodeWord 0b0_0010_000001_10101_1010010111000011 = .ok (.brCall 21 0xA5C3) ∧
    decodeWord 0b0_0010_000010_10101_1010010111000011 = .ok (.brBz 21 0xA5C3) ∧
    decodeWord 0b0_0010_000011_10101_1010010111000011 = .ok (.brBnz 21 0xA5C3) ∧
    decodeWord 0b0_0010_000100_10101_1010010111000011 = .ok (.brBlt 21 0xA5C3) ∧
    decodeWord 0b0_0010_000101_10101_1010010111000011 = .ok (.brBge 21 0xA5C3) ∧
    decodeWord 0b0_0010_000110_00110_1010010111000011 = .ok (.brBq 6 0xA5C3) ∧
    decodeWord 0b0_0010_000111_00110_1010010111000011 = .ok (.brBnq 6 0xA5C3) ∧
    decodeWord 0b0_0010_001000_00000_01011_00000_000_000 = .ok (.brJr 11) ∧
    decodeWord 0b0_0010_001001_00000_01011_00000_000_000 = .ok (.brRet 11) ∧
    decodeWord 0b0_0010_001010_00000_01011_00110_100_000 = .ok (.brLvl 11 6 4) ∧
    decodeWord 0b0_0010_001011_00100_0000000100000000 = .ok (.brLoop 4 256) ∧
    decodeWord 0b0_0010_001100_00100_01011_00000_000_000 = .ok (.brLend 4 11) ∧
    decodeWord 0b0_0010_001101_10101_00000_00000_000_000 = .ok (.brBud 21) :=
  ⟨rfl, rfl, rfl, rfl, rfl, rfl, rfl, rfl, rfl, rfl, rfl, rfl, rfl, rfl⟩

/-- Words of the address (R63) operations, bit by bit: the class and operation of R66, then the fields. -/
theorem test_words_ad_1 :
    decodeWord 0b0_0011_000000_10101_11010_00110_010_101 = .ok (.adLd 21 true 10 6 .b32 5) ∧
    decodeWord 0b0_0011_000001_10101_11010_00110_010_101 = .ok (.adSt 21 true 10 6 .b32 5) ∧
    decodeWord 0b0_0011_000010_10011_11010_00110_000_101 = .ok (.adVld 19 true 10 6 5) ∧
    decodeWord 0b0_0011_000011_10011_11010_00110_000_101 = .ok (.adVst 19 true 10 6 5) ∧
    decodeWord 0b0_0011_000100_10101_11010_00110_010_101 = .ok (.adFld 21 true 10 6 .b32 5) ∧
    decodeWord 0b0_0011_000101_10101_11010_00110_010_101 = .ok (.adFst 21 true 10 6 .b32 5) ∧
    decodeWord 0b0_0011_000110_00000_11010_00110_000_101 = .ok (.adTch true 10 6 5) ∧
    decodeWord 0b0_0011_000111_01100_01010_00110_000_101 = .ok (.adAdd 12 10 6 5) ∧
    decodeWord 0b0_0011_001000_01100_00000_00110_000_101 = .ok (.adMov 12 6 5) ∧
    decodeWord 0b0_0011_001001_10101_01010_00000_000_101 = .ok (.adGet 21 10 5) ∧
    decodeWord 0b0_0011_010000_10101_01010_00110_101_101 = .ok (.adAadd 21 10 6 .rel true 5) ∧
    decodeWord 0b0_0011_010001_10101_01010_00110_101_101 = .ok (.adAand 21 10 6 .rel true 5) ∧
    decodeWord 0b0_0011_010010_10101_01010_00110_101_101 = .ok (.adAor 21 10 6 .rel true 5) ∧
    decodeWord 0b0_0011_010011_10101_01010_00110_101_101 = .ok (.adAxor 21 10 6 .rel true 5) ∧
    decodeWord 0b0_0011_010100_10101_01010_00110_101_101 = .ok (.adAmin 21 10 6 .rel true 5) ∧
    decodeWord 0b0_0011_010101_10101_01010_00110_101_101 = .ok (.adAmax 21 10 6 .rel true 5) ∧
    decodeWord 0b0_0011_010110_10101_01010_00110_101_101 = .ok (.adNmin 21 10 6 .rel true 5) ∧
    decodeWord 0b0_0011_010111_10101_01010_00110_101_101 = .ok (.adNmax 21 10 6 .rel true 5) :=
  ⟨rfl, rfl, rfl, rfl, rfl, rfl, rfl, rfl, rfl, rfl, rfl, rfl, rfl, rfl, rfl, rfl, rfl, rfl⟩

/-- Words of the address (R63) operations, bit by bit: the class and operation of R66, then the fields. -/
theorem test_words_ad_2 :
    decodeWord 0b0_0011_011000_10101_01010_00110_101_101 = .ok (.adXchg 21 10 6 .rel true 5) ∧
    decodeWord 0b0_0011_011001_10101_01010_00110_101_101 = .ok (.adCas 21 10 6 .rel true 5) ∧
    decodeWord 0b0_0011_011010_10101_01010_00110_100_101 = .ok (.adFadd 21 10 6 .rel 5) ∧
    decodeWord 0b0_0011_011011_10101_01010_00110_100_101 = .ok (.adBadd 21 10 6 .rel 5) :=
  ⟨rfl, rfl, rfl, rfl⟩

/-- Words of the vector (R60) operations, bit by bit: the class and operation of R66, then the fields. -/
theorem test_words_vx_1 :
    decodeWord 0b0_0100_000010_10011_01101_00111_001_101 = .ok (.vxAdd 19 13 7 .bf16 5 .rdn) ∧
    decodeWord 0b0_0100_000110_10011_01101_00111_001_101 = .ok (.vxSub 19 13 7 .bf16 5 .rdn) ∧
    decodeWord 0b0_0100_001010_10011_01101_00111_001_101 = .ok (.vxMul 19 13 7 .bf16 5 .rdn) ∧
    decodeWord 0b0_0100_001110_10011_01101_00111_001_101 = .ok (.vxFma 19 13 7 .bf16 5 .rdn) ∧
    decodeWord 0b0_0100_010000_10011_01101_00111_001_101 = .ok (.vxMin 19 13 7 .bf16 5) ∧
    decodeWord 0b0_0100_010001_10011_01101_00111_001_101 = .ok (.vxMax 19 13 7 .bf16 5) ∧
    decodeWord 0b0_0100_010010_10011_01101_00000_100_101 = .ok (.vxAbs 19 13 .i16 5) ∧
    decodeWord 0b0_0100_010011_10011_01101_00000_100_101 = .ok (.vxNeg 19 13 .i16 5) ∧
    decodeWord 0b0_0100_010100_10011_01101_00111_000_101 = .ok (.vxAnd 19 13 7 5) ∧
    decodeWord 0b0_0100_010101_10011_01101_00111_000_101 = .ok (.vxOr 19 13 7 5) ∧
    decodeWord 0b0_0100_010110_10011_01101_00111_000_101 = .ok (.vxXor 19 13 7 5) ∧
    decodeWord 0b0_0100_010111_10011_01101_00000_000_101 = .ok (.vxNot 19 13 5) ∧
    decodeWord 0b0_0100_011000_10011_01101_00111_100_101 = .ok (.vxShl 19 13 7 .i16 5) ∧
    decodeWord 0b0_0100_011001_10011_01101_00111_100_101 = .ok (.vxShr 19 13 7 .i16 5) ∧
    decodeWord 0b0_0100_011010_10011_01101_00111_100_101 = .ok (.vxSra 19 13 7 .i16 5) ∧
    decodeWord 0b0_0100_011011_10011_01101_00111_100_101 = .ok (.vxMulh 19 13 7 .i16 5) ∧
    decodeWord 0b0_0100_011100_10011_01101_00111_100_101 = .ok (.vxAdds 19 13 7 .i16 5) ∧
    decodeWord 0b0_0100_011101_10011_01101_00111_100_101 = .ok (.vxSubs 19 13 7 .i16 5) :=
  ⟨rfl, rfl, rfl, rfl, rfl, rfl, rfl, rfl, rfl, rfl, rfl, rfl, rfl, rfl, rfl, rfl, rfl, rfl⟩

/-- Words of the vector (R60) operations, bit by bit: the class and operation of R66, then the fields. -/
theorem test_words_vx_2 :
    decodeWord 0b0_0100_011110_10011_01101_00000_000_101 = .ok (.vxMov 19 13 5) ∧
    decodeWord 0b0_0100_011111_10011_01101_00111_000_101 = .ok (.vxSel 19 13 7 5) ∧
    decodeWord 0b0_0100_100000_00110_01101_00111_011_101 = .ok (.vxCeq 6 13 7 .n32 5) ∧
    decodeWord 0b0_0100_100001_00110_01101_00111_011_101 = .ok (.vxCne 6 13 7 .n32 5) ∧
    decodeWord 0b0_0100_100010_00110_01101_00111_011_101 = .ok (.vxClt 6 13 7 .n32 5) ∧
    decodeWord 0b0_0100_100011_00110_01101_00111_011_101 = .ok (.vxCle 6 13 7 .n32 5) ∧
    decodeWord 0b0_0100_100100_00110_00011_00100_000_101 = .ok (.vxQand 6 3 4 5) ∧
    decodeWord 0b0_0100_100101_00110_00011_00100_000_101 = .ok (.vxQor 6 3 4 5) ∧
    decodeWord 0b0_0100_100110_00110_00011_00100_000_101 = .ok (.vxQxor 6 3 4 5) ∧
    decodeWord 0b0_0100_100111_00110_00011_00000_000_101 = .ok (.vxQnot 6 3 5) ∧
    decodeWord 0b0_0100_101000_10011_01101_00111_000_101 = .ok (.vxPerm 19 13 7 5) ∧
    decodeWord 0b0_0100_101001_10011_01101_00110_000_101 = .ok (.vxLsh 19 13 6 5) ∧
    decodeWord 0b0_0100_101010_10011_01101_00110_000_101 = .ok (.vxLrot 19 13 6 5) ∧
    decodeWord 0b0_0100_101011_10011_01011_00000_001_101 = .ok (.vxBcast 19 11 .bf16 5) ∧
    decodeWord 0b0_0100_101100_10101_01101_00110_001_101 = .ok (.vxExt 21 13 6 .bf16 5) ∧
    decodeWord 0b0_0100_101101_10101_01101_00000_001_101 = .ok (.vxRadd 21 13 .bf16 5) ∧
    decodeWord 0b0_0100_101110_10101_01101_00000_001_101 = .ok (.vxRmax 21 13 .bf16 5) ∧
    decodeWord 0b0_0100_101111_10101_01101_00000_001_101 = .ok (.vxRmin 21 13 .bf16 5) :=
  ⟨rfl, rfl, rfl, rfl, rfl, rfl, rfl, rfl, rfl, rfl, rfl, rfl, rfl, rfl, rfl, rfl, rfl, rfl⟩

/-- Words of the vector (R60) operations, bit by bit: the class and operation of R66, then the fields. -/
theorem test_words_vx_3 :
    decodeWord 0b0_0100_110000_10011_01101_00000_001_101 = .ok (.vxRcp 19 13 .bf16 5) ∧
    decodeWord 0b0_0100_110001_10011_01101_00000_001_101 = .ok (.vxRsq 19 13 .bf16 5) ∧
    decodeWord 0b0_0100_110010_10011_01101_00000_001_101 = .ok (.vxExp2 19 13 .bf16 5) ∧
    decodeWord 0b0_0100_110011_10011_01101_00000_001_101 = .ok (.vxLog2 19 13 .bf16 5) :=
  ⟨rfl, rfl, rfl, rfl⟩

/-- Words of the conversion (R171) operations, bit by bit: the class and operation of R66, then the fields. -/
theorem test_words_vy :
    decodeWord 0b0_0101_000010_10011_01101_01010_001_101 = .ok (.vyCvt 19 13 1 .i32 .bf16 5 .rdn) ∧
    decodeWord 0b0_0101_000100_10011_01101_01001_110_101 = .ok (.vyCvs 19 13 1 .bf16 .t8 5) ∧
    decodeWord 0b0_0101_000101_10011_01101_01001_111_101 = .ok (.vyCvo 19 13 1 .bf16 .t6 5) ∧
    decodeWord 0b0_0101_000110_10011_01101_01001_100_101 = .ok (.vyPpk 19 13 true .bf16 4 5) ∧
    decodeWord 0b0_0101_000111_10011_01101_01001_100_101 = .ok (.vyPun 19 13 true .bf16 4 5) :=
  ⟨rfl, rfl, rfl, rfl, rfl⟩

/-- Words of the matrix (R62) operations, bit by bit: the class and operation of R66, then the fields. -/
theorem test_words_mx :
    decodeWord 0b0_0110_000000_1001_1_1010_0_1101_0_001_100 = .ok (.mxMma 9 true 10 13 .t6 4) ∧
    decodeWord 0b0_0110_000000_1001_1_1010_1_1101_0_001_100 = .ok (.mxMms 9 true 10 13 .t6 4) ∧
    decodeWord 0b0_0110_000001_1001_0_0000_0_0000_0_000_101 = .ok (.mxClr 9 5) ∧
    decodeWord 0b0_0110_000010_1001_1_1010_1_0011_1_000_101 = .ok (.mxDrn 9 true 10 true 7 5) ∧
    decodeWord 0b0_0110_000011_1001_0_1010_1_0011_1_000_101 = .ok (.mxFil 9 10 true 7 5) ∧
    decodeWord 0b0_0110_000100_1001_1_1010_0_0000_0_101_101 = .ok (.mxSt 9 true 10 .t6planar 5) ∧
    decodeWord 0b0_0110_000101_1001_0_1010_0_0000_0_001_101 = .ok (.mxLd 9 10 true 5) ∧
    decodeWord 0b0_0110_000110_0000_0_1010_1_0011_0_001_101 = .ok (.mxCmp 10 true 6 .t6 5) ∧
    decodeWord 0b0_0110_000111_1001_0_0000_0_0011_0_000_101 = .ok (.mxTsr 9 6 5) ∧
    decodeWord 0b0_0110_001000_1001_1_0000_0_1001_0_000_101 = .ok (.mxAcp 9 true 9 5) :=
  ⟨rfl, rfl, rfl, rfl, rfl, rfl, rfl, rfl, rfl, rfl⟩

/-- Words of the lake operations, bit by bit: the class and operation of R66, then the fields. -/
theorem test_words_lk :
    decodeWord 0b0_0111_000000_10101_01011_00110_101_101 = .ok (.lkAlloc 21 11 6 .t6 true 5) ∧
    decodeWord 0b0_0111_000001_00000_01011_00000_000_101 = .ok (.lkLoad 11 5) ∧
    decodeWord 0b0_0111_000010_00000_01011_00000_000_101 = .ok (.lkPin 11 5) ∧
    decodeWord 0b0_0111_000011_00000_01011_00000_000_101 = .ok (.lkUnpin 11 5) ∧
    decodeWord 0b0_0111_000100_00000_01011_00000_000_101 = .ok (.lkRevk 11 5) ∧
    decodeWord 0b0_0111_000101_10101_01011_00000_000_101 = .ok (.lkQry 21 11 5) ∧
    decodeWord 0b0_0111_000110_00000_01011_00110_000_101 = .ok (.lkQuota 11 6 5) ∧
    decodeWord 0b0_0111_000111_00000_01011_00000_000_101 = .ok (.lkSclr 11 5) :=
  ⟨rfl, rfl, rfl, rfl, rfl, rfl, rfl, rfl⟩

/-- Words of the copy operations, bit by bit: the class and operation of R66, then the fields. -/
theorem test_words_cp :
    decodeWord 0b0_1000_000000_10101_01011_00110_010_101 = .ok (.cpLvl 21 11 6 2 5) ∧
    decodeWord 0b0_1000_000001_00000_01011_00000_110_101 = .ok (.cpSrc 11 2 true 5) ∧
    decodeWord 0b0_1000_000010_00000_01011_00000_110_101 = .ok (.cpDst 11 2 true 5) ∧
    decodeWord 0b0_1000_000011_10101_01011_00110_010_101 = .ok (.cpBnd 21 11 6 2 5) ∧
    decodeWord 0b0_1000_000100_00000_01011_00110_110_101 = .ok (.cpGo 11 6 2 true 5) ∧
    decodeWord 0b0_1000_000101_10101_00000_00000_010_101 = .ok (.cpWmk 21 2 5) ∧
    decodeWord 0b0_1000_000110_00000_00000_00000_010_101 = .ok (.cpCncl 2 5) ∧
    decodeWord 0b0_1000_000111_00000_01011_00000_000_101 = .ok (.cpRpl 11 5) ∧
    decodeWord 0b0_1000_001000_00000_01011_00000_000_101 = .ok (.cpBput 11 5) ∧
    decodeWord 0b0_1000_001001_00000_01011_00000_000_101 = .ok (.cpBlat 11 5) ∧
    decodeWord 0b0_1000_001010_00000_01011_00000_000_101 = .ok (.rsGo 11 5) ∧
    decodeWord 0b0_1000_001011_10101_00000_00000_000_101 = .ok (.rsStat 21 5) :=
  ⟨rfl, rfl, rfl, rfl, rfl, rfl, rfl, rfl, rfl, rfl, rfl, rfl⟩

/-- Words of the fabric (R64) operations, bit by bit: the class and operation of R66, then the fields. -/
theorem test_words_fx :
    decodeWord 0b0_1001_000000_101010_0000_00110_000_101 = .ok (.fxPush 42 6 5) ∧
    decodeWord 0b0_1001_000001_101010_0000_00110_000_101 = .ok (.fxPop 42 6 5) ∧
    decodeWord 0b0_1001_000010_101010_1010_10110_101_101 = .ok (.fxSt 42 10 22 5 5) ∧
    decodeWord 0b0_1001_000011_101010_1010_00000_100_101 = .ok (.fxLd 42 10 4 5) ∧
    decodeWord 0b0_1001_000100_101010_1010_00110_101_101 = .ok (.fxAt 42 10 6 .nmax 5) ∧
    decodeWord 0b0_1001_000101_101010_1010_00111_100_101 = .ok (.fxRep 42 10 7 4 5) ∧
    decodeWord 0b0_1001_000110_101010_0000_00110_000_101 = .ok (.fxMark 42 6 5) ∧
    decodeWord 0b0_1001_000111_000000_0000_00110_000_101 = .ok (.fxDrn 6 5) ∧
    decodeWord 0b0_1001_001000_101010_0000_00110_000_101 = .ok (.fxMsg 42 6 5) ∧
    decodeWord 0b0_1001_001001_101010_0000_00110_000_101 = .ok (.fxLst 42 6 5) :=
  ⟨rfl, rfl, rfl, rfl, rfl, rfl, rfl, rfl, rfl, rfl⟩

/-- Words of the ordering (R65) operations, bit by bit: the class and operation of R66, then the fields. -/
theorem test_words_sy :
    decodeWord 0b0_1010_000000_00000_000000_00_10_100_101 = .ok (.syFence .rel .domain 5) ∧
    decodeWord 0b0_1010_000001_00000_100100_00_00_000_101 = .ok (.syXf 0b100100 5) ∧
    decodeWord 0b0_1010_000010_10101_100100_00_00_100_101 = .ok (.syDrn 21 0b100100 .domain 5) ∧
    decodeWord 0b0_1010_000011_10101_000000_00_00_100_101 = .ok (.syWait 21 .domain 5) ∧
    decodeWord 0b0_1010_000100_10101_000000_00_00_000_101 = .ok (.syPhase 21 5) ∧
    decodeWord 0b0_1010_000101_10101_000000_00_00_000_101 = .ok (.syLcr 21 5) :=
  ⟨rfl, rfl, rfl, rfl, rfl, rfl⟩

/-- Words of the system (R67) operations, bit by bit: the class and operation of R66, then the fields. -/
theorem test_words_tr :
    decodeWord 0b0_1011_000000_00000_1010010111000011 = .ok (.trTrap 0xA5C3) ∧
    decodeWord 0b0_1011_000001_00000_00000_00000_000_101 = .ok (.trRft 5) ∧
    decodeWord 0b0_1011_000010_00000_00000_00000_000_101 = .ok (.trRfu 5) ∧
    decodeWord 0b0_1011_000011_10101_0000100000110010 = .ok (.trCsrr 21 0x832) ∧
    decodeWord 0b0_1011_000100_10101_0000100000110010 = .ok (.trCsrw 21 0x832) ∧
    decodeWord 0b0_1011_000101_00000_00000_00000_000_101 = .ok (.trYld 5) ∧
    decodeWord 0b0_1011_000110_00000_00000_00000_000_101 = .ok (.trHalt 5) ∧
    decodeWord 0b0_1011_000111_00000_01011_00000_000_101 = .ok (.trKill 11 5) :=
  ⟨rfl, rfl, rfl, rfl, rfl, rfl, rfl, rfl⟩

/-- Words of the scale operations, bit by bit: the class and operation of R66, then the fields. -/
theorem test_words_sc :
    decodeWord 0b0_1100_000000_00000_00011_00100_000_101 = .ok (.scUse 3 4 5) ∧
    decodeWord 0b0_1100_000001_00110_01010_00110_000_101 = .ok (.scLd 6 10 6 5) ∧
    decodeWord 0b0_1100_000010_00000_01010_00110_000_101 = .ok (.scLdm 10 6 5) :=
  ⟨rfl, rfl, rfl⟩

/-- Words of the prefix (R67) operations, bit by bit: the class and operation of R66, then the fields. -/
theorem test_words_px :
    decodeWord 0b0_1101_000000_00000_0000000010110101 = .ok (.pxRep 0xB5) ∧
    decodeWord 0b0_1101_000001_00000_0000000000000100 = .ok (.pxFirst 4) ∧
    decodeWord 0b0_1101_000010_00000_0000000000000100 = .ok (.pxLast 4) ∧
    decodeWord 0b0_1101_000011_00000_0000000000001101 = .ok (.pxSeg 13) :=
  ⟨rfl, rfl, rfl, rfl⟩

/-! ### A small state -/

/-- The member whose slots run: s1 = 5, s2 = −7, s3 = 2^63, a1 = 0x2000, q1 = 2. -/
def member : Ctx :=
  { core := 0
    s := (((Vector.replicate 32 (0 : Word)).set 1 5).set 2 (-7)).set 3 0x8000000000000000
    a := (Vector.replicate 16 (0 : Word)).set 1 0x2000
    q := (Vector.replicate 8 (0 : Word)).set 1 2 }

/-- Its gang, with 16 KiB of scratchpad from 0x2000. -/
def gang : Gang :=
  { id := 1
    cluster := 0
    slot := 0
    members := [member]
    lc := 10
    task := { spadBase := 0x2000, spadSize := 0x4000 } }

/-- The issue record of a gang's member 0. -/
def issue (g : Gang) : Issue := { old := g, work := g, m := 0 }

/-- A state in which a bundle of member 0 of a gang is being performed. -/
def issuing (g : Gang) : State := { State.reset with iss := some (issue g) }

/-- The last result bound by the slot: due, register and value. -/
def bound : Host.Outcome State Fault Refusal → Option (Nat × Nat × Word)
  | .next s => s.iss.bind fun r => (getCtx r.work r.m).results.getLast?.map fun x => (x.due, x.num, x.val.setWidth 64)
  | _ => none

/-- The traps raised by the slot: code and value. -/
def traps : Host.Outcome State Fault Refusal → List (Code × Word)
  | .next s => (s.iss.map fun r => r.traps.map fun t => (t.code, t.val)).getD []
  | _ => []

/-- Part of the issue record after the slot. -/
def after {α : Type} (f : Issue → α) : Host.Outcome State Fault Refusal → Option α
  | .next s => s.iss.map f
  | _ => none

/-- Part of the state after an event. -/
def left {α : Type} (f : State → α) : Host.Outcome State Fault Refusal → Option α
  | .next s => some (f s)
  | _ => none

/-! ### One step each; the values are worked out from the rules named -/

/-- R144, R145: 5 + (−7) as i8 is −2; as n8 it is 254. -/
theorem test_add_types : bound (exec (.sxAdd 4 1 2 .i8 0) (issuing gang)) = some (11, 4, -2) ∧
    bound (exec (.sxAdd 4 1 2 .n8 0) (issuing gang)) = some (11, 4, 254) := by decide
/-- R58: bit 0 of q1 is 0, so the slot writes nothing. -/
theorem test_predicate_off : bound (exec (.sxAdd 4 1 2 .i64 1) (issuing gang)) = none := by decide
/-- R22: −7 / 0 is −1 and leaves −7; −2^63 / −1 wraps. -/
theorem test_division : bound (exec (.sxDiv 4 2 0 .i64 0) (issuing gang)) = some (30, 4, -1) ∧
    bound (exec (.sxRem 4 2 0 .i64 0) (issuing gang)) = some (30, 4, -7) ∧
    bound (exec (.sxDiv 4 2 1 .i64 0) (issuing gang)) = some (30, 4, -1) ∧
    bound (exec (.sxRem 4 2 1 .i64 0) (issuing gang)) = some (30, 4, -2) := by decide
/-- R145: the upper half of 5 · (−7) is −1. -/
theorem test_mulh : bound (exec (.sxMulh 4 1 2 .i64 0) (issuing gang)) = some (13, 4, -1) := by decide
/-- R146: a shift by 2^63, read in full, empties the register; an arithmetic one copies the sign. -/
theorem test_shift_full : bound (exec (.sxShl 4 1 3 .i8 0) (issuing gang)) = some (11, 4, 0) ∧
    bound (exec (.sxSra 4 2 3 .i64 0) (issuing gang)) = some (11, 4, -1) := by decide
/-- R56: a write to s0 is discarded. -/
theorem test_zero_register : bound (exec (.sxAdd 0 1 2 .i64 0) (issuing gang)) = none := by decide
/-- R56, R140: s31 with an empty queue violates the schedule, the value being the slot index. -/
theorem test_empty_queue : traps (exec (.sxMov 4 31 .i64 0) (issuing gang)) = [(.scheduleViolation, 0)] := by decide
/-- R150: ih1 replaces bits 31:16; addi sign-extends its immediate. -/
theorem test_immediates : bound (exec (.siIh1 1 0xABCD) (issuing gang)) = some (11, 1, 0xABCD0005) ∧
    bound (exec (.siAddi 1 0xFFFF) (issuing gang)) = some (11, 1, 4) := by decide
/-- R147: the leading zeros of 5 as i16. -/
theorem test_clz : bound (exec (.sxClz 4 1 .i16 0) (issuing gang)) = some (11, 4, 13) := by decide
/-- R119: a backward jump out of the code raises INSTR_ADDRESS with the target, −4. -/
theorem test_jump_out : traps (exec (.brJ 0xFFFF) (issuing gang)) = [(.instrAddress, -4)] ∧
    after (·.npc) (exec (.brBnz 1 8) (issuing gang)) = some (some 32) ∧
    after (·.npc) (exec (.brBz 1 8) (issuing gang)) = some none := by decide
/-- R121: q1 = 2 is not uniform. -/
theorem test_nonuniform : traps (exec (.brBq 1 8) (issuing gang)) = [(.nonuniformBranch, 2)] := by decide
/-- R128: br.lend at a level that is not active violates the schedule. -/
theorem test_lend_inactive : traps (exec (.brLend 2 1) (issuing gang)) = [(.scheduleViolation, 0)] := by decide
/-- R130: the repeat count waits for its slot. -/
theorem test_repeat_prefix : after (fun r => (r.rep, r.slot)) (exec (.pxRep 7) (issuing gang)) = some (7, 1) := by decide
/-- R188, R190: a store of 8 bytes at 0x2005 is misaligned; one at 0x2000 is noted, low byte first. -/
theorem test_store : traps (exec (.adSt 2 false 1 1 .b64 0) (issuing gang)) = [(.localAlign, 0x2005)] ∧
    after (fun r => r.ops.map fun o => match o with | .store a bs _ => (a, bs) | _ => (0, []))
      (exec (.adSt 2 false 1 0 .b16 0) (issuing gang)) = some [(0x2000, [0xF9, 0xFF])] := by decide
/-- R188: the allocation ends at 0x6000. -/
theorem test_bounds : traps (exec (.adLd 4 false 1 3 .b8 0) (issuing gang)) = [(.localBounds, 0x8000000000002000)] := by decide
/-- R188: a post-increment steps the address register one cycle later. -/
theorem test_post_increment : after (fun r => (getCtx r.work 0).results.map fun x => (x.file, x.num, x.due, x.val.setWidth 64))
    (exec (.adLd 4 true 1 1 .b8 0) (issuing gang)) =
      some [(.a, 1, 11, (0x2005 : Word)), (.s, 4, 16, 0)] := by decide
/-- R191: an address register moved out. -/
theorem test_get : bound (exec (.adGet 4 1 0) (issuing gang)) = some (11, 4, 0x2000) := by decide
/-- R276: a far load of a region that is not touched. -/
theorem test_untouched : traps (exec (.adFld 4 false 1 0 .b64 0) (issuing gang)) = [(.accessUntouched, 0x2000)] := by decide
/-- R297: the logical cycle. -/
theorem test_lcr : bound (exec (.syLcr 4 0) (issuing gang)) = some (11, 4, 10) := by decide
/-- R340: the argument of tr.trap waits for the boundary; R354: tr.rft needs service mode, tr.rfu a user-level handler. -/
theorem test_traps : after (·.calls) (exec (.trTrap 0x1234) (issuing gang)) = some [(0, 0x1234)] ∧
    traps (exec (.trRft 0) (issuing gang)) = [(.privilege, 0)] ∧
    traps (exec (.trRfu 0) (issuing gang)) = [(.scheduleViolation, 0)] := by decide
/-- R350: a service register at user privilege. -/
theorem test_privilege : traps (exec (.trCsrr 4 0x001) (issuing gang)) = [(.privilege, 1)] ∧
    bound (exec (.trCsrr 4 0x012) (issuing gang)) = some (11, 4, 1536) := by decide
/-- R225: a handle of a slot that is not bound. -/
theorem test_unbound_lake : traps (exec (.lkLoad 1 0) (issuing gang)) = [(.lakeRevoked, 0x305)] := by decide
/-- R395: a remote address with bit 63 set. -/
theorem test_remote_address : traps (exec (.fxMsg 2 3 0) (issuing gang)) = [(.remoteAddress, 0x8000000000000000)] := by decide
/-- R261: a go word with SIZE 5 is no legal program; the value is the channel. -/
theorem test_copy_program : traps (exec (.cpGo 1 0 2 false 0) (issuing gang)) = [(.copyProgram, 2)] := by decide
/-- R247: a scale register read from scratchpad, three cycles later. -/
theorem test_scale_load : after (fun r => (getCtx r.work 0).results.map fun x => (x.file, x.num, x.due))
    (exec (.scLd 3 1 0 0) (issuing gang)) = some [(.e, 3, 13)] := by decide
/-- R72: a slot outside a bundle has no meaning. -/
theorem test_no_context : exec (.sxAdd 4 1 2 .i64 0) State.reset = .fault .noIssuingContext := rfl

/-- R52: on a Sienna core a second A slot, and any vector slot, is illegal; on a tile core neither is. -/
theorem test_sienna_bundle :
    legalOnSienna [.sxAdd 1 2 3 .i64 0, .adAdd 1 2 3 0, .sxNop, .sxNop] = true ∧
    legalOnSienna [.adAdd 1 2 3 0, .adAdd 4 2 3 0, .sxNop, .sxNop] = false ∧
    legalOnSienna [.vxAdd 1 2 3 .i32 0 .rne, .sxNop, .sxNop, .sxNop] = false ∧
    legalBundle 0 false [.adAdd 1 2 3 0, .adAdd 4 2 3 0, .vxAdd 1 2 3 .i32 0 .rne, .sxNop] = true := by decide
/-! ### Witnesses: states and operands that meet the hypotheses of the statements -/

/-- Every statement about a slot assumes an issuing context. -/
theorem witness_events : isEvent (.preemption 1) = true ∧ isEvent (.kisvcAbandon 7) = true ∧ isEvent .sxNop = false ∧
    isEvent (.pxRep 2) = false ∧ State.reset.iss = none := by decide
theorem witness_issuing : ∃ r, (issuing gang).iss = some r ∧ r.m < r.work.members.length := ⟨_, rfl, by decide⟩

/-- O1, O2 and BundleSlotsAreExecuted: a well-formed instruction with its word, the greatest of its operands. -/
theorem witness_encode : encode (.sxAdd 31 31 31 .n8 7) = some 0x003FFFFF ∧ (Instr.sxAdd 31 31 31 .n8 7).wf = true ∧
    decodeWord 0x003FFFFF = .ok (.sxAdd 31 31 31 .n8 7) ∧ ∀ d n, Instr.sxAdd 31 31 31 .n8 7 ≠ .trCsrw d n :=
  ⟨rfl, rfl, rfl, by intros; simp⟩

/-- ReservedWordsAreRefused: a word for each clause, at the ends of the ranges. -/
theorem witness_reserved : 14 ≤ 0x70000000 / 2 ^ 27 % 16 ∧ 14 ≤ 0xFFFFFFFF / 2 ^ 27 % 16 ∧
    (25 ≤ (25 * 2 ^ 21) / 2 ^ 21 % 64 ∧ (25 * 2 ^ 21) / 2 ^ 27 % 16 = 0) ∧ (39 ≤ (63 * 2 ^ 21) / 2 ^ 21 % 64 ∧
    (63 * 2 ^ 21) / 2 ^ 27 % 16 = 0) ∧ (0x09000000 / 2 ^ 27 % 16 = 1 ∧ 8 ≤ 0x09000000 / 2 ^ 21 % 64) ∧
    (0x10010000 / 2 ^ 27 % 16 = 2 ∧ 0x10010000 / 2 ^ 21 % 64 = 0 ∧ 0x10010000 / 2 ^ 16 % 32 ≠ 0) ∧
    (0x5860000A / 2 ^ 27 % 16 = 11 ∧ 0x5860000A / 2 ^ 21 % 64 = 3 ∧ 0x5860000A % 2 ^ 16 < 4096 ∧
      csrAssigned (0x5860000A % 2 ^ 16) = false) := by decide

/-- FloatFormatRules: a NaN, and codes at the ends. -/
theorem witness_nan : 0x7F800001 < 2 ^ 32 ∧ 0x7F800000 < 0x7F800001 % 0x80000000 ∧ 0xFFFFFFFF < 2 ^ 32 ∧
    0x7F800000 < 0xFFFFFFFF % 0x80000000 ∧ ¬ 0x7F800000 < 0xFF800000 % 0x80000000 ∧ 0xFFFF < 2 ^ 16 := by decide

/-- StepTakesTheNextItem: an agenda with an item, and an empty one. -/
theorem witness_agenda : ({ State.reset with agenda := [.sxNop] } : State).agenda = .sxNop :: [] ∧ State.reset.agenda = [] ∧
    State.reset.turn = (0 : Fin 40).val ∧ ({ State.reset with turn := 39 } : State).turn = (39 : Fin 40).val := by decide

/-- The machine about to issue a bundle of four slots: add, nop, nop, nop with the stop bit. -/
def oneBundle : State := State.reset.withFetchWord 32 0x002110C0

/-- FetchDecodesTheBundle. -/
theorem witness_fetch : (getCtx fetchGang 0).mode < 2 ∧ nextPc (getCtx fetchGang 0) % 16384 + 4 * 4 ≤ 16384 ∧
    (List.range 4).map (fun j => codeWord oneBundle fetchGang 0 (nextPc (getCtx fetchGang 0) + 4 * j)) =
      [0x002110C0, 0, 0, 0x80000000] ∧
    [0x002110C0, 0, 0, 0x80000000].map (fun w => bitAt w 31) = [false, false, false, true] ∧
    legalBundle 0 false [.sxAdd 1 2 3 .i64 0, .sxNop, .sxNop, .sxNop] = true := by decide
theorem witness_fetch_words : decodeWord 0x002110C0 = .ok (.sxAdd 1 2 3 .i64 0) ∧ decodeWord 0 = .ok .sxNop ∧
    decodeWord 0x80000000 = .ok .sxNop := ⟨rfl, rfl, rfl⟩

/-- IdleClusterCycle: the machine right after reset. -/
theorem witness_idle : (∀ g ∈ State.reset.gangs, g.cluster ≠ (0 : Fin 40).val) ∧
    (∀ co < 8, (getCore State.reset 0 co).engine = []) ∧ State.reset.remote = [] ∧ State.reset.replies = [] := by decide

/-- LoneGangIssues. -/
theorem witness_lone : oneBundle.gangs = [fetchGang] ∧ fetchGang.cluster = (0 : Fin 40).val ∧ (getCluster oneBundle 0).guard = [] ∧
    fetchGang.killed = none ∧ fetchGang.kill = none ∧ fetchGang.conf = false ∧ fetchGang.calls = [] ∧ fetchGang.preempt = none ∧
    fetchGang.yld = false ∧ fetchGang.walks = [] ∧ walksWait oneBundle fetchGang.id = false ∧ handlerOf fetchGang = none ∧
    pendingInt fetchGang = none :=
  ⟨rfl, rfl, rfl, rfl, rfl, rfl, rfl, rfl, rfl, rfl, rfl, rfl, rfl⟩
theorem witness_lone_attempt :
    let h := settleGang fetchGang
    let a := attempt (putGang { oneBundle with iss := none } h) h
    a.p.is.freezes = [] ∧ a.p.is.traps = [] ∧ a.halts = [] := ⟨rfl, rfl, rfl⟩

/-- The slots of member 0 in a mode, with load data waiting. -/
def inMode (mode : Nat) : Perf := start State.reset (issue { gang with members := [{ member with mode := mode, ldq := [9] }] })

/-- RegisterForms: a state for each mode, with and without load data. -/
theorem witness_modes : (oldCtx (inMode 0)).mode = 0 ∧ (oldCtx (inMode 1)).mode = 1 ∧ 2 ≤ (oldCtx (inMode 2)).mode ∧
    2 ≤ (oldCtx (inMode 3)).mode ∧ (workCtx (inMode 0)).ldq = 9 :: [] ∧
    (workCtx (start State.reset (issue gang))).ldq = [] := by decide

/-- ResultTiming and QueuesHoldSixteenEntries: bundles of a gang and of a handler; results due now, together, and later. -/
theorem witness_results : (start State.reset (issue gang)).is.m < (start State.reset (issue gang)).is.work.members.length ∧
    (start State.reset (issue gang)).is.handler = false ∧
    (start State.reset { issue gang with handler := true }).is.handler = true ∧ member.presS = true ∧
    queueOver (workCtx (start State.reset (issue gang))) = false := by decide +kernel
theorem witness_landing (c : Ctx) (h : c.results = [⟨7, .s, 31, BitVec.setWidth 2048 (BitVec.allOnes 64), BitVec.setWidth 2048 (3 : Word), none, []⟩]) :
    ∃ v : Word, c.results = [⟨7, .s, 31, BitVec.setWidth 2048 (BitVec.allOnes 64), v.setWidth 2048, none, []⟩] ∧ 31 < 32 ∧ 7 ≤ 7 ∧ 6 < 7 :=
  ⟨3, h, by decide, by decide, by decide⟩

/-- AtomicResults: a wide integer atomic, and a bound result that waits for its value. -/
theorem witness_atomic : (true = true → AtomOp.add ≠ .fadd ∧ AtomOp.add ≠ .badd) ∧ (false = true → AtomOp.fadd ≠ .fadd) ∧
    0 < (issue gang).work.members.length := by decide
theorem witness_atomic_result (r : Result) (h : r = ⟨16, .s, 4, wordMask, 0, none, []⟩) :
    (getCtx ({ gang with members := [{ member with results := [r] }] } : Gang) 0).results = [r] ∧ r.file = .s ∧ r.num = 4 ∧ r.due = 16 := by
  subst h; exact ⟨rfl, rfl, rfl, rfl⟩

/-- A gang whose region at 0x2000 is touched, with W. -/
def touched : Gang := { gang with members := [{ member with touches := (Vector.replicate 8 none).set 0 (some ⟨0x2000, 0x7000, true, 10, 266, 0⟩) }] }

/-- FarAccessResults: an aligned address in a touched region, with room everywhere. -/
theorem witness_far : (issuing touched).iss = some (issue touched) ∧ (issue touched).cond = true ∧ (issue touched).handler = false ∧
    (oldCtx (start (issuing touched) (issue touched))).mode = 0 ∧
    (oldCtx (start (issuing touched) (issue touched))).a[1].toNat % ASize.b64.bytes = 0 ∧
    liveTouch (oldCtx (start (issuing touched) (issue touched)))
      ((oldCtx (start (issuing touched) (issue touched))).a[1].toNat / 4096 * 4096) (issue touched).old.lc =
        some ⟨0x2000, 0x7000, true, 10, 266, 0⟩ := by decide +kernel
theorem witness_far_room : (workCtx (start (issuing touched) (issue touched))).presS = true ∧
    (workCtx (start (issuing touched) (issue touched))).farq.length < 16 ∧
    cfgFar (oldCtx (start (issuing touched) (issue touched))) = false ∧
    (oldCtx (start (issuing touched) (issue touched))).relScope = 7 ∧
    inFlight (workCtx (start (issuing touched) (issue touched))) ((issue touched).old.lc + 1) < 16 := by decide +kernel

/-- Vector statements: formats of each kind, and pairs for each clause on conversions and planes. -/
theorem witness_formats : VFmt.i32.isInt = true ∧ VFmt.n32.isInt = true ∧ VFmt.i8.isInt = true ∧ VFmt.f32.isFp = true ∧
    VFmt.bf16.isFp = true ∧ VFmt.i16.arith = true ∧ VFmt.i8 ≠ .n32 ∧ VFmt.i32 ≠ .n32 ∧ VFmt.t6 ≠ .t8 ∧ VFmt.f32 ≠ .bf16 ∧
    VFmt.t8 ≠ .f32 ∧ ((if true = true then 8 else 0) + 7 < 16) ∧ ((if false = true then 8 else 0) + 5 < 6) ∧
    ((if false = true then 8 else 0) + 7 < 8) := by decide
theorem witness_elements : bitsOfFmt .i8 * (255 + 1) ≤ 2048 ∧ bitsOfFmt .bf16 * (127 + 1) ≤ 2048 ∧ 32 * (63 + 1) ≤ 2048 ∧
    127 < 128 ∧ 15 < 16 := by decide

/-- ArrayOperationCompletes: an operation at the head of core 0's engine, at its last wall cycle. -/
def engineOp : ArrayOp :=
  { gang := 1, member := 0, tile := 15, lake := 2, z := true, sp := false, fmt := .t8, pl := 1,
    x0 := List.replicate 8 (zeros 256), x1 := [], scale := 0, reissue := 0, aslot := 3, wait := false, left := 1 }
/-- The weights it uses. -/
def weights : ArrSlot := ⟨1, 0, 2, 0, 0, .t8, false, [], 1, false, true⟩
/-- The core that performs it. -/
def engineCore : Core := { engine := [engineOp], arr := (Vector.replicate 16 none).set 3 (some weights) }
/-- The gang whose tile 15 it works on. -/
def engineGang : Gang := { gang with members := [{ member with tiles := (Vector.replicate 16 ({} : TileSt)).set 15 { present := true } }] }
/-- The machine in which it completes. -/
def engineState : State := setCore { State.reset with gangs := [engineGang] } 0 0 engineCore

theorem witness_engine : (getCore engineState 0 0).engine = engineOp :: [] ∧ engineOp.wait = false ∧ engineOp.left ≤ 1 ∧
    findGang engineState engineOp.gang = some engineGang ∧ engineOp.member < engineGang.members.length ∧ engineOp.tile < 16 ∧
    engineOp.x0.length ≤ codeBits engineOp.fmt ∧ engineOp.x1.length ≤ codeBits engineOp.fmt ∧
    vget none (getCore engineState 0 0).arr engineOp.aslot = some weights := by decide +kernel

/-- ArrayOperationIssue: a lake that is bound and filled, its weights in slot 3. -/
def ready : Perf :=
  { st := setCore { State.reset with gangs := [gang] } 0 0
      { arr := (Vector.replicate 16 none).set 3 (some ⟨1, 0, 2, 0, 0, .t8, false, [], 0, false, true⟩) }
    is := issue { gang with members := [{ member with
      lakes := (Vector.replicate 16 ({} : LakeSt)).set 2 { bound := true, fill := .filled }
      tiles := (Vector.replicate 16 ({} : TileSt)).set 0 { present := true } }] } }
theorem witness_ready : 0x2000 % 256 = 0 ∧ ((List.range 8).all fun j => inAlloc ready.is.old (0x2000 + 256 * j) 256) = true ∧
    lakeCheck ready 2 false 0 = ready := by decide +kernel
theorem witness_lake_ready : lakeReady ready 2 false = true ∧ (vget {} (getCtx engineGang 0).tiles engineOp.tile).present = true := by decide +kernel
theorem witness_ready_place :
    let p := touchPlanes (touchTile ready 0) ((List.range 8).map fun j => 0x2000 + 256 * j)
    (getCore p.st (clusterOf p) (oldCtx p).core).engine.length < 8 ∧
    arraySlot (getCore p.st (clusterOf p) (oldCtx p).core) ready.is.old.id ready.is.m 2 = some 3 := by decide +kernel


/-- Did it answer? -/
def answered {ε α : Type} : Except ε α → Bool
  | .ok _ => true
  | .error _ => false

/-! #### Lakes, copies, remote operations, drains, control registers -/

/-- A machine in service whose virtual addresses below 2^28 are the physical ones, readable and writable, under desc 0. -/
def mapped : State :=
  { State.reset with stage := .service, gangs := [gang], mem := [(75, 0x10), (88, 7)] }
/-- The same with nothing mapped. -/
def unmapped : State := { mapped with mem := [] }
/-- The lake slot of the gang below. -/
def aLake : LakeSt := { bound := true, src := 0x100 }
/-- A bundle of a gang with a lake in slot 15. -/
def lakePerf (s : State) (x : LakeSt) : Perf :=
  start s (issue { gang with members := [{ member with lakes := (Vector.replicate 16 ({} : LakeSt)).set 15 x }] })

/-- LakePinAndFill, pins: a pinned lake; one within its limit and one beyond it; with and without a free watch entry; with
and without a translation. -/
theorem witness_pin : (lakeOf (lakePerf mapped { aLake with pinned := true }) 15).pinned = true ∧
    (lakeOf (lakePerf mapped aLake) 15).pinned = false ∧
    pinCount mapped 0 (coreKey 0 0) + 1 ≤ mapGet 16 mapped.quota 0 ∧
    mapGet 16 ({ mapped with quota := [(0, 0)] } : State).quota 0 < pinCount ({ mapped with quota := [(0, 0)] } : State) 0 (coreKey 0 0) + 1 := by
  decide +kernel
theorem witness_pin_source : freeWatch mapped = some 0 ∧
    answered (xlatRange unmapped 0 aLake.src (lakeLen aLake.fmt aLake.sparse) false) = false ∧
    answered (xlatRange mapped 0 aLake.src (lakeLen aLake.fmt aLake.sparse) false) = true := by decide +kernel
/-- The watch table with every entry taken. -/
def fullWatch : State := { mapped with watch := (List.range 8192).map fun i => (i, some ⟨[], (0, 0), 0, 0, 0, 0, 0, none, false⟩) }
theorem mapGet_taken (w : Watch) (ks : List Nat) (i : Nat) (h : i ∈ ks) :
    mapGet none (ks.map fun i => (i, some w)) i = some w := by
  induction ks with
  | nil => simp at h
  | cons k r ih =>
    simp only [List.map_cons, mapGet]
    split
    · rfl
    · exact ih (List.mem_of_ne_of_mem (Ne.symm ‹_›) h)
theorem witness_full_watch : freeWatch fullWatch = none := by
  simp only [freeWatch, List.find?_eq_none, fullWatch]
  intro i hi
  rw [mapGet_taken _ _ i hi]; simp
/-- LakePinAndFill, fills: one about to start, and one about to complete. -/
def lakeState (x : LakeSt) : State :=
  { mapped with gangs := [{ gang with members := [{ member with lakes := (Vector.replicate 16 ({} : LakeSt)).set 15 x }] }] }
theorem witness_fill :
    let s := lakeState { aLake with fill := .filling, pend := true }
    let t := lakeState { aLake with fill := .filling }
    (findGang s (1 : Word).toNat).isSome = true ∧ fillSlot s gang 0 = some 0 ∧
      answered (farRead t gang.launch.xdesc aLake.src (lakeLen aLake.fmt aLake.sparse)) = true := by decide +kernel

/-- RemoteSlotResults and MessageSlotResults: remote addresses that pass, at their ends, and that fail. -/
theorem witness_remote_address : RemoteOk 0 64 ∧ RemoteOk 0xFF8 1 ∧ RemoteOk 0x7FFFA700007FFE00 64 ∧ ¬RemoteOk 0xFF8 2 ∧
    ¬RemoteOk 4 1 ∧ ¬RemoteOk 0x8000000000000000 1 ∧ ¬RemoteOk 0x0000A80000000000 1 := by
  simp only [RemoteOk, field]; refine ⟨?_, ?_, ?_, ?_, ?_, ?_, ?_⟩ <;> decide +kernel
/-- Room in the FIFOs, and none. -/
theorem witness_room : ¬(64 < (portFifo (inMode 0) 31).ob.length + (portFifo (inMode 0) 31).obBusy + 64 ∨
      64 < (portFifo (inMode 0) 31).ib.length + (portFifo (inMode 0) 31).resv + 64) ∧
    64 < (portFifo (inMode 0) 31).ob.length + (portFifo (inMode 0) 31).obBusy + 65 := by decide +kernel
/-- A replicated store: a list of two devices at 0x2000. -/
def replicated : Perf := start (setCluster mapped 0 { getCluster mapped 0 with spad := [(0x2006, 1), (0x2008, 1), (0x200B, 0x7F)] })
  (issue gang)
theorem witness_replicated : spadNumber replicated 0x2000 8 = 0x0001000000000000 ∧ 0x2000 % 8 = 0 ∧
    inAlloc replicated.is.old 0x2000 12 = true ∧ spadNumber replicated 0x2008 2 = 1 ∧ spadNumber replicated 0x200A 2 < 2 ^ 15 := by
  decide +kernel

/-- Its first word is there, and in a gang whose block is away it is not. -/
theorem witness_first_word :
    (checkWatermark (touchSpad replicated 0x2000 8) 0x2000 8).is.freezes.length ≤ replicated.is.freezes.length ∧
    (let p := start mapped (issue { gang with absent := List.range 2048 })
     p.is.freezes.length < (checkWatermark (touchSpad p 0x2000 8) 0x2000 8).is.freezes.length) := by decide +kernel

/-- DrainAndWaitResults: a path that is complete and one that is not; words to wait for. -/
theorem witness_drain : pathDone (start mapped (issue gang)) 5 = true ∧ pathDone (start mapped (issue gang)) 0 = true ∧
    pathDone (start mapped (issue { gang with members := [{ member with
      chans := (Vector.replicate 4 ({} : ChanSt)).set 3 { state := .running } }] })) 4 = false := by decide +kernel
theorem witness_wait : (0x8000000000000100 : Word).getLsbD 63 = true ∧ (0x8000000000000100 : Word).toNat % 2 ^ 63 % 8 = 0 ∧
    (0x8000000000000101 : Word).toNat % 2 ^ 63 % 8 ≠ 0 ∧ (0x2000 : Word).getLsbD 63 = false ∧
    answered (translate mapped 0 0x100) = true ∧ answered (translate unmapped 0 0x100) = false ∧
    (translate mapped 0 0x100).toOption.map (fun (t : Xlat) => (t.r, t.pa)) = some (true, 0x100) ∧
    (translate { mapped with mem := [(75, 0x10), (88, 5)] } 0 0x100).toOption.map (fun (t : Xlat) => t.r) = some false ∧
    physNat mapped 0x100 8 = 0 ∧ physNat { mapped with mem := mapped.mem ++ [(0x100, 1)] } 0x100 8 = 1 := by decide +kernel

/-- ControlRegisterAccess: user and service privilege, and registers of each kind. -/
theorem witness_privilege : privileged (inMode 1) = false ∧ privileged (inMode 2) = true ∧ ServiceRegister (0x800 : Fin 4096).val ∧
    ReadOnlyForUser (0x02F : Fin 4096).val ∧ ¬(ServiceRegister (0x014 : Fin 4096).val ∨ ReadOnlyForUser (0x014 : Fin 4096).val) := by
  simp only [ServiceRegister, ReadOnlyForUser]; decide +kernel

/-! #### Packets -/

/-- A queue of a supervisor with sixteen packets. -/
def aQueue : Queue := { ring := 0, npkt := 16, prio := 0, super := true, desc := 0, client := 1, tenant := 1, tail := 16 }
/-- Queue 4095 stands in the machine above. -/
def queued (x : Queue) (s : State) : State := putQueue s 4095 x

/-- Every statement about a packet: the machine executes packet of queue 4095; where the packet stands in a stream, at depth
2, in a loop body, and at the end of what TAIL allows. -/
theorem witness_executes : Executes (queued aQueue mapped) 4095 aQueue ∧
    Executes (queued { aQueue with head := 15, stack := [⟨64, 4, 0⟩, ⟨128, 4, 1⟩] } mapped) 4095 { aQueue with head := 15, stack := [⟨64, 4, 0⟩, ⟨128, 4, 1⟩] } ∧
    Executes (queued { aQueue with loop := some ⟨0, 16, 2, 0⟩ } mapped) 4095 { aQueue with loop := some ⟨0, 16, 2, 0⟩ } ∧
    Executes (queued { aQueue with stack := [⟨64, 4, 0⟩] } unmapped) 4095 { aQueue with stack := [⟨64, 4, 0⟩] } := by
  simp only [Executes]; decide +kernel
theorem witness_flow : inLoop { aQueue with loop := some ⟨0, 16, 2, 0⟩ } = true ∧
    inLoop { aQueue with stack := [⟨64, 4, 0⟩, ⟨128, 4, 1⟩] } = false ∧
    inLoop { aQueue with stack := [⟨64, 4, 0⟩], loop := some ⟨0, 4, 2, 1⟩ } = true ∧
    queuePos aQueue + 1 + (15 : BitVec 16).toNat ≤ streamEnd aQueue ∧ streamEnd aQueue < queuePos aQueue + 1 + (16 : BitVec 16).toNat ∧
    (0x100000 : BitVec 32).toNat ≤ 2 ^ 20 ∧ 2 ^ 20 < (0x100001 : BitVec 32).toNat ∧ (64 : Word).toNat % 64 = 0 := by decide +kernel
/-- QueueMovesOn and FencedQueue. -/
theorem witness_moves : aQueue.stack = [] ∧ aQueue.loop = none ∧ aQueue.head < aQueue.tail ∧
    getQueue (queued aQueue mapped) 4095 = some aQueue := by decide +kernel
/-- PacketMemory: words mapped and not; a word at its threshold and one above; the watch list not full and full. -/
theorem witness_packet_memory : answered (farRead (queued aQueue mapped) 0 (0x0FFFFFF8 : Word).toNat 8) = true ∧
    answered (farRead (queued aQueue mapped) 0 (0x10000000 : Word).toNat 8) = false ∧
    answered (farWriteExt (queued aQueue mapped) 0 0x0FFFFFF8 (leBytes 8 7)) = true ∧
    answered (farWriteExt (queued aQueue mapped) 0 0x10000000 (leBytes 8 7)) = false ∧
    (BitVec.ofNat 64 0 : Word).toInt ≤ (0 : Word).toInt ∧ (-1 : Word).toInt < (BitVec.ofNat 64 0 : Word).toInt ∧
    (queued aQueue mapped).watches.length < 1024 ∧ (0x100 : Word).toNat % 16 = 0 := by decide +kernel
theorem witness_full_watches : 1024 ≤ ({ queued aQueue mapped with watches := List.replicate 1024 ⟨4095, 0, 0, 0, true, 0, 0, 0⟩ } : State).watches.length ∧
    Executes { queued aQueue mapped with watches := List.replicate 1024 ⟨4095, 0, 0, 0, true, 0, 0, 0⟩ } 4095 aQueue := by
  simp only [Executes]; exact ⟨by decide +kernel, by decide +kernel⟩

/-- A tenant's descriptor at 0x100000, tenant 1, its one range the identity below 2^28. -/
def tenantMem : Memory := [(75, 0x10), (88, 7), (0x100008, 1), (0x10004B, 0x10), (0x100058, 7)]
/-- The machine with that descriptor, a loaded image 5 and a queue under the descriptor. -/
def tenantQueue (super : Bool) : Queue := { aQueue with desc := 0x100000, super := super }
/-- PacketTasks. -/
def launching (super : Bool) : State :=
  queued (tenantQueue super) { mapped with mem := tenantMem, images := [{ id := 5, client := 1, task := {}, segs := [], spad := [] }] }
/-- The launch of image 5. -/
def aLaunch : Launch := { queue := 4095, xdesc := 0x100000, qdesc := 0x100000, cluster := 255, cmask := 0, image := 5 }
/-- FencedQueue: a queue to be destroyed, with a launch that waits and without one. -/
theorem witness_fenced : ({ aQueue with destroy := true } : Queue).destroy = true ∧ aQueue.destroy = false ∧
    (launching false).ready.any (fun r => r.queue = 4095 && !r.again && !r.launch.test) = false ∧
    ([⟨4095, aLaunch, false⟩] : List Ready).any (fun r => r.queue = 4095 && !r.again && !r.launch.test) = true := by decide +kernel
theorem witness_launch : Executes (launching false) 4095 (tenantQueue false) ∧
    answered (readPool (launching false) 0x100000 0) = true ∧ answered (readPool (launching false) 0x100000 (0x20000000 : Word).toNat) = false ∧
    answered (checkLaunch (launching false) (tenantQueue false) aLaunch) = true ∧
    answered (checkLaunch (launching false) (tenantQueue false) { aLaunch with svc := true }) = false ∧
    mapGet 0 (launching false).dispatched (1 : Word).toNat ≠ 4095 + 1 ∧
    mapGet 0 ({ launching false with dispatched := [(1, 4096)] } : State).dispatched (1 : Word).toNat = 4095 + 1 := by
  simp only [Executes]; decide +kernel

/-- A saved image at 0x200000: MAGIC, VERSION 1, one member, SAVED, its descriptor at 0x100000, a task of one member. -/
def savedImage : Memory :=
  [(0x200000, 0x49), (0x200001, 0x4D), (0x200002, 0x47), (0x200003, 0x31), (0x200004, 1), (0x200006, 1), (0x200007, 1),
   (0x200012, 0x10), (0x200404, 1)]
/-- A machine that can resume it. -/
def resuming : State := queued (tenantQueue false) { mapped with mem := tenantMem ++ savedImage, boot := 0 }
/-- Its resumption. -/
def aResume : Launch := { queue := 4095, xdesc := 0x100000, qdesc := 0x100000, cluster := 255, cmask := 0, image := 0x200000, resume := true }
theorem witness_resume : answered (checkResume resuming aResume) = true ∧
    answered (checkResume (launching false) aResume) = false ∧
    answered (readPool resuming 0x100000 (0x20000000 : Word).toNat) = false := by decide +kernel

/-- PacketSupervisor: a lake to revoke, a gang that is gone, a ring that stands and one that does not. -/
def aSteer : Steer :=
  { rule := 255, ports := 3, udp := 1, task := 1, base := 0x2000, slotLog := 8, nslotLog := 5, member := some 7, cluster := 0 }
theorem witness_supervisor :
    let s := queued aQueue (lakeState { aLake with fill := .filled })
    Executes s 4095 aQueue ∧ (findGang s (1 : Word).toNat).isSome = true ∧ findGang s (2 : Word).toNat = none ∧
      ringOk s aSteer = true ∧ ringOk s { aSteer with base := 0x2020 } = false ∧ ringOk s { aSteer with nslotLog := 16 } = false := by
  simp only [Executes]; decide +kernel
theorem witness_ring_sizes : (0x80000000 : BitVec 32).toNat = 2 ^ 31 ∧ (1 : BitVec 32).toNat = 2 ^ 0 ∧ (64 : Word).toNat % 64 = 0 := by decide

/-! #### Calls and host accesses -/

/-- Clients 7, a supervisor, and 8 of a machine in service. -/
def clients : State := queued { aQueue with client := 7 } { mapped with
  mem := tenantMem, ochre := { clients := [⟨7, 1, 0x100000, true⟩, ⟨8, 1, 0x100000, false⟩] } }
theorem witness_serves : Serves clients 7 ⟨7, 1, 0x100000, true⟩ ∧ Serves clients 8 ⟨8, 1, 0x100000, false⟩ := by
  simp only [Serves]; decide +kernel
theorem witness_memory_calls : (8192 : BitVec 32).toNat ≤ 8192 ∧ 8192 < (8193 : BitVec 32).toNat ∧
    (List.replicate 8184 (0 : Byte)).length ≤ 8184 ∧ 8184 < (List.replicate 8185 (0 : Byte)).length ∧
    answered (farRead clients 0x100000 0x0FFFFFF8 8) = true ∧ answered (farRead clients 0x100000 0x0FFFFFF8 9) = false ∧
    answered (farWriteExt clients 0x100000 0x0FFFFFF8 (leBytes 8 1)) = true ∧
    answered (farWriteExt clients 0x100000 0x10000000 (leBytes 8 1)) = false := by decide +kernel
theorem witness_queue_calls : ownQueue clients ⟨8, 1, 0x100000, false⟩ 4095 = none ∧
    ownQueue clients ⟨7, 1, 0x100000, true⟩ 4095 = some { aQueue with client := 7 } ∧
    ownQueue (fenceQueue clients 4095 6) ⟨7, 1, 0x100000, true⟩ 4095 =
      some { aQueue with client := 7, state := .fenced, cause := 6 } ∧
    aQueue.tail < (17 : Word).toNat ∧ aQueue.npkt < (17 : Word).toNat - aQueue.head ∧ ¬aQueue.npkt < (16 : Word).toNat - aQueue.head ∧
    (0 : BitVec 16).toNat < 4096 ∧ getQueue clients 0 = none ∧ (4 ≤ 20 ∧ (0x100000 : BitVec 32).toNat = 2 ^ 20) ∧
    (0x1000 : Word).toNat % 4096 = 0 ∧ answered (xlatRange clients 0x100000 0x1000 1024 false) = true ∧
    answered (xlatRange clients 0x100000 0x10000000 1024 false) = false := by decide +kernel
theorem witness_device_calls : nextHost clients + (0x1000 : Word).toNat ≤ 2 ^ 48 ∧ (1 : BitVec 8).toNat < 2 ∧ 2 < (3 : BitVec 8).toNat ∧
    answered (loadImage clients 7 0x100000 0 4096) = false ∧ answered (unloadImage clients 5) = false ∧
    answered (unloadImage { clients with images := [{ id := 5, client := 1, task := {}, segs := [], spad := [] }] } 5) = true ∧
    (∀ z, clients.quiesce = some z → z.done = true) := by decide +kernel
/-- HostAccess: a window that covers the access, at its last bytes; a rule at a port. -/
def windowed : State := { clients with windows := [⟨1, 7, 0x1000, 0x100, true, 0x100000, none⟩], steers := [aSteer] }
theorem witness_windows : windowFor windowed (1 : BitVec 32).toNat (0x10F8 : Word).toNat 8 true =
      some ⟨1, 7, 0x1000, 0x100, true, 0x100000, none⟩ ∧
    windowFor windowed (1 : BitVec 32).toNat (0x10F9 : Word).toNat 8 true = none ∧
    ruleFor windowed 1 1 = some aSteer ∧ ruleFor windowed 1 2 = none ∧ windowed.arrivals = [] ∧ windowed.stage = .service ∧
    windowed.powered = true ∧
    deceoHeaderOk ([0x44, 0x43, 1, 1] ++ List.replicate 28 0) = true ∧ deceoHeaderOk [] = false ∧
    (let kick : List Byte := [0x44, 0x43, 1, 1, 4, 0] ++ List.replicate 28 0 ++ [1] ++ List.replicate 13 0
     deceoHeaderOk kick = true ∧ fieldLe kick 4 2 = 4 ∧ (kick.drop 32).length = 16 ∧ fieldLe (kick.drop 32) 2 6 ≠ 0) ∧
    (∃ b ∈ ([⟨1, 255, 4, zeros 4, (0, 0)⟩] : List Arrival), b.rule = aSteer.rule) := by decide +kernel

/-- SiennaEvents: an executive with a turn; a queue that waits, for a word at its threshold or above; a QUIESCE. -/
def waits (t : Int) : WaitSt := ⟨4095, 0x100, t, 0, false, 0, 0, 0⟩
theorem witness_turn : turnOrder clients 7 = 4095 :: [] := by decide +kernel
theorem witness_wait_events :
    let x := { aQueue with state := .waiting, wait := some (waits 0) }
    waitAt (queued x clients) false (4095 : Fin 4096).val = some (waits 0) ∧ getQueue (queued x clients) (waits 0).queue = some x ∧
      (waits 0).thresh ≤ 0 ∧ (waits (-1)).thresh < (BitVec.ofNat 64 0 : Word).toInt ∧
      waitAt { clients with watches := [waits 0] } true (0 : Fin 4096).val = some (waits 0) := by decide +kernel
theorem witness_quiesce (z : Quiesce) (h : z = ⟨7, 1, 0x1000, 0x100000, false⟩) :
    ({ clients with quiesce := some z } : State).quiesce = some z ∧ z.done = false := by subst h; decide

/-! #### Gangs between their bundles -/

/-- DueEvents, IssueEvents: the machine about to issue a bundle; one about to drain or to wait; interrupts, and records. -/
def drains (w : Nat) : State := State.reset.withFetchWord 32 w
theorem witness_may_issue : findGang oneBundle fetchGang.id = some fetchGang ∧ 0 < fetchGang.members.length := by decide +kernel
theorem witness_may_issue_now : mayIssue oneBundle fetchGang = true := rfl
/-- A member with a store to pair, one of each kind, a repeat to reissue and a held write, all due. -/
def dueMember : Ctx :=
  { member with
    saq := [⟨false, 8, 0x2000, 0⟩, ⟨true, 256, 0x2100, BitVec.allOnes 64⟩], sdq := [⟨0, 7⟩], vsdq := [⟨0, 7⟩]
    rep := some { remaining := 1, k := 1, tile := 0, lake := 0, z := false, sp := false, fmt := .t8, pl := 0,
                  eA := 0, eB := 0, areg := 1, base := 0x2000, dop := 4, due := 0 }
    held := [⟨0, .bytes 0x2000 [1], true⟩] }
theorem witness_due : (∃ e ∈ dueMember.saq, e.vec = false) ∧ (∃ e ∈ dueMember.saq, e.vec = true) ∧ DataReady dueMember.sdq 0 ∧
    DataReady dueMember.vsdq 0 ∧ dueMember.rep.isSome = true ∧ (∃ h ∈ dueMember.held, h.due ≤ 0) ∧
    handlerOf { gang with members := [{ member with mode := 1 }] } ≠ none :=
  ⟨by decide, by decide, ⟨_, _, rfl, by decide⟩, ⟨_, _, rfl, by decide⟩, rfl, by decide, by decide⟩
/-- A gang that may issue with stores of its own to pair. -/
def pairing : State := { oneBundle with gangs := [{ fetchGang with
  members := [{ core := 0, segs := [(0, 0, true)], saq := [⟨false, 8, 0x2000, 0⟩], sdq := [⟨0, 7⟩] }] }] }
theorem witness_pairing (g : Gang) (h : pairing.gangs = [g]) : mayIssue pairing g = true ∧ findGang pairing g.id = some g ∧
    (getCtx g 0).saq.any (fun e => !e.vec) = true ∧ DataReady (getCtx g 0).sdq g.lc := by
  simp only [pairing, List.cons.injEq, and_true] at h; subst h; exact ⟨rfl, rfl, rfl, _, _, rfl, by decide⟩
/-- StoresPair. -/
theorem witness_pair : (workCtx (start mapped (issue { gang with members := [dueMember] }))).sdq = ⟨0, 7⟩ :: [] ∧
    0 ≤ (start mapped (issue { gang with members := [dueMember] })).is.old.lc := by decide +kernel
theorem witness_drain_next : nextHasSlot (drains 0x50550420) fetchGang isDrain = true ∧
    mayIssue (drains 0x50550420) fetchGang = true ∧ nextHasSlot (drains 0x50750020) fetchGang isWait = true := ⟨rfl, rfl, rfl⟩
theorem witness_record_room :
    let s := { mapped with ring := some ⟨0x1000, 16, 0, 0⟩, waiting := [⟨.kill, 0, zeros 64⟩] }
    s.ring = some ⟨0x1000, 16, 0, 0⟩ ∧ s.waiting = ⟨.kill, 0, zeros 64⟩ :: [] ∧ ringRoom s ⟨0x1000, 16, 0, 0⟩ = true := by decide +kernel

/-- ReissueSteps: a repeat of a member, due now. -/
def reissuing : Ctx :=
  { member with rep := some { remaining := 1, k := 15, tile := 15, lake := 0, z := false, sp := false, fmt := .t8, pl := 0,
                              eA := 0, eB := 0, areg := 15, base := 0x2000, dop := 4, due := 10 } }
theorem witness_reissue (r : Repeat) (h : reissuing.rep = some r) : r.remaining ≠ 0 ∧ r.due ≤ gang.lc := by
  simp only [reissuing, Option.some.injEq] at h; subst h; decide

/-- A member with an interrupt of each source pending and enabled. -/
def interrupted : Ctx := { member with kuie := 0xFF, kuip := 0x7F }
theorem witness_interrupt : pendingInt { gang with members := [member, interrupted] } = some (1, 0) ∧
    pendingSrc interrupted = some 0 ∧ pendingSrc member = none ∧ pendingSrc { interrupted with kuip := 0x40 } = some 6 ∧
    handlerOf { gang with members := [member, interrupted] } = none ∧ gang.killed = none ∧ holdsWrites gang = false := by
  decide +kernel
/-- IssueEvents: a ring of the supervisor, with room, and a record that waits for it. -/
theorem witness_lake_service (g : Gang) (h : (lakeState aLake).gangs = [g]) : Alive (lakeState aLake) 1 g ∧
    (getCtx g 0).halted = false ∧ (vget {} (getCtx g 0).lakes (15 : Fin 16).val).bound = true := by
  simp only [lakeState, List.cons.injEq, and_true] at h; subst h; exact ⟨⟨rfl, rfl⟩, rfl, rfl⟩

/-- FarEvents: a walk that is wanted, a load and a store first in order, a touch beyond its time. -/
def farMember : Ctx :=
  { member with
    farq := [⟨0, true, 0x1000, 0x1000, 8, 7, false, 0, false, 0⟩, ⟨1, false, 0x2000, 0x2000, 8, 0, false, 0, false, 0⟩]
    touches := (Vector.replicate 8 none).set 7 (some ⟨0x2000, 0x7000, true, 0, 9, 0⟩) }
theorem witness_far_events :
    (getCtx { gang with members := [farMember] } 0).farq[0]? = some ⟨0, true, 0x1000, 0x1000, 8, 7, false, 0, false, 0⟩ ∧
    farInOrder farMember.farq 0 ⟨0, true, 0x1000, 0x1000, 8, 7, false, 0, false, 0⟩ = true ∧
    farMember.farq[1]? = some ⟨1, false, 0x2000, 0x2000, 8, 0, false, 0, false, 0⟩ ∧
    farInOrder farMember.farq 1 ⟨1, false, 0x2000, 0x2000, 8, 0, false, 0, false, 0⟩ = true ∧
    vget none (getCtx { gang with members := [farMember] } 0).touches (7 : Fin 8).val = some ⟨0x2000, 0x7000, true, 0, 9, 0⟩ ∧
    9 < gang.lc ∧ ({ gang with walks := [(0, 7)] } : Gang).walks.contains (0, 7) = true := by decide +kernel

/-- CopyEvents: a transfer of 16 bytes of fill, first on channel 3 of core 0. -/
def copying : ChanSt := { state := .running, dbase := 0x2000, size := 16, begun := true, coords := Vector.replicate 6 ⟨1, 1⟩ }
/-- Its machine. -/
def copyState : State :=
  setCore { mapped with gangs := [{ gang with members := [{ member with chans := (Vector.replicate 4 {}).set 3 copying }] }] } 0 0
    { chq := (Vector.replicate 4 []).set 3 [(1, 0)] }
theorem witness_copy_events : (headTransfer copyState 0 0 3).map (fun x => (x.2.1, x.2.2)) = some (0, copying) ∧
    (∀ b ∈ chunkAbsent gang copying, False) ∧ answered (chunkBytes copyState gang 0 copying .ok) = true ∧
    answered (chunkWrite copyState gang 0 copying (zeros 16)) = true ∧ pastChunk copying = none ∧
    (pastChunk { copying with dbase := 0x2FF8 }).isSome = true ∧ (∀ x ∈ (getCluster copyState 0).guard, x.1 ≠ (63 : Fin 64).val) := by
  decide +kernel

/-- LifeEvents: a task that can be dispatched, one that has ended, one to be pre-empted into a pool, a block to be pulled, a
segment asked for, an owned block, a ticket. -/
def waiting : State := { launching false with ready := [⟨4095, aLaunch, false⟩], clusters := [(0, { state := .online })] }
theorem witness_dispatch : waiting.powered = true ∧ waiting.quiesce = none ∧ waiting.stage ≠ .root ∧
    (readyOrder waiting).find? (fun r => (launchTask waiting r.launch).isNone ||
      (!r.again && !r.launch.test && failedCluster waiting r.launch.cluster)) = none ∧
    ((readyOrder waiting).findSome? (fun r => (placeNow (preemptFor waiting (readyOrder waiting)) r.launch).map fun p => (r, p))).isSome = true := by
  decide +kernel
/-- A gang whose one member has halted. -/
def ended : Gang := { gang with members := [{ member with halted := true }] }
theorem witness_completion : gangEnded ended = true ∧ nothingDue { mapped with gangs := [ended] } ended = true := by decide +kernel
/-- A far load that waits, whose word an uncorrectable error has met. -/
def lostFar : Gang := { gang with members := [{ member with farq := [⟨0, false, 0x1000, 0x1000, 8, 0, false, 0, false, 0⟩] }] }
/-- A far wait behind an access of its own to that sector, and one behind none. -/
theorem witness_own_access : ((workCtx (start mapped (issue lostFar))).farq.any fun o => !o.done && decide (o.pa / 64 = 0x2000 / 64)) = false ∧
    ((workCtx (start mapped (issue { gang with members := [{ member with
      farq := [⟨0, true, 0x1000, 0x1000, 8, 0, false, 0, false, 0⟩] }] }))).farq.any fun o =>
        !o.done && decide (o.pa / 64 = 0x1000 / 64)) = true := by decide +kernel
theorem witness_preemption_stops : (farLost { mapped with bad := [64] } lostFar).isSome = true ∧ farLost mapped lostFar = none ∧
    fabricState { gang with members := [{ member with fifos := (Vector.replicate 48 {}).set 47 { ib := [.fail] } }] } = some 47 ∧
    fifoOut mapped gang = false ∧ gang.pulls.any (remotePull mapped gang) = false ∧ farLost mapped gang = none ∧
    (findGang mapped gang.id).isSome = true := by decide +kernel
theorem witness_preemption : preemptReady gang = true ∧ fabricState gang = none ∧
    poolBusy { mapped with gangs := [gang] } gang ⟨0x100000, 0x300000, 0x100000, 0x400000, false⟩ = false := by decide +kernel
theorem witness_pull :
    let g := { gang with pulls := [(BlockKind.spad.code, 0, 3)], absent := [3] }
    g.killed = none ∧ g.pulls.contains (BlockKind.spad.code, 0, 3) = true ∧
      pullPresent g (BlockKind.spad.code, 0, 3) = false ∧ pullPresent { g with absent := [] } (BlockKind.spad.code, 0, 3) = true ∧
      pullBlocker mapped g (BlockKind.spad.code, 0, 3) = none ∧ noFrame mapped g (BlockKind.spad.code, 0, 3) = false ∧
      (pullBlocker (setCluster mapped 0 { owned := [(5, 0x200000, 3)] }) g (BlockKind.spad.code, 0, 3)).isSome = true ∧
      g.fromImage = none ∧ ({ g with fromImage := some 0x200000 } : Gang).fromImage = some 0x200000 := by decide +kernel
theorem witness_segment_copy :
    let c := { member with segReq := [9] }
    segOf c 9 = none ∧ segVictim (setCore mapped 0 0 { segOwner := (Vector.replicate 16 none).set 14 (some (1, 0)) })
      { gang with members := [c] } 0 = some 14 := by decide +kernel
theorem witness_segment : (getCtx { gang with members := [{ member with segs := [(9, 14, false)], segReq := [9] }] } 0).segReq.contains 9 = true := by
  decide +kernel
/-- A saved image at 0x200000, with FLUSH, that still holds scratchpad block 3, of the gang's allocation. -/
def flushing : State :=
  setCluster { mapped with mem := mapped.mem ++ [(0x200007, 1), (0x200020, 1)] } 0 { owned := [(5, 0x200000, 3)] }
theorem witness_write_out : claimerOf mapped (BlockKind.spad.code, (0x200000 : Word).toNat, 0, 3) = none ∧
    flushNext flushing (0x200000 : Word).toNat = some (BlockKind.spad.code, 0, 3) ∧
    (claimerOf { flushing with
        gangs := [{ gang with pulls := [(BlockKind.spad.code, 0, 3)], absent := [3] }]
        claims := [(1, BlockKind.spad.code, 0, 3)] } (BlockKind.spad.code, (0x200000 : Word).toNat, 0, 3)).map (fun x => (x.1.id, x.2)) =
      some (1, BlockKind.spad.code, 0, 3) ∧
    (([⟨7, .resumeTranslation, 0x200000, 0, 0, 0, 1⟩] : List Ticket).find? fun x => x.ticket = (7 : BitVec 32).toNat) =
      some ⟨7, .resumeTranslation, 0x200000, 0, 0, 0, 1⟩ := by decide +kernel

/-! #### Links, remote operations, plans -/

/-- A machine in service with a link in some state at port 47. -/
def linked (l : Link) : State := setLink { mapped with devId := 1 } 47 l
theorem witness_links : LinkRuns (linked {}) 47 ∧ (linkOf (linked {}) 47).st = .down ∧ (linkOf (linked { st := .dark }) 47).st = .dark ∧
    (linkOf (linked { st := .training }) 47).st = .training ∧ (linkOf (linked { st := .up }) 47).st = .up ∧
    (linkOf (linked { st := .fenced }) 47).st = .fenced ∧ (16 < (linkOf (linked { retrans := 17 }) 47).retrans) := by
  simp only [LinkRuns]; decide +kernel
/-- A store to device 1 itself, placed and not yet performed. -/
def localStore : RemOp :=
  { seq := 5, dev := 1, port := 31, gang := 1, member := 0, tenant := 0, kind := .store, addr := 0x100, words := [7], nrep := 0,
    flits := 2, obw := 0, sent := true, lc := 0, lost := false, ans := none, cl := 0, co := 0, sl := 0 }
/-- The same to device 2. -/
def distantStore : RemOp := { localStore with dev := 2, port := 47 }
theorem witness_remote_ops : loopback { linked {} with remote := [localStore] } 5 = some localStore ∧
    openOp { linked {} with remote := [distantStore] } 2 5 = some distantStore ∧ distantStore.kind ≠ .mark ∧
    distantStore.kind ≠ .abort ∧ distantStore.sent = true ∧ distantStore.dev ≠ (linked {}).devId ∧
    (findGang { linked {} with remote := [distantStore] } distantStore.gang).isSome = true ∧ distantStore.plan = none ∧
    ({ distantStore with plan := some 0 } : RemOp).plan = some 0 := by decide +kernel
/-- A request of device 2, on port 47, and a reply. -/
def request (k : ReqKind) : ReqPacket := ⟨47, 2, 5, 0, 0, 0, 0, k, 0x100, [], 0, 0, none⟩
/-- RemoteEvents, PacketsAreForwarded: a request that leaves its buffer and one that waits behind an earlier one; a path to a
device that has the allowance, and one without it. -/
theorem witness_requests :
    (request .load).kind ≠ .abort ∧ (request .abort).kind = .abort ∧ (request .load).dev.toNat ≠ (linked {}).devId ∧
    (handleRequest (linked {}) 2 (transitOp (request .mark) 1) false .ok).2 = true ∧
    (handleRequest (linked {}) 2 (transitOp (request .mark) 1) true .ok).2 = false := by decide +kernel
theorem witness_forward :
    (routePorts (linked { st := .up, peer := 3, allowReq := 512, allowRsp := 512 }) 3).find? (fun p =>
      decide (flitsOf 64 ≤ (linkOf (linked { st := .up, peer := 3, allowReq := 512, allowRsp := 512 }) p).allowReq)) = some 47 ∧
    (routePorts (linked { st := .up, peer := 3 }) 3).find? (fun p =>
      decide (flitsOf 0 ≤ (linkOf (linked { st := .up, peer := 3 }) p).allowReq)) = none ∧ 3 ≠ (linked {}).devId := by decide +kernel

/-- A piece of a plan. -/
def piece : Piece := ⟨1, 0, 0x1000, 0x2000, 1, [0], [8], 0x1000, [8], [0], 0x2000, [8], [0], 8⟩
/-- PlanEvents: a start to be claimed, for a context and for a queue; a plan that runs, and one to be killed. -/
theorem witness_plans (p : Plan) (hp : p = ⟨0, 0, some (1, 0), none, true, [], 0, 0, 0, 0, 0, false, 0, 0, 0, false, none, 0, false⟩) :
    (([⟨1, 0, 0x100, 0, 0, 0, 0, false⟩] : List PlanStart).find? fun x => x.gang = (1 : Word).toNat && x.member = (0 : Fin 8).val) =
      some ⟨1, 0, 0x100, 0, 0, 0, 0, false⟩ ∧
    getQueue (queued { aQueue with plan := some 0x100 } mapped) 4095 = some { aQueue with plan := some 0x100 } ∧
    ({ mapped with plans := [p] } : State).plans[(0 : Fin 256).val]? = some p ∧ p.kill = false ∧ ({ p with kill := true } : Plan).kill = true ∧
    p.asked = false ∧ p.pieces[p.cpiece]? = none ∧ ({ p with pieces := [piece] } : Plan).pieces[p.cpiece]? = some piece := by
  subst hp; exact ⟨rfl, by decide +kernel, rfl, rfl, rfl, rfl, rfl, rfl⟩

/-! #### Resets, tests, management and sessions -/

/-- TestEvents: cluster 39 under test, its run ended or timed out; one fenced, without gangs. -/
def underTest (c : Cluster) : State := setCluster mapped 39 c
theorem witness_tests : (getCluster (underTest { state := .testing, run := some 0 }) 39).run = some 0 ∧
    marchValid (underTest { state := .testing, run := some 0, runs := 3 }) 39 = false ∧
    (getCluster (underTest { state := .testing, run := none }) 39).run = none ∧
    (getCluster (underTest { state := .testing, run := some 1 }) 39).run = some (0 + 1) ∧
    (getCluster (underTest { state := .online, fenced := true }) 39).fenced = true ∧
    (∀ g ∈ (underTest {}).gangs, g.cluster ≠ (39 : Fin 40).val) := by decide +kernel
theorem witness_resets : State.reset.powered = true ∧ mapped.powered = true ∧ mapped.stage ≠ .root ∧ (⟨[], [], false⟩ : Bist).spares = [] ∧
    (⟨[], [], false⟩ : Bist).up = false := by decide +kernel

/-- A session of a management peer, one of a tenant's, and one not yet established. -/
def managed : State := { mapped with ochre := { sessions := [⟨1, true, true, none, 60, [], 0, []⟩, ⟨2, true, false, some 1, 1, [], 0, []⟩,
  ⟨3, false, false, none, 1, [], 0, []⟩] } }
theorem witness_managing : Managing managed 1 := ⟨_, rfl, rfl, rfl⟩
theorem witness_sessions : findSession managed (2 : BitVec 32).toNat = some ⟨2, true, false, some 1, 1, [], 0, []⟩ ∧
    findSession managed (3 : BitVec 32).toNat = some ⟨3, false, false, none, 1, [], 0, []⟩ ∧
    findSession managed (4 : BitVec 32).toNat = none ∧ managed.ochre.sessions.length < 16 ∧
    16 ≤ ({ managed.ochre with sessions := List.replicate 16 ⟨1, true, true, none, 60, [], 0, []⟩ } : Ochre).sessions.length ∧
    (∀ y ∈ managed.ochre.sessions, y.id ≠ (2 : BitVec 32).toNat → y.established = true → y.tenant ≠ some 1) := by decide +kernel
theorem witness_management : fwCheck managed.ochre.own true (inactive managed.ochre.own) = false ∧
    (1200 ≤ (1200 : BitVec 16).toNat ∧ (2400 : BitVec 16).toNat ≤ 2400) ∧ (0x40000000 : Word).toNat % 2 ^ 30 = 0 ∧
    (0x7FC0000000 : Word).toNat + (0x40000000 : Word).toNat ≤ 2 ^ 39 ∧
    (∀ d ∈ heldDescs managed, descConf managed d = true → descMaps managed d (0x40000000 : Word).toNat (0x40000000 : Word).toNat = false) := by
  decide +kernel
/-- EnvironmentEvents: the 77 readings cool, at their throttle level, and at their shutdown level. -/
theorem witness_sensors : (List.replicate 77 (70 : BitVec 16)).length = 77 ∧
    (List.replicate 40 (95 : BitVec 16) ++ List.replicate 37 84).length = 77 ∧ (105 : BitVec 16).toNat = 105 ∧
    (999999999 : BitVec 32).toNat < 1000000000 := by decide

/-! #### Traps, translation and invariants -/

/-- TrapTaken and CallTaken: a gang whose service vector is enabled and one whose is not, a member in user code and one in
service code; TaskKilled, BoundaryOrder. -/
theorem witness_traps : findGang mapped gang.id = some gang ∧ (Code.touchFault, 0x0103, true) ∈ codeTable ∧
    (Code.race, 0x0107, false) ∈ codeTable ∧ (getCtx gang 0).mode < 2 ∧ 2 ≤ (getCtx { gang with members := [{ member with mode := 3 }] } 0).mode ∧
    (serviceVector mapped gang 0).getLsbD 63 = false ∧
    (serviceVector (setCore mapped 0 0 { ksvec := (Vector.replicate 4 none).set 0 (some 0x8000000000000040) }) gang 0).getLsbD 63 = true := by
  decide +kernel
theorem witness_boundary : gang.killed = none ∧ handlerOf gang = none ∧ gang.kill = none ∧ gang.calls = [] ∧ gang.preempt = none ∧
    gang.yld = false ∧ gang.walks = [] ∧ walksWait mapped gang.id = false ∧ holdsWrites gang = false ∧ pendingInt gang = none ∧
    (gang.conf && mapped.confFence.contains gang.tenant) = false ∧
    (true && ({ mapped with confFence := [gang.tenant] } : State).confFence.contains gang.tenant) = true := by decide +kernel

/-- TranslationResults: a range that matches, the last, its ends; tables whose leaf is at each level. -/
theorem witness_range : rangeMatches mapped 0 0 0 ∧ rangeMatches mapped 0 0x0FFFFFFF 0 ∧ ¬rangeMatches mapped 0 0x10000000 0 ∧
    ¬rangeMatches mapped 0 0 15 := by simp only [rangeMatches]; decide +kernel
/-- Table reads that fail: no target, protected memory, a lost word; and one that does not. -/
theorem witness_entry_reads : EntryRead mapped 0 0x1000 ∧ hasTarget mapped 0x8000000000 = false ∧
    (hasTarget { mapped with ochre := { prot := [(0, 0x40000000)] } } 0x1000 = true ∧
      allowed { mapped with ochre := { prot := [(0, 0x40000000)] } } 0 0x1000 = false) ∧
    badRange { mapped with bad := [64] } [(0x1000, 8)] = true := by simp only [EntryRead]; decide +kernel
theorem witness_entries : entryIs 0 false false false ∧ entryIs 0x40000017 true true false ∧ entryIs 0x40000007 true false false ∧
    entryIs 0x40010037 true true true := by simp only [entryIs]; decide

/-- NoSlotWritesARegister, ScalarSlotFrame, VectorSlotFrame: slots of those families, in an issuing context. -/
theorem witness_frames : (encode (.sxDiv 1 2 3 .n8 7)).isSome = true ∧ isScalarArith (.sxDiv 1 2 3 .n8 7) = true ∧
    unitOf (.vxAdd 1 2 3 .i8 7 .rne) = .v ∧ 0 < gang.members.length := by decide +kernel
/-- StepsKeepMemoryCanonical: the memory right after reset, and one that lists its first and last bytes. -/
theorem witness_memory : State.reset.mem.wf = true ∧ Memory.wf [(0, 1), (0x7FFFFFFFFF, 0xFF)] = true := by decide +kernel

/-! ### SHA-512 and AES-256-GCM (R3): the published test vectors of FIPS 180-4 and of the GCM specification (test case 16) -/

set_option maxRecDepth 100000 in
theorem test_sha512_abc :
    sha512 [97, 98, 99] = [221, 175, 53, 161, 147, 97, 122, 186, 204, 65, 115, 73, 174, 32, 65, 49, 18, 230, 250,
    78, 137, 169, 126, 162, 10, 158, 238, 230, 75, 85, 211, 154, 33, 146, 153, 42, 39, 79, 193, 168, 54, 186, 60,
    35, 163, 254, 235, 189, 69, 77, 68, 35, 100, 60, 232, 14, 42, 154, 201, 79, 165, 76, 164, 159] := by decide +kernel
set_option maxRecDepth 100000 in
theorem test_gcm_case_16 :
    gcmOpen [254, 255, 233, 146, 134, 101, 115, 28, 109, 106, 143, 148, 103, 48, 131, 8, 254, 255, 233, 146, 134,
    101, 115, 28, 109, 106, 143, 148, 103, 48, 131, 8] [202, 254, 186, 190, 250, 206, 219, 173, 222, 202, 248, 136]
    [254, 237, 250, 206, 222, 173, 190, 239, 254, 237, 250, 206, 222, 173, 190, 239, 171, 173, 218, 210] [82, 45,
    193, 240, 153, 86, 125, 7, 244, 127, 55, 163, 42, 132, 66, 125, 100, 58, 140, 220, 191, 229, 192, 201, 117, 152,
    162, 189, 37, 85, 209, 170, 140, 176, 142, 72, 89, 13, 187, 61, 167, 176, 139, 16, 86, 130, 136, 56, 197, 246,
    30, 99, 147, 186, 122, 10, 188, 201, 246, 98] [118, 252, 110, 206, 15, 78, 23, 104, 205, 223, 136, 83, 187, 45,
    85, 27] = some [217, 49, 50, 37, 248, 132, 6, 229, 165, 89, 9, 197, 175, 245, 38, 154, 134, 167, 169, 83, 21,
    52, 247, 218, 46, 76, 48, 61, 138, 49, 138, 114, 28, 60, 12, 149, 149, 104, 9, 83, 47, 207, 14, 36, 73, 166,
    181, 37, 177, 106, 237, 245, 170, 13, 230, 87, 186, 99, 123, 57] := by decide

/-! #### The codes of the small formats, results, queues -/

theorem witness_tapered : 31 < 32 ∧ 127 < 2 ^ 7 ∧ Claim.below 1 (-40) (units 7 1) ∧ equals (units 7 1) (-13) (units 7 1) ∧
    ¬Claim.below 1 20 (2 * units 7 127) ∧ ¬equals 1 20 (2 * units 7 127) ∧ ¬Claim.below (2 * units 5 30) (-13) (2 * units 5 30) ∧
    Claim.below (2 * units 5 30) (-13) (2 * units 5 31) := by simp only [Claim.below, equals]; decide +kernel
theorem witness_approximations : 0xFFFFFFFF < 2 ^ 32 ∧ 0x7F800000 < 0xFFFFFFFF % 2 ^ 31 ∧ 0x80000000 < 0xFF7FFFFF ∧
    0x43000000 ≤ 0x7F7FFFFF ∧ 0xC3160000 ≤ 0xFF7FFFFF ∧ (-149 : Int) ≤ 127 := by decide

/-- ResultsLandWhenDue: two results of v31, of which the second writes one bit; a block that is there and one that is not. -/
def landing : Ctx := { member with results := [⟨7, .v, 31, BitVec.allOnes 2048, 3, none, []⟩, ⟨7, .v, 31, 1, 0, none, []⟩] }
theorem witness_landing_files : 31 < fileSize .v ∧ 7 < fileSize .e ∧ blockHere landing .v 31 = true ∧
    blockHere { landing with presV := Vector.replicate 8 false } .v 31 = false ∧
    (BitVec.allOnes 2048).setWidth 8 = BitVec.allOnes 8 ∧ landing.results.length = 2 := by decide +kernel
/-- QueuesHoldSixteenEntries: a queue of 17 entries, and six of none. -/
theorem witness_queues : overfull { member with saq := List.replicate 17 ⟨false, 8, 0, 0⟩ } ∧
    overfull { member with laq := [⟨true, 9, 0, false⟩], vldq := List.replicate 16 0 } ∧ ¬overfull member ∧
    ({ member with laq := [⟨true, 9, 0, false⟩] } : Ctx).laq = ⟨true, 9, 0, false⟩ :: [] := by
  simp only [overfull]; decide +kernel

/-! #### TaskEffects -/

/-- What it answered. -/
def found {ε α : Type} : Except ε α → Option α
  | .ok a => some a
  | .error _ => none

/-- Image 5, a task of one block of scratchpad. -/
def blockImage : Image :=
  { id := 5, client := 1, task := { spadBase := 0x2000, spadSize := 4096, entries := [64] }, segs := [], spad := List.replicate 4096 7 }
/-- A machine that can dispatch it. -/
def dispatching : State := { launching false with images := [blockImage], ready := [⟨4095, aLaunch, false⟩] }
theorem witness_fresh : aLaunch.resume = false ∧ aLaunch.test = false ∧ findImage dispatching aLaunch.image = some blockImage ∧
    descOk dispatching aLaunch.xdesc = true ∧ descTenant dispatching aLaunch.xdesc ≠ 0 ∧ blockImage.task.spadSize % 4096 = 0 ∧
    blockImage.spad.length = blockImage.task.spadSize ∧ spadOwner dispatching 0 (0x2000 / 4096 + 0) = none ∧
    (∀ core ∈ (⟨0, 0, [7]⟩ : Place).cores, ∀ b < 9, slotOwner dispatching 0 core 0 b = none) :=
  ⟨rfl, rfl, rfl, by decide +kernel, by decide +kernel, rfl, List.length_replicate, rfl, by decide +kernel⟩
theorem witness_resumed : aResume.resume = true ∧ aResume.test = false ∧ descOk resuming aResume.xdesc = true ∧
    descTenant resuming aResume.xdesc ≠ 0 ∧ canResume resuming aResume.image = true ∧
    canResume dispatching aResume.image = false ∧
    (savedMembers resuming aResume.image [] ((List.range 1).zip [7])).isSome = true ∧
    (savedMember resuming aResume.image 0 7 ⟨[], [], []⟩).isSome = true := by decide +kernel
theorem witness_completed : found (wordRange dispatching 0x100000 0x1000 64) = some [(0x1000, 64)] ∧
    found (wordRange dispatching 0x100000 0x1FF8 8) = some [(0x1FF8, 8)] ∧ ({ aLaunch with crec := 0x1000 } : Launch).crec ≠ 0 ∧
    aLaunch.cw = 0 := by decide +kernel

/-- A pool with room, one without, and a gang whose vector block 7 is present and has been used. -/
def pool (n : Nat) : SavePool := ⟨0x100000, 0x300000, n, 0x400000, false⟩
/-- That gang. -/
def usedGang : Gang := { gang with members := [{ member with touchV := (Vector.replicate 8 false).set 7 true }] }
/-- Its machine. -/
def savingState : State := { dispatching with gangs := [usedGang] }

set_option maxRecDepth 1000000 in
theorem witness_saved : (saveGang savingState usedGang (pool 0x100000) 4).2 = true := by decide +kernel
set_option maxRecDepth 1000000 in
theorem witness_saved_full : (saveGang savingState usedGang (pool 0) 4).2 = false := by decide +kernel
theorem witness_saved_blocks : findGang savingState usedGang.id = some usedGang ∧ 0 < usedGang.members.length ∧
    vget true (getCtx usedGang 0).presV 7 = true ∧ vget false (getCtx usedGang 0).touchV 7 = true ∧
    3 ∉ usedGang.absent := by decide +kernel

/-- An image at 0x200000 that owns vector block 7 of member 0, whose vector group lies at address 0 of its descriptor. -/
def owning (written : Byte) : State :=
  { savingState with
    mem := tenantMem ++ [(0x200008, 1), (0x20001A, 0x10), (0x200071, written), (0x200133, 1)]
    ownedRegs := [⟨0, 0, 0, 0x200000, 0, 8, zeros 1024⟩] }
theorem witness_owned : findOwnedRegs (owning 0) 0x200000 0 (1 + 7) = some ⟨0, 0, 0, 0x200000, 0, 8, zeros 1024⟩ ∧
    (residentData (owning 0) 0x200000 3 0 7).isSome = true ∧ residentData savingState 0x200000 3 0 7 = none ∧
    blockBusy (owning 0) 0x200000 3 0 7 = false ∧ ticketFor (owning 0) .saveArea 0x200000 3 0 7 = false ∧
    mapBit (owning 0) 0x200000 true 3 0 7 = false ∧ mapBit (owning 1) 0x200000 true 3 0 7 = true := by decide +kernel
theorem witness_block_write : hdrNat (owning 0) 0x200000 (256 + 16 * (3 + 4 * 0) + 3) 1 % 2 = 1 ∧
    found (xlatRange (owning 0) (hdrNat (owning 0) 0x200000 24 8) (hdrNat (owning 0) 0x200000 (256 + 16 * (3 + 4 * 0) + 8) 8 + 1024 * 7) 1024 true) =
      some [(7168, 1024)] ∧
    answered (saveSpace (owning 0) (hdrNat (owning 0) 0x200000 24 8) 7168 1024 false) = true ∧
    answered (writeBlock (owning 0) 0x200000 3 0 7 (zeros 1024) 0) = true ∧
    answered (writeBlock { owning 0 with mem := [] } 0x200000 3 0 7 (zeros 1024) 0) = false := by decide +kernel
theorem witness_tickets : (⟨7, .pullArea, 0x200000, 0, 3, 7, 1⟩ : Ticket).code = .pullArea ∧
    (findGang savingState (⟨7, .pullArea, 0x200000, 0, 3, 7, 1⟩ : Ticket).gang).isSome = true ∧
    ∀ x ∈ savingState.tickets, x.ticket = 7 ∨ x.gang ≠ 1 := by decide +kernel

/-! #### PlanAndRequestEffects -/

/-- A plan area at 0x1000 with a STATE, and a start that names it. -/
def planArea (state : Byte) : State :=
  { dispatching with mem := [(75, 0x10), (88, 7), (0x1000, 0x52), (0x1001, 0x53), (0x1002, 0x50), (0x1003, 0x31), (0x1004, 1), (0x1006, state)] }
/-- The plan of a start by member 0 of gang 1. -/
def startedPlan : Plan :=
  { area := 0x1000, desc := 0, starter := some (1, 0), queue := none, running := true, pieces := [], cpiece := 0, crow := 0,
    coff := 0, steps := 0, cw := 0, kill := false, identity := 9, interval := 0, tenant := 1 }
theorem witness_plan_start : (findGang (planArea 0) 1).isSome = true ∧ found (wordRange (planArea 0) 0 0x1000 256) = some [(0x1000, 256)] ∧
    answered (wordRange (planArea 0) 0 0x0FFFFF80 256) = false ∧ answered (cleanRead (planArea 0) 0 0x1000 256) = true ∧
    (planArea 0).plans.length < 256 ∧ planHeaderOk (memReads (planArea 3).mem 0x1000 256) = true ∧
    planHeaderOk (memReads (planArea 5).mem 0x1000 256) = false ∧ fieldLe (memReads (planArea 4).mem 0x1000 256) 6 1 = 4 ∧
    found (wordRange (planArea 5) 0 (0x1000 + 6) 2) = some [(0x1006, 2)] ∧ (∀ x ∈ (planArea 0).plans, x.identity ≠ startedPlan.identity) ∧
    getQueue (queued { aQueue with plan := some 0x1000 } (planArea 0)) 4095 = some { aQueue with plan := some 0x1000 } := by
  decide +kernel
theorem witness_plan_step : ({ startedPlan with pieces := [piece] } : Plan).pieces[0]? = some piece ∧
    stepLen piece 0 0 = 64 ∧ found (xlatRange (planArea 1) 0 0x2000 64 true) = some [(0x2000, 64)] ∧
    answered (cleanRead (planArea 1) 0 0x1000 64) = true ∧ answered (xlatRange (planArea 1) 0 0x10000000 64 true) = false ∧
    answered (planWrite (planArea 1) startedPlan 0x2000 (zeros 64)) = true ∧
    (0 + 8 < rowLen piece ∧ rowLen piece ≤ 56 + 8 ∧ piece.nrow ≤ 0 + 1) := by decide +kernel

/-- A machine that serves requests of tenant 1, and what device 2 asks of it. -/
def serving : State := { dispatching with devId := 1, ochre := { fabric := [(1, 0x100000)] } }
/-- The request. -/
def asked (k : ReqKind) : RemOp := { transitOp (request k) 1 with tenant := 1, words := [7], nrep := 1, src := some 2 }
theorem witness_served : (2 ≠ serving.devId ∧ (asked .store).src = some 2) ∧ remembered serving 2 5 = none ∧
    (remembered { serving with seqMem := [⟨2, 5, true, [], asked .store⟩] } 2 5).isSome = true ∧
    tooLate serving 2 (asked .store) = false ∧ serving.stage = .service ∧ fabricDesc serving 1 = some 0x100000 ∧
    fabricDesc serving 2 = none ∧ remoteOk (asked .store).addr.toNat (8 / 8) = true ∧ (asked .store).addr.toNat.testBit 47 = false ∧
    found (xlatRange serving 0x100000 ((asked .store).addr.toNat % 2 ^ 47) 8 true) = some [(0x100, 8)] ∧
    found (xlatRange serving 0x100000 ((asked .load).addr.toNat % 2 ^ 47) 8 false) = some [(0x100, 8)] := by decide +kernel

/-! #### Other hypotheses -/

/-- ActingRegisterWrites and ControlRegisterValues: a lake to act on, a size that is none, data at the port and none. -/
theorem witness_acting : (vget {} (workCtx (lakePerf mapped aLake)).lakes (field (0x1F : Word) 3 0)).bound = true ∧
    field (0x1F : Word) 7 4 = 1 ∧ invalBytes (field (0x500 : Word) 11 8) = none ∧ invalBytes (field (0xF00 : Word) 11 8) = some (2 ^ 64) ∧
    (workCtx (inMode 0)).ldq = 9 :: [] ∧ (oldCtx (inMode 0)).mode = 0 ∧ (workCtx (start mapped (issue gang))).ldq = [] := by
  decide +kernel
/-- ResetOutcome: an image that verifies as it came from the factory, and one that does not. -/
theorem witness_firmware : slotVerifies {} ⟨[], true, true⟩ = true ∧ slotVerifies {} ⟨[], true, false⟩ = false ∧
    (⟨[], [], true⟩ : Bist).up = true ∧ ({ trial := true } : Fw).trial = true := by decide +kernel
/-- PacketsAreForwarded, FlitsReturnToTheirSender and RemoteEvents: a packet in a link's buffer, and a link whose new far end it
did not come from. -/
theorem witness_buffered : (3 ≠ (linked {}).devId) ∧ Transit.inPort (.req (request .load)) = 47 ∧
    decide ((linkOf (linked { st := .training, heldPeer := some (2, 0) }) 47).heldPeer = some (3, 0)) = false := by decide +kernel

end Sys2Proof.Tests
end

section
/-! The issue of slots: branches, the sequencer, the px slots and the system slots (O13, O14, O40), and the landing of
results (O21). First what a slot performs, and what the reads of registers leave as it was; then each statement's own part. -/

open Sys2Proof Sys2Proof.Machine Sys2Proof.Claim

namespace Sys2Proof.Proofs

/-! ### What a slot performs -/

/-- An instruction that is a slot performing `f` performs every `g` that agrees with `f`. -/
theorem performs_of_slotOp {i : Instr} {f g : Perf → Perf} (hi : ∀ s, exec i s = slotOp s f) (h : ∀ p, f p = g p) :
    Performs i g := by
  intro s r hs
  rw [hi s, slotOp_next f hs, h]
  rfl

/-- The same of a px slot. -/
theorem performsPx_of_prefixOp {i : Instr} {f g : Perf → Perf} (hi : ∀ s, exec i s = prefixOp s f) (h : ∀ p, f p = g p) :
    PerformsPx i g := by
  intro s r hs
  rw [hi s, prefixOp_next f hs, h]
  rfl

/-- The model's unpredicated slots are the statements'. -/
theorem always_eq_unpredicated {f g : Perf → Perf} (h : ∀ p, f p = g p) (p : Perf) : always f p = unpredicated g p := by
  simp only [always, unpredicated, h]

/-- The model's gate and the statements' say the same: an absent block comes first, then bit 0 of the predicate. -/
theorem gated_eq_predicated (q : QReg) {f g : Perf → Perf} (h : ∀ p, f p = g p) (p : Perf) :
    gated q f p = predicated q g p := by
  have haway : predicateAway p q.val = true ↔
      (q.val ≠ 0 ∧ (oldCtx p).mode < 2 ∧ (workCtx p).presS = false ∧ (workCtx p).touchS = true) := by
    simp [predicateAway, and_assoc]
  cases hc : p.is.cond with
  | false => simp [gated_off hc, predicated, hc]
  | true =>
    cases ha : predicateAway p q.val with
    | true => rw [gated_away hc ha, predicated, if_pos hc, if_pos (haway.mp ha)]
    | false =>
      have hna := mt haway.mpr (by simp [ha])
      cases hq : (readQ p q.val).1.getLsbD 0 with
      | true => rw [gated_true hc ha hq, predicated, if_pos hc, if_neg hna, if_pos hq, h]
      | false => rw [gated_false hc ha hq, predicated, if_pos hc, if_neg hna,
        if_neg (by simp only [hq, Bool.false_eq_true, not_false_iff])]

/-! ### What a read leaves as it was -/

/-- Two slots stand in the same bundle of the same member: they read the same registers, and their bundle begins at the same
address. -/
structure SameBundle (p p' : Perf) : Prop where
  old : p'.is.old = p.is.old
  m : p'.is.m = p.is.m
  fa : p'.is.fa = p.is.fa

theorem SameBundle.refl (p : Perf) : SameBundle p p := ⟨rfl, rfl, rfl⟩

theorem SameBundle.trans {p p' p'' : Perf} (h : SameBundle p p') (h' : SameBundle p' p'') : SameBundle p p'' :=
  ⟨h'.old.trans h.old, h'.m.trans h.m, h'.fa.trans h.fa⟩

theorem SameBundle.oldCtx {p p' : Perf} (h : SameBundle p p') : oldCtx p' = oldCtx p := by
  simp only [Machine.oldCtx, h.old, h.m]

theorem SameBundle.oldLevel {p p' : Perf} (h : SameBundle p p') (l : Nat) : oldLevel p' l = oldLevel p l := by
  simp only [Machine.oldLevel, h.oldCtx]

theorem SameBundle.target {p p' : Perf} (h : SameBundle p p') (k : BitVec 16) : target k p' = target k p := by
  simp only [Claim.target, h.fa]

theorem raise_sameBundle (p : Perf) (c : Code) (v : Word) : SameBundle p (raise p c v) := ⟨rfl, rfl, rfl⟩

theorem modWork_sameBundle (p : Perf) (f : Ctx → Ctx) : SameBundle p (modWork p f) := ⟨rfl, rfl, rfl⟩

theorem modLevel_sameBundle (p : Perf) (l : Nat) (f : LevelSt → LevelSt) : SameBundle p (modLevel p l f) := ⟨rfl, rfl, rfl⟩

/-- Touching a block marks it in the working copy, or freezes the bundle and asks for the block. -/
theorem touchBlock_sameBundle (p : Perf) (b : Nat) : SameBundle p (touchBlock p b) := by
  dsimp only [touchBlock]
  generalize (if b = 0 then _ else _) = here
  cases here <;> exact ⟨rfl, rfl, rfl⟩

theorem readReg_sameBundle (p : Perf) (f : RFile) (n : Nat) : SameBundle p (readReg p f n) := by
  unfold readReg
  split
  · exact .refl p
  · split
    · exact raise_sameBundle ..
    · exact .refl p

theorem popLdq_sameBundle (p : Perf) : SameBundle p (popLdq p).2 := by
  unfold popLdq
  split
  · exact raise_sameBundle ..
  · exact modWork_sameBundle ..

theorem readS_sameBundle (p : Perf) (n : Nat) : SameBundle p (readS p n).2 := by
  unfold readS
  split
  · exact .refl p
  · exact popLdq_sameBundle p
  · exact (touchBlock_sameBundle p 0).trans (readReg_sameBundle ..)
  · exact (touchBlock_sameBundle p 0).trans (readReg_sameBundle ..)
  · exact readReg_sameBundle ..

theorem readQ_sameBundle (p : Perf) (n : Nat) : SameBundle p (readQ p n).2 := by
  unfold readQ
  split
  · exact .refl p
  · split
    · exact readReg_sameBundle ..
    · exact (touchBlock_sameBundle p 0).trans (readReg_sameBundle ..)

/-! ### Numbers and fields -/

theorem toSigned_eq_toInt {w : Nat} (hw : 0 < w) (n : Nat) : toSigned w n = (BitVec.ofNat w n).toInt := by
  have hp : 2 ^ w = 2 * 2 ^ (w - 1) := by rw [← Nat.pow_succ']; congr 1; omega
  rw [toSigned, BitVec.toInt_eq_toNat_cond, BitVec.toNat_ofNat]
  rcases Nat.lt_or_ge (n % 2 ^ w) (2 ^ (w - 1)) with hlt | hge
  · rw [if_neg (by omega), if_pos (by omega)]
  · rw [if_pos hge, if_neg (by omega)]
    push_cast
    rfl

/-- Bits `hi` down to `l`, read as a number and as `n` bits of the word (R73). -/
theorem bitsOf_eq_extractLsb' {w hi l n : Nat} (x : BitVec w) (h : hi + 1 = l + n) :
    bitsOf x.toNat hi l = (x.extractLsb' l n).toNat := by
  rw [bitsOf, h, Nat.add_sub_cancel_left, BitVec.extractLsb'_toNat, Nat.shiftRight_eq_div_pow]

theorem bitsOf_ne_zero_iff {w hi l n : Nat} (x : BitVec w) (h : hi + 1 = l + n) :
    bitsOf x.toNat hi l ≠ 0 ↔ x.extractLsb' l n ≠ 0 := by
  rw [bitsOf_eq_extractLsb' x h, ne_eq, ne_eq, BitVec.toNat_eq]
  rfl

theorem bitsOf_low (x : Word) : bitsOf x.toNat 31 0 = (x.setWidth 32).toNat := by
  rw [bitsOf, BitVec.toNat_setWidth, Nat.pow_zero, Nat.div_one]

/-- A signed number of `w` bits, extended to a word. -/
theorem wordOfInt_toSigned {w : Nat} (hw : 0 < w) (x : Word) :
    wordOfInt (toSigned w x.toNat) = (x.setWidth w).signExtend 64 := by
  rw [wordOfInt, toSigned_eq_toInt hw, BitVec.ofNat_toNat, BitVec.signExtend]

theorem msb_eq_slt_zero (x : Word) : x.msb = x.slt 0 := BitVec.slt_zero_eq_msb.symm

/-! ### Branches -/

/-- CheckTarget of R119, read as the condition under which the target is taken. -/
theorem branchTo_eq_jump (p : Perf) (t : Int) : branchTo p t = jump t p := by
  have hlim : ((if 2 ≤ (oldCtx p).mode then segBytes else segBytes * p.is.old.task.nseg : Nat) : Int) =
      16384 * (if 2 ≤ (oldCtx p).mode then 1 else p.is.old.task.nseg : Nat) := by
    unfold segBytes
    split
    · rfl
    · exact Int.natCast_mul ..
  simp only [branchTo, jump, hlim]
  by_cases h : t % 4 = 0 ∧ 0 ≤ t ∧ t < 16384 * (if 2 ≤ (oldCtx p).mode then 1 else p.is.old.task.nseg : Nat)
  · rw [if_pos h, if_neg (by omega)]
  · rw [if_neg h, if_pos (by omega)]
    rfl

theorem offsetTarget_eq_target (p : Perf) (k : BitVec 16) : offsetTarget p k = target k p := by
  simp only [offsetTarget, target, toSigned_eq_toInt (by decide : 0 < 16), BitVec.ofNat_toNat, BitVec.setWidth_eq]

/-- A branch to an offset goes to the claims' target, also where a register of the bundle was read first. -/
theorem branchTo_offset_eq_jump {p p' : Perf} (h : SameBundle p p') (k : BitVec 16) :
    branchTo p' (offsetTarget p' k) = jump (target k p) p' := by
  rw [branchTo_eq_jump, offsetTarget_eq_target, h.target]

/-- The br slots that leave the sequence (R119, R129). -/
theorem performs_of_branchSlot {i : Instr} {f g : Perf → Perf} (hi : ∀ s, exec i s = branchSlot s f)
    (h : ∀ p, f p = g p) : Performs i (branching g) := by
  refine performs_of_slotOp hi fun p => ?_
  simp only [branching, always_eq_unpredicated h, Bool.and_eq_true, Bool.not_eq_true']

theorem branchIf_eq (cond : Word → Bool) (taken : Word → Prop) [DecidablePred taken] (hc : ∀ x, cond x = true ↔ taken x)
    (d : SReg) (k : BitVec 16) (p : Perf) : branchIf cond d k p =
      if taken (readS p d.val).1 then jump (target k p) (readS p d.val).2 else (readS p d.val).2 := by
  simp only [branchIf, hc, branchTo_offset_eq_jump (readS_sameBundle p d.val)]

/-- The branches that a scalar register decides (R120). -/
theorem performs_branchOn {i : Instr} {cond : Word → Bool} {taken : Word → Prop} [DecidablePred taken] {d : SReg}
    {k : BitVec 16} (hi : ∀ s, exec i s = branchSlot s (branchIf cond d k)) (hc : ∀ x, cond x = true ↔ taken x) :
    Performs i (branchOn taken d k) :=
  performs_of_branchSlot hi (branchIf_eq cond taken hc d k)

theorem uniformQ_iff (m : Word) : uniformQ m = true ↔ m = 0 ∨ m = BitVec.allOnes 64 := by
  rw [uniformQ, Bool.or_eq_true, beq_iff_eq, beq_iff_eq]

/-- A predicate that is all zeros or all ones decides; any other raises NONUNIFORM_BRANCH (R121). -/
theorem branchQ_eq (want : Bool) (d : QReg) (k : BitVec 16) (p : Perf) : branchQ want d k p =
    if (readQ p d.val).1 = 0 then (if want then (readQ p d.val).2 else jump (target k p) (readQ p d.val).2)
    else if (readQ p d.val).1 = BitVec.allOnes 64 then
      (if want then jump (target k p) (readQ p d.val).2 else (readQ p d.val).2)
    else raise (readQ p d.val).2 .nonuniformBranch (readQ p d.val).1 := by
  simp only [branchQ, Bool.not_eq_true', ← Bool.not_eq_true, uniformQ_iff, branchTo_offset_eq_jump (readQ_sameBundle p d.val)]
  by_cases h0 : (readQ p d.val).1 = 0
  · cases want <;> simp [h0]
  · by_cases h1 : (readQ p d.val).1 = BitVec.allOnes 64
    · cases want <;> simp [h1]
    · rw [if_pos (not_or.mpr ⟨h0, h1⟩), if_neg h0, if_neg h1]

theorem performs_branchLanes {i : Instr} {want : Bool} {d : QReg} {k : BitVec 16}
    (hi : ∀ s, exec i s = branchSlot s (branchQ want d k)) : Performs i (branchLanes want d k) :=
  performs_of_branchSlot hi (branchQ_eq want d k)

/-- The branches to the address in a register (R122). -/
theorem performs_branchReg {i : Instr} {a : SReg} (hi : ∀ s, exec i s = branchSlot s (branchReg a)) :
    Performs i (branching fun p => jump (readS p a.val).1.toNat (readS p a.val).2) :=
  performs_of_branchSlot hi fun _ => branchTo_eq_jump ..

/-- Settles O13: each slot is one of the shapes above. -/
theorem branchResults : Obligations.BranchResults := by
  unfold Obligations.BranchResults
  intro d a dq k
  refine ⟨?j, ?call, ?bz, ?bnz, ?blt, ?bge, ?bq, ?bnq, ?jr, ?ret, ?bud⟩
  case j => exact performs_of_branchSlot (fun _ => rfl) fun p => branchTo_offset_eq_jump (.refl p) k
  case call =>
    refine performs_of_branchSlot (fun _ => rfl) fun p => ?_
    rw [branchTo_offset_eq_jump (.refl p)]
  case bz => exact performs_branchOn (fun _ => rfl) fun x => by simp
  case bnz => exact performs_branchOn (fun _ => rfl) fun x => by simp
  case blt => exact performs_branchOn (fun _ => rfl) fun x => by rw [msb_eq_slt_zero]
  case bge => exact performs_branchOn (fun _ => rfl) fun x => by rw [msb_eq_slt_zero, Bool.not_eq_true']
  case bq => exact performs_branchLanes fun _ => rfl
  case bnq => exact performs_branchLanes fun _ => rfl
  case jr => exact performs_branchReg fun _ => rfl
  case ret => exact performs_branchReg fun _ => rfl
  case bud => exact performs_of_slotOp (fun _ => rfl) (always_eq_unpredicated fun _ => rfl)

/-! ### The sequencer and the px slots -/

/-- Whether a list holds an entry of a key. -/
theorem any_fst_eq_contains {β : Type} (es : List (Nat × β)) (k : Nat) :
    (es.any fun e => decide (e.1 = k)) = (es.map fun e => e.1).contains k := by
  rw [Bool.eq_iff_iff]
  simp

/-- The stride entry of a register is replaced; a new one is added while there are fewer than four (R125). -/
theorem addStride_eq (ss : List (Nat × Word)) (r : Nat) (st : Word) : addStride ss r st =
    if (ss.map Prod.fst).contains r = true then some (ss.map fun e => if e.1 = r then (r, st) else e)
    else if 4 ≤ ss.length then none else some (ss ++ [(r, st)]) := by
  rw [addStride, any_fst_eq_contains]

/-- The sequencer's slots. lvl reads its level in the gang before the bundle, as do its checks, so the reads and the new
count before them change nothing that they ask. -/
theorem sequencerResultsPart : Claim.SequencerResultsPart := by
  intro a b l n
  refine ⟨?lvl, ?loop, ?lend⟩
  case lvl =>
    refine performs_of_slotOp (fun _ => rfl) (always_eq_unpredicated fun p => ?_)
    have hd : SameBundle p (if b.val = 0 then ((0 : Word), (readS p a.val).2) else readS (readS p a.val).2 b.val).2 := by
      split
      · exact readS_sameBundle ..
      · exact (readS_sameBundle ..).trans (readS_sameBundle ..)
    dsimp only
    generalize (if b.val = 0 then ((0 : Word), (readS p a.val).2) else readS (readS p a.val).2 b.val) = d at hd ⊢
    have hlv := fun f => (hd.trans (modLevel_sameBundle _ l.val f)).oldLevel l.val
    simp only [hd.oldLevel, hlv, addStride_eq, Bool.or_eq_true, decide_eq_true_eq, bitsOf_low,
      bitsOf_ne_zero_iff (n := 32) _ (rfl : 63 + 1 = 32 + 32), bitsOf_ne_zero_iff (n := 12) _ (rfl : 59 + 1 = 48 + 12),
      bitsOf_eq_extractLsb' (n := 4) _ (rfl : 63 + 1 = 60 + 4), wordOfInt_toSigned (by decide : 0 < 48)]
    refine ite_congr rfl (fun _ => rfl) fun _ => ite_congr rfl (fun _ => rfl) fun _ => ite_congr rfl (fun _ => rfl) fun _ => ?_
    by_cases hr : ((oldLevel p l.val).strides.map Prod.fst).contains (d.1.extractLsb' 60 4).toNat = true
    · rw [if_pos hr, if_pos hr]
    · rw [if_neg hr, if_neg hr]
      by_cases h4 : 4 ≤ (oldLevel p l.val).strides.length
      · rw [if_pos h4, if_pos h4]
      · rw [if_neg h4, if_neg h4]
  case loop =>
    refine performs_of_slotOp (fun _ => rfl) (always_eq_unpredicated fun p => ?_)
    simp only [Bool.or_eq_true, decide_eq_true_eq, List.any_eq_true]
    split
    next hab => exact (if_pos (hab.imp_right .inl)).symm
    next hab =>
      split
      next hc => exact (if_pos (.inr (.inr hc))).symm
      next hc => exact (if_neg fun h => (or_assoc.mpr h).elim hab hc).symm
  case lend =>
    refine performs_of_slotOp (fun _ => rfl) (always_eq_unpredicated fun p => ?_)
    simp only [(readS_sameBundle p a.val).oldLevel, Bool.not_eq_true']
    exact ite_congr rfl (fun _ => rfl) fun _ => ite_not ..

/-- A condition on an iteration joins those already set; the level must be active (R130). -/
theorem pxCond_eq (l : Level) (ok : LevelSt → Bool) (p : Perf) : pxCond l ok p =
    if (oldLevel p l.val).active = false then violate p
    else { p with is := { p.is with cond := p.is.cond && ok (oldLevel p l.val) } } := by
  simp only [pxCond, Bool.not_eq_true']

/-- The px slots. -/
theorem prefixResultsPart : Claim.PrefixResultsPart := by
  intro l n g
  refine ⟨?rep, ?onFirst, ?onLast, ?seg⟩
  case rep => exact performsPx_of_prefixOp (fun _ => rfl) fun _ => rfl
  case onFirst => exact performsPx_of_prefixOp (fun _ => rfl) (pxCond_eq l _)
  case onLast => exact performsPx_of_prefixOp (fun _ => rfl) (pxCond_eq l _)
  case seg =>
    have hseg : ∀ s, exec (.pxSeg g) s = execPxSeg g s := fun _ => rfl
    refine performsPx_of_prefixOp hseg fun p => ?_
    simp only [Bool.or_eq_true, any_fst_eq_contains]
    rfl

/-- Settles O14, from its two parts. -/
theorem sequencerAndPrefixResults : Obligations.SequencerAndPrefixResults := ⟨sequencerResultsPart, prefixResultsPart⟩

/-! ### Results of the registers -/

/-- An entry just changed. -/
theorem vget_vmod {β : Type} {n : Nat} (d : β) (v : Vector β n) (f : β → β) {i : Nat} (h : i < n) :
    vget d (vmod v i f) i = f (vget d v i) := by
  simp [vget, vmod, h]

/-- Another entry. -/
theorem vget_vmod_ne {β : Type} {n : Nat} (d : β) (v : Vector β n) (f : β → β) {i j : Nat} (h : i ≠ j) :
    vget d (vmod v i f) j = vget d v j := by
  unfold vmod
  split
  · rfl
  · exact vget_vset_ne d v _ h

/-- A result bound as `pushResult` binds it: it awaits no far data and read no release (R9). -/
structure Plain (r : Result) : Prop where
  far : r.far = none
  rels : r.rels = []

/-- A plain result is to be written at `t`: it is due, and its block is present (R310). -/
def Lands (c : Ctx) (t : Nat) (r : Result) : Prop := r.due ≤ t ∧ blockHere c r.file r.num = true

/-- A plain result waits for its block alone. -/
theorem resultReady_of_plain (c : Ctx) {r : Result} (h : Plain r) : resultReady c r = blockHere c r.file r.num := by
  rw [resultReady, h.far]
  cases r.file <;> rfl

theorem lands_iff (c : Ctx) (t : Nat) {r : Result} (h : Plain r) :
    Lands c t r ↔ (decide (r.due ≤ t) && resultReady c r) = true := by
  simp only [Lands, resultReady_of_plain c h, Bool.and_eq_true, decide_eq_true_eq]

/-- A plain result changes the register it is bound to; that its block is touched changes no register. -/
theorem register_landOne (c : Ctx) {r : Result} (h : Plain r) (f : RFile) (k : Nat) :
    register (landOne c r) f k = register (landResult c r) f k := by
  simp only [landOne, h.far, h.rels, List.foldl_nil]
  cases r.file <;> rfl

/-- No block comes or goes when a plain result lands. -/
theorem blockHere_landOne (c : Ctx) {r : Result} (h : Plain r) (f : RFile) (k : Nat) :
    blockHere (landOne c r) f k = blockHere c f k := by
  simp only [landOne, h.far, h.rels, List.foldl_nil, landResult]
  cases r.file <;> rfl

theorem lands_landOne {c : Ctx} {t : Nat} {r r' : Result} (h : Plain r) (hl : Lands c t r') :
    Lands (landOne c r) t r' :=
  ⟨hl.1, (blockHere_landOne c h ..).trans hl.2⟩

/-- Every bit of the mask is taken from the value, every other bit stays (R9, R58). -/
theorem register_landResult_same (c : Ctx) (r : Result) (hn : r.num < fileSize r.file)
    (he : r.file = .e → r.mask.setWidth 8 = BitVec.allOnes 8) :
    register (landResult c r) r.file r.num = written r.file (register c r.file r.num) r.mask r.val := by
  obtain ⟨due, file, num, mask, val, far, rels⟩ := r
  dsimp only at hn he ⊢
  cases file
  case v =>
    simp only [written, fileWidth, BitVec.setWidth_eq]
    exact vget_vmod _ _ _ hn
  case e =>
    have hwhole : ((register c .e num &&& ~~~mask) ||| (val &&& mask)).setWidth 8 = val.setWidth 8 := by
      rw [BitVec.setWidth_or, BitVec.setWidth_and, BitVec.setWidth_and, BitVec.setWidth_not (by decide), he rfl,
        BitVec.not_allOnes, BitVec.and_zero, BitVec.zero_or, BitVec.and_allOnes]
    simp only [written, fileWidth, hwhole]
    exact congrArg (BitVec.setWidth 2048) (vget_vset _ _ _ hn)
  all_goals exact congrArg (BitVec.setWidth 2048) (vget_vmod _ _ _ hn)

theorem register_landResult_ne (c : Ctx) (r : Result) {f : RFile} {k : Nat} (h : f ≠ r.file ∨ k ≠ r.num) :
    register (landResult c r) f k = register c f k := by
  obtain ⟨due, file, num, mask, val, far, rels⟩ := r
  dsimp only at h
  by_cases hf : f = file
  · subst hf
    have hk : num ≠ k := (h.resolve_left (· rfl)).symm
    cases f <;> simp only [landResult, register, vget_vmod_ne _ _ _ hk, vget_vset_ne _ _ _ hk]
  · cases file <;> cases f <;> simp at hf <;> rfl

/-- Results that are all due land in the order they stand in, and none stays. -/
theorem landList_of_lands {t : Nat} {rs : List Result} {c : Ctx} (hp : ∀ r ∈ rs, Plain r) (hl : ∀ r ∈ rs, Lands c t r) :
    landList t rs [] c = { rs.foldl landOne c with results := [] } := by
  induction rs generalizing c with
  | nil => rfl
  | cons r rs ih =>
    obtain ⟨hpr, hprs⟩ := List.forall_mem_cons.mp hp
    obtain ⟨hlr, hlrs⟩ := List.forall_mem_cons.mp hl
    have hgo := (lands_iff c t hpr).mp hlr
    simp only [landList, hgo, List.any_nil, Bool.not_false, Bool.and_self, if_true, List.foldl_cons]
    exact ih hprs fun r' hr' => lands_landOne hpr (hlrs r' hr')

/-- Results of which none lands all stay, and nothing else changes. -/
theorem landList_of_waits {t : Nat} {rs kept : List Result} {c : Ctx} (hp : ∀ r ∈ rs, Plain r)
    (hl : ∀ r ∈ rs, ¬Lands c t r) : landList t rs kept c = { c with results := kept ++ rs } := by
  induction rs generalizing kept with
  | nil => rw [List.append_nil, landList]
  | cons r rs ih =>
    obtain ⟨hpr, hprs⟩ := List.forall_mem_cons.mp hp
    obtain ⟨hlr, hlrs⟩ := List.forall_mem_cons.mp hl
    have hstay := eq_false_of_ne_true (mt (lands_iff c t hpr).mpr hlr)
    simp only [landList, hstay, Bool.false_and, Bool.false_eq_true, if_false]
    rw [ih hprs hlrs, List.append_assoc, List.singleton_append]

theorem landDue_of_lands {c : Ctx} {t : Nat} (hp : ∀ r ∈ c.results, Plain r) (hl : ∀ r ∈ c.results, Lands c t r) :
    landDue c t = { c.results.foldl landOne c with results := [] } := landList_of_lands hp hl

theorem landDue_of_waits {c : Ctx} {t : Nat} (hp : ∀ r ∈ c.results, Plain r) (hl : ∀ r ∈ c.results, ¬Lands c t r) :
    landDue c t = c := landList_of_waits hp hl

/-- One plain result of a register, written to it. -/
theorem register_landOne_same {c : Ctx} {r : Result} (h : Plain r) (hn : r.num < fileSize r.file)
    (he : r.file = .e → r.mask.setWidth 8 = BitVec.allOnes 8) :
    register (landOne c r) r.file r.num = written r.file (register c r.file r.num) r.mask r.val :=
  (register_landOne c h ..).trans (register_landResult_same c r hn he)

theorem register_landOne_ne {c : Ctx} {r : Result} (h : Plain r) {f : RFile} {k : Nat} (hne : f ≠ r.file ∨ k ≠ r.num) :
    register (landOne c r) f k = register c f k :=
  (register_landOne c h ..).trans (register_landResult_ne c r hne)

/-- Settles O21: one or two plain results of a register, which all land or all stay. -/
theorem resultsLandWhenDue : Obligations.ResultsLandWhenDue := by
  unfold Obligations.ResultsLandWhenDue
  intro c t due num f m1 v1 m2 v2 hn he one two
  have hp1 : Plain one := ⟨rfl, rfl⟩
  have hp2 : Plain two := ⟨rfl, rfl⟩
  have hres : (c.results = [one] ∨ c.results = [one, two]) → ∀ {P : Result → Prop}, P one → P two →
      ∀ r ∈ c.results, P r := by
    intro hr P h1 h2
    rcases hr with hr | hr <;> simp [hr, h1, h2]
  refine ⟨fun hw hr => ?stays, fun hdue hhere => ?lands⟩
  case stays =>
    have hwait : ¬(due ≤ t ∧ blockHere c f num = true) := by
      rintro ⟨hd, hb⟩
      exact hw.elim (Nat.not_lt.mpr hd) (by simp [hb])
    exact landDue_of_waits (hres hr hp1 hp2) (hres hr hwait hwait)
  case lands =>
    have hland := fun hr => landDue_of_lands (hres hr hp1 hp2) (hres hr (P := Lands c t) ⟨hdue, hhere⟩ ⟨hdue, hhere⟩)
    have hone := register_landOne_same (c := c) hp1 hn fun h => (he h).1
    refine ⟨fun hr => ?_, fun hr => ?_, ?_⟩
    · rw [hland (.inl hr), hr]
      exact hone
    · rw [hland (.inr hr), hr, ← hone]
      exact register_landOne_same hp2 hn fun h => (he h).2
    · rintro (hr | hr)
      · rw [hland (.inl hr), hr]
        exact ⟨rfl, fun f' k hne => register_landOne_ne hp1 hne⟩
      · rw [hland (.inr hr), hr]
        exact ⟨rfl, fun f' k hne => (register_landOne_ne hp2 hne).trans (register_landOne_ne hp1 hne)⟩

/-! ### The system slots -/

/-- Settles O40: each slot is the model's own, whose gate is the statements' predicate. -/
theorem systemSlotResults : Obligations.SystemSlotResults := by
  unfold Obligations.SystemSlotResults
  intro k a q
  refine ⟨?trap, ?rft, ?rfu, ?yld, ?halt, ?kill⟩
  case trap => exact performs_of_slotOp (fun _ => rfl) (always_eq_unpredicated fun _ => rfl)
  case rft => exact performs_of_slotOp (fun _ => rfl) (gated_eq_predicated q fun _ => rfl)
  case rfu => exact performs_of_slotOp (fun _ => rfl) (gated_eq_predicated q fun _ => ite_not ..)
  case yld => exact performs_of_slotOp (fun _ => rfl) (gated_eq_predicated q fun _ => rfl)
  case halt => exact performs_of_slotOp (fun _ => rfl) (gated_eq_predicated q fun _ => ite_not ..)
  case kill =>
    refine performs_of_slotOp (fun _ => rfl) (gated_eq_predicated q fun p => ?_)
    dsimp only
    cases (readS p a.val).2.is.work.kill <;> rfl

end Sys2Proof.Proofs
end

section
/-! The scalar unit's logic, compares, shifts, counts, moves and immediates (O6, O7), and the queues of a context (O22). First
the integer types as patterns of their width, then the shapes of the scalar slots, then each statement's own part. -/

open Sys2Proof Sys2Proof.Machine Sys2Proof.Claim

namespace Sys2Proof.Proofs

/-! ### Words and their numbers -/

theorem ofNat_toNat_self {w : Nat} (v : BitVec w) : BitVec.ofNat w v.toNat = v := by
  rw [BitVec.ofNat_toNat, BitVec.setWidth_eq]

theorem ofInt_toNat {w : Nat} (v : BitVec w) : BitVec.ofInt w (v.toNat : Int) = v := by
  rw [BitVec.ofInt_natCast, ofNat_toNat_self]

theorem toSigned_toNat {w : Nat} (hw : 0 < w) (v : BitVec w) : toSigned w v.toNat = v.toInt := by
  rw [toSigned_eq_toInt hw, ofNat_toNat_self]

theorem wrapNat_eq_toNat (w : Nat) (i : Int) : wrapNat w i = (BitVec.ofInt w i).toNat := by
  rw [wrapNat, BitVec.toNat_ofInt, Int.natCast_pow]
  rfl

/-! ### Integer types as patterns of their width (R61, R144) -/

/-- A pattern of an integer type as a word, extended as the type says (R144). -/
def extend (ty : IntTy) (v : BitVec (tyWidth ty)) : Word := if tySigned ty then v.signExtend 64 else v.setWidth 64

theorem tyWidth_pos (ty : IntTy) : 0 < tyWidth ty := by cases ty <;> decide

theorem tyWidth_le (ty : IntTy) : tyWidth ty ≤ 64 := by cases ty <;> decide

theorem tyBits_eq_toNat (ty : IntTy) (x : Word) : tyBits ty x = (x.setWidth (tyWidth ty)).toNat :=
  (BitVec.toNat_setWidth ..).symm

/-- An operand is read as the signed or the unsigned number its pattern stands for. -/
theorem typeRead_eq (ty : IntTy) (x : Word) : typeRead ty x =
    if tySigned ty then (x.setWidth (tyWidth ty)).toInt else ((x.setWidth (tyWidth ty)).toNat : Int) := by
  rw [typeRead, toSigned_eq_toInt (tyWidth_pos ty), BitVec.ofNat_toNat, tyBits_eq_toNat]

/-- The number read wraps to the pattern it was read from. -/
theorem ofInt_typeRead (ty : IntTy) (x : Word) : BitVec.ofInt (tyWidth ty) (typeRead ty x) = x.setWidth (tyWidth ty) := by
  rw [typeRead_eq]
  split
  · exact BitVec.ofInt_toInt
  · exact ofInt_toNat _

/-- Wrapping to 64 bits first does not change the low ones. -/
theorem setWidth_wordOfInt {w : Nat} (hw : w ≤ 64) (v : Int) : (wordOfInt v).setWidth w = BitVec.ofInt w v := by
  apply BitVec.eq_of_toNat_eq
  rw [wordOfInt, BitVec.toNat_setWidth, BitVec.toNat_ofInt, BitVec.toNat_ofInt]
  have hd : ((2 ^ w : Nat) : Int) ∣ ((2 ^ 64 : Nat) : Int) := Int.natCast_dvd_natCast.mpr (Nat.pow_dvd_pow 2 hw)
  rw [← Int.emod_emod_of_dvd v hd]
  obtain ⟨k, hk⟩ := Int.eq_ofNat_of_zero_le (Int.emod_nonneg v (by decide : ((2 ^ 64 : Nat) : Int) ≠ 0))
  rw [hk]
  rfl

/-- The number read, as a word, is the pattern extended. -/
theorem wordOfInt_typeRead (ty : IntTy) (x : Word) : wordOfInt (typeRead ty x) = extend ty (x.setWidth (tyWidth ty)) := by
  rw [typeRead_eq, extend]
  split
  · rfl
  · rw [wordOfInt, BitVec.ofInt_natCast, BitVec.ofNat_toNat]

/-- A result wraps to the width of its type, and is extended by the type (R144). -/
theorem typeExt_eq (ty : IntTy) (v : Int) : typeExt ty v = extend ty (BitVec.ofInt (tyWidth ty) v) := by
  rw [typeExt, wordOfInt_typeRead, setWidth_wordOfInt (tyWidth_le ty)]

/-- A binary operation of the statements, at the width of its type. -/
theorem typed2_eq (sg un : (w : Nat) → BitVec w → BitVec w → BitVec w) (ty : IntTy) (x y : Word) : typed2 sg un ty x y =
    extend ty ((if tySigned ty then sg else un) (tyWidth ty) (x.setWidth (tyWidth ty)) (y.setWidth (tyWidth ty))) := by
  cases ty <;> simp [typed2, extend, tySigned, tyWidth]

theorem typed1_eq (f : (w : Nat) → BitVec w → BitVec w) (ty : IntTy) (x : Word) :
    typed1 f ty x = extend ty (f (tyWidth ty) (x.setWidth (tyWidth ty))) := by
  rw [typed1, typed2_eq, ite_self]

theorem counted_eq (f : (w : Nat) → BitVec w → Nat) (ty : IntTy) (x : Word) :
    counted f ty x = BitVec.ofNat 64 (f (tyWidth ty) (x.setWidth (tyWidth ty))) := by
  cases ty <;> simp [counted, tyWidth]

/-- The number a pattern is read as is 0 exactly where the extended pattern is. -/
theorem typeRead_eq_zero_iff (ty : IntTy) (x : Word) : typeRead ty x = 0 ↔ typed1 (fun _ v => v) ty x = 0 := by
  rw [typed1_eq, ← wordOfInt_typeRead]
  constructor
  · intro h
    rw [h]
    rfl
  · intro h
    have hw := ofInt_typeRead ty x
    rw [← setWidth_wordOfInt (tyWidth_le ty), h] at hw
    rw [typeRead_eq, ← hw]
    simp

/-! ### Operations on patterns (R145, R146) -/

theorem ofInt_ofBool (w : Nat) (b : Bool) : BitVec.ofInt w (ofBool b) = if b then 1 else 0 := by
  cases b <;> rfl

theorem andInt_eq (w : Nat) (x y : Int) : andInt w x y = ((BitVec.ofInt w x &&& BitVec.ofInt w y).toNat : Int) := by
  rw [andInt, wrapNat_eq_toNat, wrapNat_eq_toNat]
  rfl

theorem orInt_eq (w : Nat) (x y : Int) : orInt w x y = ((BitVec.ofInt w x ||| BitVec.ofInt w y).toNat : Int) := by
  rw [orInt, wrapNat_eq_toNat, wrapNat_eq_toNat]
  rfl

theorem xorInt_eq (w : Nat) (x y : Int) : xorInt w x y = ((BitVec.ofInt w x ^^^ BitVec.ofInt w y).toNat : Int) := by
  rw [xorInt, wrapNat_eq_toNat, wrapNat_eq_toNat]
  rfl

theorem shlBits_eq {w : Nat} (v : BitVec w) (n : Nat) : shlBits w v.toNat n = (v <<< n).toNat := by
  rw [shlBits]
  split
  · next h => rw [BitVec.shiftLeft_eq_zero h, BitVec.toNat_zero]
  · rw [BitVec.toNat_shiftLeft, Nat.shiftLeft_eq]

theorem shrBits_eq {w : Nat} (v : BitVec w) (n : Nat) : shrBits w v.toNat n = (v >>> n).toNat := by
  rw [shrBits]
  split
  · next h => rw [BitVec.ushiftRight_eq_zero h, BitVec.toNat_zero]
  · rw [BitVec.toNat_ushiftRight, Nat.shiftRight_eq_div_pow]

/-- Bit `n` of a pattern, as the model reads it from a number. -/
theorem bitAt_eq_getLsbD {w : Nat} (v : BitVec w) (n : Nat) : bitAt v.toNat n = v.getLsbD n := by
  rw [bitAt, ← BitVec.testBit_toNat, Nat.testBit_eq_decide_div_mod_eq]
  rfl

/-- An amount of the width or more leaves the sign alone; a smaller one divides, toward minus infinity (R146). -/
theorem sraBits_eq {w : Nat} (hw : 0 < w) (v : BitVec w) (n : Nat) : sraBits w v.toNat n = (v.sshiftRight n).toNat := by
  rw [sraBits]
  split
  case isTrue h =>
    rw [bitAt_eq_getLsbD, ← BitVec.msb_eq_getLsbD_last, BitVec.toNat_sshiftRight]
    have hlow : ∀ a, a < 2 ^ w → a >>> n = 0 := fun a ha =>
      Nat.shiftRight_eq_zero a n (Nat.lt_of_lt_of_le ha (Nat.pow_le_pow_right (by decide) h))
    have hv := v.isLt
    rw [hlow _ hv, hlow _ (by omega), Nat.sub_zero]
  case isFalse h =>
    rw [wrapNat_eq_toNat, toSigned_toNat hw, BitVec.sshiftRight, Int.shiftRight_eq_div_pow, Int.natCast_pow]
    rfl

/-- The field from bit `n` up, bits past the word reading 0 (R146). -/
theorem extBits_eq (w : Nat) (x : Word) (n : Nat) : extBits w x.toNat n = ((x >>> n).setWidth w).toNat := by
  rw [extBits]
  split
  · next h => simp [BitVec.ushiftRight_eq_zero h]
  · rw [BitVec.toNat_setWidth, BitVec.toNat_ushiftRight, Nat.shiftRight_eq_div_pow]

/-! ### Shapes of scalar slots -/

section Slots
variable {i : Instr} {lat : Nat} {d a b : SReg} {ty : IntTy} {q : QReg}

/-- An integer slot of two operands performs what its exact result is, wrapped to the width: by the signed operation at the
signed types, by the unsigned one at the others. -/
theorem performs_intOp2 {op : IntTy → Int → Int → Int} {sg un : (w : Nat) → BitVec w → BitVec w → BitVec w}
    (hi : ∀ s, exec i s = slotOp s (gated q (intOp2 lat op d a b ty)))
    (h : ∀ x y, BitVec.ofInt (tyWidth ty) (op ty (typeRead ty x) (typeRead ty y)) =
      (if tySigned ty then sg else un) (tyWidth ty) (x.setWidth (tyWidth ty)) (y.setWidth (tyWidth ty))) :
    Performs i (predicated q (fromTwo lat (typed2 sg un ty) d a b)) := by
  refine performs_of_slotOp hi (gated_eq_predicated q fun p => ?_)
  simp only [intOp2, fromTwo, typeExt_eq, h, typed2_eq]

/-- A slot whose operation acts on the patterns, the same at signed and unsigned types. -/
theorem performs_bitwise {op : IntTy → Int → Int → Int} {f : (w : Nat) → BitVec w → BitVec w → BitVec w}
    (hi : ∀ s, exec i s = slotOp s (gated q (intOp2 lat op d a b ty)))
    (h : ∀ x y, op ty x y = ((f _ (BitVec.ofInt (tyWidth ty) x) (BitVec.ofInt (tyWidth ty) y)).toNat : Int)) :
    Performs i (predicated q (fromTwo lat (typed2 f f ty) d a b)) :=
  performs_intOp2 hi fun x y => by rw [h, ofInt_toNat, ofInt_typeRead, ofInt_typeRead, ite_self]

/-- A compare, which asks about the numbers read what the statements ask of the patterns. -/
theorem performs_compare {rel : Int → Int → Bool} {sg un : (w : Nat) → BitVec w → BitVec w → Bool}
    (hi : ∀ s, exec i s = slotOp s (gated q (intOp2 lat (fun _ x y => ofBool (rel x y)) d a b ty)))
    (hsg : ∀ {w : Nat} (x y : BitVec w), rel x.toInt y.toInt = sg w x y)
    (hun : ∀ {w : Nat} (x y : BitVec w), rel x.toNat y.toNat = un w x y) :
    Performs i (predicated q (fromTwo lat (compared sg un ty) d a b)) := by
  refine performs_intOp2 hi fun x y => ?_
  rw [ofInt_ofBool, typeRead_eq, typeRead_eq]
  cases tySigned ty with
  | true => simp only [if_true, hsg]
  | false => simp only [Bool.false_eq_true, if_false, hun]

/-- A shift by the second register in full (R146). -/
theorem performs_shiftOp {op : IntTy → Word → Nat → Nat} {val : Word → Word → Word}
    (hi : ∀ s, exec i s = slotOp s (gated q (shiftOp op d a b ty)))
    (h : ∀ x y : Word, extend ty (BitVec.ofNat (tyWidth ty) (op ty x y.toNat)) = val x y) :
    Performs i (predicated q (fromTwo 1 val d a b)) := by
  refine performs_of_slotOp hi (gated_eq_predicated q fun p => ?_)
  simp only [shiftOp, fromTwo, typeExt_eq, BitVec.ofInt_natCast, h]

/-- An integer slot of one operand. -/
theorem performs_intOp1 {op : IntTy → Word → Int} {val : Word → Word}
    (hi : ∀ s, exec i s = slotOp s (gated q (intOp1 op d a ty))) (h : ∀ x, typeExt ty (op ty x) = val x) :
    Performs i (predicated q (fromOne 1 val d a)) := by
  refine performs_of_slotOp hi (gated_eq_predicated q fun p => ?_)
  simp only [intOp1, fromOne, h]

end Slots

/-! ### Logic, compares, shifts and the field extract -/

/-- The bitwise slots act on the patterns; the compares ask about the numbers these stand for. -/
theorem scalarLogicAndCompareResultsPart : Claim.ScalarLogicAndCompareResultsPart := by
  intro d a b ty q
  refine ⟨?and, ?or, ?xor, ?ceq, ?clt, ?cle⟩
  case and => exact performs_bitwise (fun _ => rfl) fun x y => andInt_eq ..
  case or => exact performs_bitwise (fun _ => rfl) fun x y => orInt_eq ..
  case xor => exact performs_bitwise (fun _ => rfl) fun x y => xorInt_eq ..
  case ceq =>
    refine performs_compare (rel := (· == ·)) (fun _ => rfl) (fun x y => ?_) fun x y => ?_
    · rw [Bool.eq_iff_iff, beq_iff_eq, beq_iff_eq, BitVec.toInt_inj]
    · rw [Bool.eq_iff_iff, beq_iff_eq, beq_iff_eq, Int.natCast_inj, BitVec.toNat_inj]
  case clt =>
    refine performs_compare (rel := fun x y => decide (x < y)) (fun _ => rfl) (fun x y => rfl) fun x y => ?_
    exact decide_eq_decide.mpr Int.ofNat_lt
  case cle =>
    refine performs_compare (rel := fun x y => decide (x ≤ y)) (fun _ => rfl) (fun x y => rfl) fun x y => ?_
    exact decide_eq_decide.mpr Int.ofNat_le

/-- Each shift moves the pattern of the type by the whole amount; the extract shifts the word and then takes the pattern. -/
theorem scalarShiftResultsPart : Claim.ScalarShiftResultsPart := by
  intro d a b ty q
  refine ⟨?shl, ?shr, ?sra, ?ext⟩
  case shl =>
    refine performs_shiftOp (fun _ => rfl) fun x y => ?_
    rw [typed1_eq, tyBits_eq_toNat, shlBits_eq, ofNat_toNat_self]
  case shr =>
    refine performs_shiftOp (fun _ => rfl) fun x y => ?_
    rw [typed1_eq, tyBits_eq_toNat, shrBits_eq, ofNat_toNat_self]
  case sra =>
    refine performs_shiftOp (fun _ => rfl) fun x y => ?_
    rw [typed1_eq, tyBits_eq_toNat, sraBits_eq (tyWidth_pos ty), ofNat_toNat_self]
  case ext =>
    refine performs_shiftOp (fun _ => rfl) fun x y => ?_
    rw [typed1_eq, extBits_eq, ofNat_toNat_self]

/-- Settles O6, from its two parts. -/
theorem scalarLogicResults : Obligations.ScalarLogicResults :=
  ⟨scalarLogicAndCompareResultsPart, scalarShiftResultsPart⟩

/-! ### Counts, moves, the select and the predicate set -/

/-- Zeros from the top down to the highest 1. -/
theorem countLeadZero_eq_length (w x : Nat) (hx : x < 2 ^ w) :
    ((List.range w).takeWhile fun i => !x.testBit (w - 1 - i)).length = countLeadZero w x := by
  rw [countLeadZero, List.takeWhile_eq_take_findIdx_not, List.length_take, List.length_range]
  simp only [Bool.not_not]
  split
  case isTrue h0 =>
    have hnone : (List.range w).findIdx (fun i => x.testBit (w - 1 - i)) = w := by
      rw [List.findIdx_eq_length.mpr (by simp [h0]), List.length_range]
    rw [hnone, Nat.min_self]
  case isFalse h0 =>
    have hlog : x.log2 < w := (Nat.log2_lt h0).mpr hx
    have hfirst : (List.range w).findIdx (fun i => x.testBit (w - 1 - i)) = w - 1 - x.log2 := by
      refine (List.findIdx_eq (by rw [List.length_range]; omega)).mpr ⟨?_, fun j hj => ?_⟩
      · rw [List.getElem_range, Nat.sub_sub_self (by omega)]
        exact Nat.testBit_log2 h0
      · rw [List.getElem_range]
        exact Nat.testBit_lt_two_pow ((Nat.log2_lt h0).mp (by omega))
    rw [hfirst, Nat.min_eq_left (by omega)]

/-- Zeros from bit 0 up to the lowest 1. -/
theorem countTrailZero_eq_length (w x : Nat) :
    ((List.range w).takeWhile fun i => !x.testBit i).length = countTrailZero x w := by
  induction w generalizing x with
  | zero => rfl
  | succ w ih =>
    rw [countTrailZero, List.range_succ_eq_map, List.takeWhile_cons, Nat.testBit_zero]
    by_cases h : x % 2 = 1
    · simp [h]
    · rw [if_neg h, ← ih]
      simp [h, List.takeWhile_map, Function.comp_def, Nat.testBit_succ, Nat.add_comm]

theorem countOnes_eq_length (w x : Nat) : ((List.range w).filter fun i => x.testBit i).length = countOnes x w := by
  induction w generalizing x with
  | zero => rfl
  | succ w ih =>
    rw [countOnes, List.range_succ_eq_map, List.filter_cons, Nat.testBit_zero, ← ih]
    rcases Nat.mod_two_eq_zero_or_one x with h | h <;>
      simp [h, List.filter_map, Function.comp_def, Nat.testBit_succ, Nat.add_comm]

/-- A count of bits is less than half the range of its type, so its extension is the count itself. -/
theorem typeExt_count (ty : IntTy) {n : Nat} (h : n ≤ tyWidth ty) : typeExt ty (n : Int) = BitVec.ofNat 64 n := by
  have hsmall : tyWidth ty < 2 ^ (tyWidth ty - 1) := by cases ty <;> decide
  have hpow : 2 ^ (tyWidth ty - 1) ≤ 2 ^ tyWidth ty := Nat.pow_le_pow_right (by decide) (Nat.sub_le ..)
  have hmod : (BitVec.ofNat (tyWidth ty) n).toNat = n := by
    rw [BitVec.toNat_ofNat, Nat.mod_eq_of_lt (by omega)]
  have hmsb : (BitVec.ofNat (tyWidth ty) n).msb = false := by
    rw [BitVec.msb_eq_decide, hmod, decide_eq_false_iff_not]
    omega
  rw [typeExt_eq, BitVec.ofInt_natCast, extend, BitVec.signExtend_eq_setWidth_of_msb_false hmsb, ite_self,
    ← BitVec.ofNat_toNat, hmod]

/-- A slot that counts bits of the pattern it reads, never more than there are. -/
theorem performs_count {i : Instr} {d a : SReg} {ty : IntTy} {q : QReg} {op : IntTy → Word → Nat}
    {f : (w : Nat) → BitVec w → Nat}
    (hi : ∀ s, exec i s = slotOp s (gated q (intOp1 (fun ty x => (op ty x : Int)) d a ty)))
    (hle : ∀ {w : Nat} (v : BitVec w), f w v ≤ w) (h : ∀ x, f _ (x.setWidth (tyWidth ty)) = op ty x) :
    Performs i (predicated q (fromOne 1 (counted f ty) d a)) :=
  performs_intOp1 hi fun x => by rw [← h, typeExt_count ty (hle _), counted_eq]

theorem length_takeWhile_range_le (w : Nat) (f : Nat → Bool) : ((List.range w).takeWhile f).length ≤ w :=
  Nat.le_trans (List.takeWhile_sublist f).length_le (Nat.le_of_eq List.length_range)

theorem length_filter_range_le (w : Nat) (f : Nat → Bool) : ((List.range w).filter f).length ≤ w :=
  Nat.le_trans (List.length_filter_le ..) (Nat.le_of_eq List.length_range)

/-- The counts are lengths over the bits of the pattern; the moves, the select and the predicate set read a register as its
pattern extended. -/
theorem scalarCountMoveSelectResultsPart : Claim.ScalarCountMoveSelectResultsPart := by
  intro d a b dq ty q
  refine ⟨?clz, ?ctz, ?cnt, ?mov, ?sel, ?qset, ?nop⟩
  case clz =>
    refine performs_count (fun _ => rfl) (fun v => length_takeWhile_range_le ..) fun x => ?_
    simp only [← BitVec.testBit_toNat, countLeadZero_eq_length _ _ (BitVec.isLt _), tyBits_eq_toNat]
  case ctz =>
    refine performs_count (fun _ => rfl) (fun v => length_takeWhile_range_le ..) fun x => ?_
    simp only [← BitVec.testBit_toNat, countTrailZero_eq_length, tyBits_eq_toNat]
  case cnt =>
    refine performs_count (fun _ => rfl) (fun v => length_filter_range_le ..) fun x => ?_
    simp only [← BitVec.testBit_toNat, countOnes_eq_length, tyBits_eq_toNat]
  case mov =>
    refine performs_intOp1 (fun _ => rfl) fun x => ?_
    rw [typeExt_eq, ofInt_typeRead, typed1_eq]
  case sel =>
    refine performs_of_slotOp (fun _ => rfl) (always_eq_unpredicated fun p => ?_)
    simp only [← apply_ite (typeRead ty), wordOfInt_typeRead, typed1_eq]
  case qset =>
    refine performs_of_slotOp (fun _ => rfl) (gated_eq_predicated q fun p => ?_)
    have h64 : tyWidth ty = 64 ↔ ty = .i64 ∨ ty = .n64 := by cases ty <;> decide
    simp only [qsetMask, h64, ne_eq, typeRead_eq_zero_iff, ite_not]
  case nop => exact performs_of_slotOp (fun _ => rfl) fun _ => rfl

/-! ### Immediates -/

/-- An si slot that reads its register performs what its number is, modulo 2^64. -/
theorem performs_immOp {i : Instr} {d : SReg} {k : BitVec 16} {op : Nat → Nat → Nat} {val : Word → Word}
    (hi : ∀ s, exec i s = slotOp s (always (immOp op d k))) (h : ∀ x : Word, BitVec.ofNat 64 (op x.toNat k.toNat) = val x) :
    Performs i (unpredicated (fromOne 1 val d d)) := by
  refine performs_of_slotOp hi (always_eq_unpredicated fun p => ?_)
  simp only [immOp, fromOne, h]

theorem toNat_append_eq_add {m n : Nat} (x : BitVec m) (y : BitVec n) : (x ++ y).toNat = x.toNat * 2 ^ n + y.toNat := by
  rw [BitVec.toNat_append, ← Nat.shiftLeft_add_eq_or_of_lt y.isLt, Nat.shiftLeft_eq]

/-- A half in the middle of a word is replaced: what stands above and below it stays. -/
theorem setHalf_eq_append {w l n : Nat} (x : BitVec w) (k : BitVec 16) (h : l + 16 + n = w) :
    setHalf l x.toNat k.toNat = (x.extractLsb' (l + 16) n ++ k ++ x.extractLsb' 0 l).toNat := by
  have hhigh : x.toNat / 2 ^ (l + 16) < 2 ^ n := by
    rw [Nat.div_lt_iff_lt_mul (Nat.two_pow_pos _), Nat.mul_comm, ← Nat.pow_add, h]
    exact x.isLt
  rw [setHalf, toNat_append_eq_add, toNat_append_eq_add, BitVec.extractLsb'_toNat, BitVec.extractLsb'_toNat,
    Nat.shiftRight_eq_div_pow, Nat.shiftRight_zero, Nat.mod_eq_of_lt hhigh, Nat.add_mul, Nat.mul_assoc, ← Nat.pow_add,
    Nat.add_comm 16 l]

/-- The sign-extended immediate as a number. -/
theorem sext16_eq_toNat (k : BitVec 16) : sext16 k.toNat = (k.signExtend 64).toNat := by
  rw [sext16, wrapNat_eq_toNat, toSigned_toNat (by decide)]
  rfl

theorem ofNat_boolToNat (b : Bool) : BitVec.ofNat 64 b.toNat = if b then 1 else 0 := by
  cases b <;> rfl

/-- The si slots. -/
theorem immediateResultsPart : Claim.ImmediateResultsPart := by
  intro d k
  refine ⟨?li, ?ih1, ?ih2, ?ih3, ?addi, ?ori, ?ceqi, ?clti⟩
  case li => exact performs_of_slotOp (fun _ => rfl) (always_eq_unpredicated fun p => by rw [BitVec.ofNat_toNat])
  case ih1 =>
    refine performs_immOp (fun _ => rfl) fun x => ?_
    rw [setHalf_eq_append (n := 32) x k rfl]
    exact ofNat_toNat_self _
  case ih2 =>
    refine performs_immOp (fun _ => rfl) fun x => ?_
    rw [setHalf_eq_append (n := 16) x k rfl]
    exact ofNat_toNat_self _
  case ih3 =>
    refine performs_immOp (fun _ => rfl) fun x => ?_
    rw [setHalf_eq_append (n := 0) x k rfl, BitVec.zero_width_append]
    exact ofNat_toNat_self _
  case addi =>
    refine performs_immOp (fun _ => rfl) fun x => ?_
    rw [sext16_eq_toNat, BitVec.ofNat_add, ofNat_toNat_self, ofNat_toNat_self]
  case ori =>
    refine performs_immOp (fun _ => rfl) fun x => ?_
    exact BitVec.ofNat_or.trans (by rw [ofNat_toNat_self, BitVec.ofNat_toNat])
  case ceqi =>
    refine performs_immOp (fun _ => rfl) fun x => ?_
    simp only [sext16_eq_toNat, ofNat_boolToNat, beq_iff_eq, BitVec.toNat_inj]
  case clti =>
    refine performs_immOp (fun _ => rfl) fun x => ?_
    rw [ofNat_boolToNat, toSigned_toNat (by decide), toSigned_toNat (by decide),
      ← BitVec.toInt_signExtend_of_le (by decide : 16 ≤ 64)]
    rfl

/-- Settles O7, from its two parts. -/
theorem countMoveSelectAndImmediateResults : Obligations.CountMoveSelectAndImmediateResults :=
  ⟨scalarCountMoveSelectResultsPart, immediateResultsPart⟩

/-! ### The queues of a context -/

/-- The claims count the loads in flight to a port after the entries arrived. -/
theorem loadCount_false (c : Ctx) : loadCount c false = c.ldq.length + (c.laq.filter fun e => !e.vec && !e.atomic).length := by
  simp only [loadCount, Nat.add_comm, beq_false, Bool.false_eq_true, if_false]

theorem loadCount_true (c : Ctx) : loadCount c true = c.vldq.length + (c.laq.filter fun e => e.vec && !e.atomic).length := by
  simp only [loadCount, Nat.add_comm, beq_true, if_true]

theorem queueOver_iff (c : Ctx) : queueOver c = true ↔ overfull c := by
  simp only [queueOver, overfull, Bool.or_eq_true, decide_eq_true_eq, loadCount_false, loadCount_true, or_assoc]

/-- The issuing member's working copy, after it is changed. -/
theorem workCtx_modWork (p : Perf) (f : Ctx → Ctx) (h : p.is.m < p.is.work.members.length) :
    workCtx (modWork p f) = f (workCtx p) := getCtx_modCtx _ f h

/-- A push that leaves a queue too full violates the schedule (R140). -/
theorem pushQueue_overfull {p : Perf} {f : Ctx → Ctx} (h : overfull (workCtx (modWork p f))) :
    pushQueue p f = violate (modWork p f) := if_pos ((queueOver_iff _).mpr h)

theorem pushQueue_fits {p : Perf} {f : Ctx → Ctx} (h : ¬overfull (workCtx (modWork p f))) :
    pushQueue p f = modWork p f := if_neg (mt (queueOver_iff _).mp h)

/-- Whether or not it violates the schedule, a push changes the working copy as told. -/
theorem workCtx_pushQueue (p : Perf) (f : Ctx → Ctx) : workCtx (pushQueue p f) = workCtx (modWork p f) := by
  by_cases h : overfull (workCtx (modWork p f))
  · rw [pushQueue_overfull h]
    rfl
  · rw [pushQueue_fits h]

/-- Of loads of which the first alone has arrived, it alone moves, to the queue of its kind (R139). -/
theorem arriveLoads_cons {c : Ctx} {t : Nat} {e : LaqEntry} {r : List LaqEntry} (hc : c.laq = e :: r) (he : e.arrive ≤ t)
    (hr : ∀ x ∈ r, t < x.arrive) (ha : e.atomic = false) : arriveLoads c t = { c with
      laq := r
      ldq := if e.vec = true then c.ldq else c.ldq ++ [e.data.setWidth 64]
      vldq := if e.vec = true then c.vldq ++ [e.data] else c.vldq } := by
  have hhere : (e :: r).filter (fun x => decide (x.arrive ≤ t)) = [e] := by
    rw [List.filter_cons_of_pos (by simpa using he), List.filter_eq_nil_iff.mpr]
    simpa using hr
  have hstay : (e :: r).filter (fun x => decide (t < x.arrive)) = r := by
    rw [List.filter_cons_of_neg (by simpa using he), List.filter_eq_self.mpr]
    simpa using hr
  simp only [arriveLoads, hc, hhere, hstay]
  cases hv : e.vec <;> simp [hv, ha]

/-- Settles O22: a push is the change of the working copy and one check of it; the queues' own pushes are such. -/
theorem queuesHoldSixteenEntries : Obligations.QueuesHoldSixteenEntries := by
  unfold Obligations.QueuesHoldSixteenEntries
  refine ⟨fun p f hm => ?push, fun p lat v x vec atomic => ⟨rfl, rfl, rfl⟩,
    fun c t e r hc he hr ha => arriveLoads_cons hc he hr ha⟩
  case push =>
    rw [← workCtx_modWork p f hm]
    refine ⟨workCtx_pushQueue p f, fun hover => ?_, fun hfits => ?_⟩
    · rw [pushQueue_overfull hover]
      rfl
    · rw [pushQueue_fits hfits]
      rfl

end Sys2Proof.Proofs
end
